-- ==== Sys2Proof/Word.lean ====
section
/-! DEFINITION. The word types of the Kerene-160 and the sparse tables its state is made of. -/

namespace Sys2Proof

abbrev Byte := BitVec 8
abbrev W16 := BitVec 16
abbrev W32 := BitVec 32
abbrev W64 := BitVec 64

/-- A sparse table in one canonical form: keys strictly rising, and no entry that equals
what an unlisted key reads as. -/
abbrev Tbl (α : Type) := List (Nat × α)

end Sys2Proof
end

