-- ==== Sys2Proof/Types.lean ====
section
/-! DEFINITION. The operand types of the commands: what stands in a TLP, a raw ingot record, a Cupel message,
a die-to-die frame, a control message and the other things that reach the device from outside. -/

namespace Sys2Proof

abbrev PortId := Fin 80
abbrev StationId := Fin 10
abbrev LaneId := Fin 16
abbrev QuadId := Fin 4
abbrev SlotId := Fin 24
abbrev TenantId := Fin 256
abbrev GroupId := Fin 1024
abbrev ChipId := Fin 16
abbrev ChanId := Fin 2
abbrev RailId := Fin 14

/-- The two management paths (R9). -/
inductive Path where
  | mf | i3c
  deriving DecidableEq, Repr

/-- The TLP kinds that Table 4.2 routes; `dmwr` is the non-posted memory write of R126. -/
inductive TlpKind where
  | mrd | mwr | dmwr | atomic | iord | iowr | cfgrd0 | cfgwr0 | cfgrd1 | cfgwr1 | msg | cpl
  deriving DecidableEq, Repr

/-- Message routing of Table 4.2. -/
inductive MsgRoute where
  | toRoot | broadcast | local | byId | byAddr
  deriving DecidableEq, Repr

inductive AtomicOp where
  | fetchAdd | swap | cas
  deriving DecidableEq, Repr

/-- Completion status: successful, Unsupported Request, Completer Abort, Request Retry Status. -/
inductive CplStatus where
  | sc | ur | ca | rrs
  deriving DecidableEq, Repr

/-- A PASID prefix (R200). -/
structure Pasid where
  value : BitVec 20
  priv  : Bool
  exe   : Bool
  deriving DecidableEq, Repr

/-- A TLP in its non-flit form (R24). -/
structure Tlp where
  kind      : TlpKind
  tc        : BitVec 3 := 0
  rid       : W16 := 0
  tag       : BitVec 14 := 0
  addr      : W64 := 0
  len       : Nat := 0            -- bytes asked for, or carried
  data      : List Byte := []
  hdr4      : Bool := false       -- a 16-byte header
  prefixes  : List W32 := []      -- End-End TLP prefixes other than the PASID prefix
  pasid     : Option Pasid := none
  digest    : Bool := false
  ide       : Bool := false
  relaxed   : Bool := false
  ido       : Bool := false       -- ID-Based Ordering (R112)
  addrType  : BitVec 2 := 0
  poisoned  : Bool := false
  firstBe   : BitVec 4 := 15
  lastBe    : BitVec 4 := 15
  cid       : W16 := 0            -- completer or target ID
  status    : CplStatus := .sc
  byteCount : Nat := 0
  route     : MsgRoute := .toRoot
  msgCode   : Byte := 0
  atomicOp  : AtomicOp := .fetchAdd
  malformed : Bool := false       -- fails the Base Specification's checks
  deriving DecidableEq, Repr

/-- A Farug header (Table 9.2) with its trailer (R260). -/
structure Farug where
  dstChip : Nat
  dstPort : Nat
  srcChip : Nat
  srcPort : Nat
  tenant  : Nat
  ownerM  : Bool := false
  epoch   : Bool := false
  tc      : Nat := 0
  hops    : Nat := 3
  trusted : Bool := false
  stomp   : Bool := false
  seq     : Nat := 0
  deriving DecidableEq, Repr

/-- A record as framed in the ingot (Table 2.2). -/
structure RawRec where
  type    : Nat
  version : Nat := 1
  inst    : Nat := 0
  basic   : List Byte := []
  expert  : List Byte := []
  padOk   : Bool := true          -- the padding before the next record is 0
  lenOk   : Bool := true          -- BASIC_LEN and EXPERT_LEN are multiples of 4 and match the blocks
  deriving DecidableEq, Repr

/-- A signature as the key and the bytes it verifies for. -/
structure Sig where
  signer : Nat
  msg    : List Byte
  deriving DecidableEq, Repr, Inhabited

/-- The header of Table 2.1, as read from its 512 bytes. `rsvdZero` says that every reserved byte is 0. -/
structure IngotHeader where
  magic      : Nat := 0x47494B59
  format     : Nat := 1
  headerLen  : Nat := 0x200
  totalLen   : Nat
  secVersion : Nat := 0
  seq        : W32 := 0
  deviceId   : Nat := 0x160
  fwOffset   : Nat
  fwLen      : Nat
  recOffset  : Nat
  recLen     : Nat
  recCount   : Nat
  xspiProfile : Nat := 3
  keySlot    : Nat := 0
  buildId    : List Byte := []
  sigR       : Nat := 0
  sigS       : Nat := 0
  rsvdZero   : Bool := true
  deriving DecidableEq, Repr

/-- An ECDSA signature that somebody has made: its two numbers, the key that it verifies under and the bytes that it is over. -/
structure MadeSig where
  r      : Nat
  s      : Nat
  signer : Nat
  msg    : List Byte
  deriving DecidableEq, Repr

/-- The flash as the device finds it at the fetch of one slot (R38, R39, R51): how often the read failed, the density, what has been
programmed (an offset and its bytes, later extents over earlier ones; everything else is erased), and the signatures that the holders of
the keys have made. -/
structure FlashSlot where
  readFailures : Nat := 0
  density      : Nat := 0x2000000   -- bytes, from SFDP
  extents      : List (Nat × List Byte) := []
  made         : List MadeSig := []
  deriving DecidableEq, Repr

/-- A Cupel message (Table 11.1), with its context (Table 11.3) taken apart. -/
structure Msg where
  source   : Nat
  inst     : Nat := 0
  kind     : Nat
  severity : Nat := 0
  tenant   : Nat := 0
  ownerValid : Bool := false
  ownerM   : Bool := false
  port     : Nat := 0x7F
  detail   : Nat := 0
  time     : Nat := 0
  parityOk : Bool := true
  orig     : List Byte := []        -- the original message that a REMOTE message carries (R327)
  dest     : Option (Nat × Nat) := none  -- chip and port that the TLP behind it was for (Table 10.1); no bit of the message
  deriving DecidableEq, Repr

/-- The classes of Table 1.4. -/
inductive D2dClass where
  | idle | cmd | cfg | quench | stat | sample | alarm | ack | reserved (code : Nat)
  deriving DecidableEq, Repr

/-- The per-slot orders a CMD frame carries (Table 1.4). -/
inductive SlotCmd where
  | powerOn | powerOff | forcedOn | retryStart | latchClear
  deriving DecidableEq, Repr

inductive Side where
  | switchDie | powerDie
  deriving DecidableEq, Repr

/-- A die-to-die frame (R34). Fields that its class does not use are 0. -/
structure D2dFrame where
  cls    : D2dClass
  crcOk  : Bool := true
  seq    : Nat := 0
  slot   : Nat := 0
  cmd    : SlotCmd := .powerOn
  field  : Nat := 0
  value  : Nat := 0
  kind   : Nat := 0
  stamp  : Nat := 0
  deriving DecidableEq, Repr

/-- The HELLO body of Table 9.3. -/
structure HelloBody where
  chip      : Nat
  fabricId  : W32
  port      : Nat
  rootChip  : Nat
  depth     : Nat
  epoch     : Bool
  coldStart : Bool
  mode      : Nat
  deriving DecidableEq, Repr

/-- What a GOP message carries (Table 9.3, R267, R279, R280). -/
inductive GopBody where
  | barrierEnter (id : Nat) (chips : BitVec 16)
  | barrierLeave (id : Nat) (chip : ChipId)
  | barrierDone (id : Nat)
  | broadcast (data : W64) (src : ChipId)
  | fabricReset
  | prepare (issuer : ChipId) (newTag : W32)
  | prepareReply (chip : ChipId) (takesPart draining tagDiffers : Bool)
  | commit (at_ : W64)
  | snapshot (at_ : W64) (snapId : W32)
  deriving DecidableEq, Repr

/-- Who writes a link control field of a downstream bridge (R98). -/
inductive Writer where
  | host (vh : Nat) | mf
  deriving DecidableEq, Repr

/-- The states of a fault ring input (R287). -/
inductive RingIn where
  | healthy | alarm | broken
  deriving DecidableEq, Repr

/-- An Assay outcome (Table 13.10, Table 13.13). -/
structure AssayOutcome where
  pass     : Bool
  test     : Nat := 0
  lane     : Option Nat := none
  duration : Nat := 0               -- µs
  deriving DecidableEq, Repr, Inhabited

/-- What the monitor of a feed reads, and for how long without a break it has read on the same side of each threshold (R342 to R352). -/
structure FeedRead where
  mv : Nat
  ns : Nat
  deriving DecidableEq, Repr, Inhabited

/-- What the SPDM exchange with a cartridge has brought (R363): the versions, capabilities and algorithm agreed, the root and leaf
certificates of its slot 0, and whether the chain and the CHALLENGE_AUTH signature verify. -/
structure CartAuth where
  version12 : Bool
  certCap   : Bool
  chalCap   : Bool
  p256      : Bool := false
  root      : List Byte
  leaf      : List Byte
  chainOk   : Bool
  sigOk     : Bool
  deriving DecidableEq, Repr, Inhabited

/-- The blocks of Table 13.5. -/
inductive AssayBlock where
  | station (s : StationId) | crossbar | crucible | housekeeping | timeBase | bank (b : Fin 16) | channel (c : ChanId)
  | converter (bgDiff : BitVec 16) | gateDriver (n : SlotId) (feedB : Bool) | powerDie
  deriving DecidableEq, Repr

/-- How the runtime test of a station ends: with a result, or not at all (R382). -/
inductive RuntimeAssay where
  | ended (o : AssayOutcome) | hangs
  deriving DecidableEq, Repr, Inhabited

/-- One block time of a hunting lane: the candidate offsets with a valid sync header, and the offset at which
an EIEOS was received (R87). -/
structure HuntBlock where
  valid : BitVec 130
  eieos : Option (Fin 130) := none
  deriving DecidableEq, Repr

/-- Link-layer events of a port (Table 3.10, Table 10.2): replays of TLPs or flits, symbols corrected by FEC, flits that fail CRC after FEC
with the TLPs in them, and the Base Specification's protocol errors. -/
inductive LinkErr where
  | receiver | badDllp | replay (n : Nat) | replayTimeout | replayRollover | fec (symbols : Nat) | flitCrc (flits tlps : Nat)
  | dlProtocol | fcProtocol
  deriving DecidableEq, Repr

/-- Where a link goes at RECOVERY: nowhere (link-layer events that need no Recovery), into Recovery, or through it into Loopback as the
partner's follower. -/
inductive RecoveryTo where
  | stay | recovery | loopback
  deriving DecidableEq, Repr

/-- An eye measurement (Table 3.13). -/
structure Eye where
  height : Nat
  width  : Nat
  deriving DecidableEq, Repr

/-- How a descriptor closes: good, or why bad (R118, R120). `doubleBit` names the cell whose read met the error. -/
inductive CloseReason where
  | good | lcrc | partialRx | flitRetryLate | doubleBit (cell : Nat) | linkDown
  deriving DecidableEq, Repr

/-- A staging queue (R136): a port and credit type, or the block that forms its own TLPs (R137). -/
inductive StageKey where
  | port (p : PortId) (cls : Fin 3)      -- 0 posted, 1 non-posted, 2 completion
  | block (b : Nat)                      -- 0..9 station, 10 crossbar port 10, 11 crossbar port 11, 12 crossbar
  deriving DecidableEq, Repr

/-- What the identity bus returned (R358, R359). -/
structure StoreRead where
  answered   : Bool
  bytes      : List Byte := []           -- the first 256 bytes of the store
  writeOk    : Bool := true              -- the page write completes
  deriving DecidableEq, Repr

/-- What a channel's bring-up found (R225, R226). -/
structure ChannelProbe where
  spdOk     : Bool
  modules   : Nat := 0
  capGib    : Nat := 0
  trained   : Bool := false
  deriving DecidableEq, Repr

/-- A 64-byte line error that a read, fill or scrub found (R247). -/
inductive LineError where
  | correctable (line : Nat) | uncorrectable (line : Nat)
  deriving DecidableEq, Repr

/-- An access to a VF pool window (R230). -/
structure WinAccess where
  kind   : TlpKind                       -- mrd, mwr or atomic
  offset : Nat
  len    : Nat
  data   : List Byte := []
  op     : AtomicOp := .fetchAdd
  priv   : Bool := false
  exe    : Bool := false
  rid    : W16 := 0
  port   : PortId := 0
  tag    : BitVec 14 := 0
  tc     : BitVec 3 := 0
  err    : Option LineError := none
  deriving DecidableEq, Repr

/-- A register write that has no row of its own: MF or I3C into BAR0, a bridge's configuration space, a VH's shared
capability, a VF's BAR0 or the telemetry view. -/
inductive RegTarget where
  | bar0 (path : Path) (off : Nat)
  | bridge (chip : ChipId) (port : PortId) (reg : Nat)
  | vh (vh : Fin 128) (reg : Nat)
  | vf (t : TenantId) (off : Nat)
  deriving DecidableEq, Repr

/-- The SPDM requests the responder answers (R402). -/
inductive SpdmReq where
  | getVersion | getCapabilities | negotiateAlgorithms | getDigests | getCertificate (slot : Nat)
  | challenge (slot : Nat) (nonce : BitVec 256) | getMeasurements (index : Nat) (signed : Bool) | other (code : Nat)
  deriving DecidableEq, Repr

/-- The directions a tree message travels (R277, R279). -/
inductive TreeDir where
  | up | down
  deriving DecidableEq, Repr

/-- DELAY_REQ and DELAY_RESP with their time stamps (R274). -/
inductive DelayMsg where
  | req (rxStamp : W64) | resp (t1 t2 t3 t4 : W64)
  deriving DecidableEq, Repr

/-- The two debug interfaces (R399). -/
inductive DebugVia where
  | jtag | uart
  deriving DecidableEq, Repr

/-! Operands of commands that carry several readings of one thing. -/

/-- A staging queue whose head may be admitted, and what crossbar port 10 or 11 finds where it reads the cells: the cell, and whether the
error is a double-bit one (R27). -/
structure Admission where
  key : StageKey
  ecc : Option (Nat × Bool)
  deriving DecidableEq, Repr

/-- How a descriptor closes, and for how long a fabric egress that is sending its TLP had waited for its cells (R118). -/
structure Closing where
  reason  : CloseReason
  stallNs : Nat
  deriving DecidableEq, Repr

/-- What a selection meets: the credit types that the link partner lacks, and what the read of the cells finds (R27, R113). -/
structure Meets where
  noCredit : BitVec 3
  ecc      : Option (Nat × Bool)
  deriving DecidableEq, Repr

/-- A port, and for how long what is reported of it has lasted. -/
structure PortFor where
  port : PortId
  ns   : Nat
  deriving DecidableEq, Repr

/-- A port and the percentage of its width that is used (R97). -/
structure PortUse where
  port       : PortId
  usePercent : Nat
  deriving DecidableEq, Repr

/-- A lane, and how many of its last 64 sync headers or flits were bad (R88). -/
structure LaneBad where
  lane : LaneId
  bad  : Nat
  deriving DecidableEq, Repr

/-- The level at a lane's input, and whether the link's present substate is electrical idle (R89). -/
structure LaneLevel where
  lane : LaneId
  mv   : Nat
  idle : Bool
  deriving DecidableEq, Repr

/-- The level at a lane's input that is in loss of signal (R89). -/
structure LaneMv where
  lane : LaneId
  mv   : Nat
  deriving DecidableEq, Repr

/-- By how much a lane's recovered clock is off in two windows in a row, how long its phase-lock indicator has been low, and whether the
link's present substate is electrical idle (R89, R90). -/
structure LaneLock where
  lane       : LaneId
  ppm0       : Nat
  ppm1       : Nat
  phaseLowNs : Nat
  idle       : Bool
  deriving DecidableEq, Repr

/-- By how much a quad's PLL differs from REFCLK (R91). -/
structure QuadRead where
  quad : QuadId
  ppm  : Nat
  deriving DecidableEq, Repr

/-- A slot whose output stands at `outMv` under a feed of `feedMv`, in that state for `us` (R343, R344). -/
structure SlotOutput where
  slot   : SlotId
  feedMv : Nat
  outMv  : Nat
  us     : Nat
  deriving DecidableEq, Repr

/-- A slot whose current has been at the limit for `us` (R344, R345). -/
structure SlotLimit where
  slot : SlotId
  us   : Nat
  deriving DecidableEq, Repr

/-- The voltage across a slot's sense resistor (R346). -/
structure SlotSense where
  slot : SlotId
  uv   : Nat
  deriving DecidableEq, Repr

/-- A slot's active feed and its other one, as their monitors read them (R350, R352). -/
structure SlotFeeds where
  slot   : SlotId
  active : FeedRead
  other  : FeedRead
  deriving DecidableEq, Repr

/-- A slot's feed A, as its monitor reads it (R351). -/
structure SlotFeedA where
  slot  : SlotId
  feedA : FeedRead
  deriving DecidableEq, Repr

/-- The old gate and the output of a slot in a swap (R350). -/
structure SlotGate where
  slot   : SlotId
  gateMv : Nat
  outMv  : Nat
  deriving DecidableEq, Repr

/-- The output of a slot whose gates are off, and for how long it has been there (R353). -/
structure SlotAbove where
  slot  : SlotId
  outMv : Nat
  ns    : Nat
  deriving DecidableEq, Repr

/-- The converter's codes of a slot's two feeds (Table 1.4). -/
structure FeedCodes where
  a : BitVec 12
  b : BitVec 12
  deriving DecidableEq, Repr

/-- The converter's codes of a slot's output voltage and current (Table 1.4). -/
structure OutCodes where
  v : BitVec 12
  i : BitVec 12
  deriving DecidableEq, Repr

/-- A slot, and what the SPDM exchange with its cartridge has brought (R363). -/
structure SlotAuth where
  slot : SlotId
  auth : CartAuth
  deriving DecidableEq, Repr

/-- A link's way into Recovery, with the link-layer events since the last one. -/
structure LinkRecovery where
  port : PortId
  errs : List LinkErr
  goes : RecoveryTo
  deriving DecidableEq, Repr

/-- A routed message at a fabric port: the port and the Farug header that it came with (R261). -/
structure FabricIn where
  port : PortId
  hdr  : Farug
  deriving DecidableEq, Repr

/-- A downstream port of a chip. -/
structure ChipPort where
  chip : ChipId
  port : PortId
  deriving DecidableEq, Repr

end Sys2Proof
end

