-- ==== Sys2Proof/Syntax.lean ====
section
/-! DEFINITION. The commands: one constructor per row of spec/opcode_table.json, in the table's order. -/

namespace Sys2Proof

inductive Instr where
  | powerOnReset (lowNs : Nat)
  | powerGoodLost (lowNs : Nat)
  | perstNAssert (lowNs : Nat)
  | perstNDeassert
  | slotWarnCutTimer (n : SlotId)
  | slotPowerDieReset (mv durNs : Nat)
  | ingotSlotFetch (img : FlashSlot)
  | ingotApply (hwError : Option Nat)
  | assayBlockDone (b : AssayBlock) (o : AssayOutcome)
  | assayStationPairStart
  | internalInitDone
  | assayEnd
  | lifecycleBurn
  | mbxClaimRead (path : Path)
  | mbxRelease (path : Path)
  | mbxIdleRelease
  | getState (path : Path) (seq : Byte)
  | ackFaultEntry (path : Path) (seq : Byte) (entry : W16)
  | ackFaultUpToLevel (path : Path) (seq : Byte) (level : Byte)
  | ackFaultAll (path : Path) (seq : Byte)
  | releaseContain (path : Path) (seq : Byte) (port : Byte)
  | amend (path : Path) (seq : Byte) (validateOnly : Bool) (partOffset : W32) (bytes : List Byte)
  | amendPart (path : Path) (seq : Byte) (validateOnly : Bool) (partOffset : W32) (bytes : List Byte)
  | slotPowerRead (path : Path) (seq : Byte) (slot : Byte)
  | slotPowerOn (path : Path) (seq : Byte) (slot : Byte)
  | slotPowerForceOn (path : Path) (seq : Byte) (slot : Byte)
  | slotPowerOff (path : Path) (seq : Byte) (slot : Byte)
  | slotPowerOffDrain (path : Path) (seq : Byte) (slot : Byte)
  | slotPowerClearLatch (path : Path) (seq : Byte) (slot : Byte)
  | assayStation (path : Path) (seq : Byte) (station : Byte) (run : RuntimeAssay)
  | assayStationHang
  | setTime (path : Path) (seq : Byte) (seconds : W64) (atNextPps : Bool)
  | setTimeTimeout
  | snapshotAt (path : Path) (seq : Byte) (at_ : W64) (snapId : W32)
  | snapshotTake
  | routeEpoch (path : Path) (seq : Byte) (at_ : W64) (newTag : W32)
  | routeEpochPrepareTimeout
  | epochFlip
  | drainTimeout (chip : ChipId)
  | unlockChallenge (path : Path) (seq : Byte) (level : Byte)
  | unlockResponse (path : Path) (seq : Byte) (nonce : BitVec 256) (sig : Sig)
  | unlockHoldEnd
  | enterMaintTarget0 (path : Path) (seq : Byte)
  | maintBufferScrub
  | scrubDone
  | enterMaintTarget1 (path : Path) (seq : Byte)
  | injectMessage (path : Path) (seq : Byte) (msg : Msg)
  | injectRailAlarm (path : Path) (seq : Byte) (block : Byte) (durationUs : W16)
  | injectRailEqual (path : Path) (seq : Byte) (block : Byte) (durationUs : W16)
  | injectD2dBreak (path : Path) (seq : Byte) (durationUs : W16)
  | evictTenant (path : Path) (seq : Byte) (tenant : Byte)
  | evictComplete (t : TenantId)
  | evictTimeout
  | groupAdminRead (path : Path) (seq : Byte) (group : W16) (dest : Byte)
  | groupAdminAdd (path : Path) (seq : Byte) (group : W16) (dest : Byte)
  | groupAdminRemove (path : Path) (seq : Byte) (group : W16) (dest : Byte)
  | resume (path : Path) (seq : Byte)
  | passwordUnlock (path : Path) (seq : Byte) (password : List Byte)
  | registerWrite (target : RegTarget) (be : BitVec 4) (value : W32)
  | timNowloRead (path : Path)
  | vfNtfypopRead (t : TenantId) (be : BitVec 4)
  | vfSqtailWrite (t : TenantId) (tail : BitVec 6)
  | fabGopBarrier (path : Path) (barrierId : Byte)
  | fabGopBroadcast (path : Path)
  | fabGopCancel (path : Path)
  | fabGopFabricReset (path : Path) (confirm : Byte)
  | mcReceiveWrite (x : ChipPort) (bits : W64)
  | linkDisable (port : PortId) (writer : Writer) (disable : Bool)
  | retrainLink (port : PortId) (writer : Writer)
  | targetLinkSpeedWrite (port : PortId) (writer : Writer) (speed : Nat)
  | dpcSoftwareTrigger (port : PortId)
  | dpcTriggerStatusClear (port : PortId)
  | vfBmeClear (t : TenantId)
  | vfBmeSet (t : TenantId)
  | vfFlr (t : TenantId)
  | vfFlrComplete (t : TenantId)
  | laneMarginingCommand (s : StationId) (j : LaneId) (lastStepNs : Nat)
  | i3cWrite (off : Nat) (bytes : List Byte)
  | i3cReadSetup (off : Nat) (count : Nat)
  | i3cPrivateRead
  | i3cAddressAssign (addr : BitVec 7)
  | debugMasterAccess (via : DebugVia) (gate : Fin 4) (write : Bool) (addr : Nat) (len : Nat) (data : List Byte)
  | jtagKeyProvision (slot : Fin 4) (key : Nat)
  | jtagFieldReturn
  | spdmRequest (port : PortId) (req : SpdmReq)
  | requestReceived (port : PortId) (tlp : Tlp)
  | poolWindowAccess (t : TenantId) (a : WinAccess)
  | multicastWrite (port : PortId)
  | atomicAdmitTimeout (port : PortId)
  | parkRedelivery (g : GroupId) (dest : Fin 64) (readError : Bool)
  | deliveryReportWrite
  | sampleWrite (writerFull : Bool)
  | completionReceived (port : PortId) (tlp : Tlp)
  | errorMessageReceived (port : PortId) (tlp : Tlp)
  | ptmRequest (port : PortId) (rxStamp : W64)
  | admitTlp (a : Admission)
  | policerTick
  | descriptorClose (id : Nat) (c : Closing)
  | egressSelection (port : PortId) (m : Meets)
  | stallRel (port : PortId)
  | fabricStallStomp (x : PortFor)
  | thresholdTick
  | shaperRefill
  | gateBoundary (port : PortId)
  | gateListSwitch (port : PortId)
  | monitorSample (port : PortId)
  | completionTimeout
  | tagQuarantineEnd
  | ideQuarantineEnd
  | containmentComplete (port : PortId)
  | orderlyDrainEnd (port : PortId)
  | linkDlUp (port : PortId) (width retimers : Nat) (reversed : Bool) (peerRate : Nat) (peerFlit peerBypass tag10 : Bool) (peerChip : ChipId)
  | linkDlDown (port : PortId)
  | tagCapabilityRead (port : PortId) (tag10 tag14 : Bool)
  | rateEqComplete (port : PortId) (rate : Nat) (eyes : List Eye)
  | alignmentHunt (s : StationId) (j : LaneId) (blocks : List HuntBlock)
  | alignLost (s : StationId) (x : LaneBad)
  | los (s : StationId) (x : LaneLevel)
  | lockLost (s : StationId) (x : LaneLock)
  | quadPll (s : StationId) (x : QuadRead)
  | quadPllRelock (s : StationId) (q : QuadId)
  | quadFail (s : StationId) (q : QuadId)
  | quadRelockRetry (s : StationId) (q : QuadId) (relocked : Bool)
  | laneGroupReset (s : StationId) (q : Option QuadId)
  | burnishStep (s : StationId) (j : LaneId) (base up down : Eye)
  | aspmL1Entry (e : PortFor) (byPartner : Bool)
  | stationClockWake (s : StationId)
  | l0pNarrow (x : PortUse) (width : Nat)
  | l0pWiden (x : PortUse)
  | fabricTlpReceived (port : PortId) (f : Farug) (tlp : Tlp)
  | chipidClash (port : PortId)
  | hello (port : PortId) (body : HelloBody)
  | helloSend (port : PortId)
  | joinWindowEnd
  | hold (port : PortId)
  | eack (x : FabricIn) (epoch : Bool) (count : Nat)
  | eackSend
  | sync (port : PortId) (tx rx : W64)
  | syncSend
  | delayMeasure
  | delayReq (port : PortId) (m : DelayMsg)
  | followerHoldover
  | presence (port : PortId) (dir : TreeDir) (bitmap : BitVec 16)
  | presenceSend
  | gop (port : PortId) (dir : TreeDir) (body : GopBody)
  | fabricResetStart
  | fault (port : PortId) (origin : ChipId) (level : Nat) (msg : Msg)
  | fabricLinkDown (port : PortId)
  | ringInputChange (st : RingIn)
  | ringArm
  | ppsEdge
  | holdover
  | replicaSync
  | cupelMessage
  | railAlarm (r : RailId)
  | railEqual (r : RailId)
  | faultConditionEnd (entry : Fin 1024)
  | msgOvf (r : RailId)
  | aliveToggle (patternOk : Bool)
  | temperatureRead (quarterDegrees : List Int)
  | hkWatchdog
  | avsTick (slacks : List Nat)
  | avsRetry (acked : Bool)
  | d2dFrame (side : Side) (f : D2dFrame)
  | d2dResend
  | d2dLost (side : Side)
  | presencePinChange (n : SlotId) (pinB asserted : Bool) (heldNs : Nat)
  | seated (n : SlotId)
  | removed (n : SlotId)
  | identify (n : SlotId) (r : StoreRead)
  | tinningStart (n : SlotId) (feedA feedB : FeedRead)
  | powerGood (o : SlotOutput)
  | rampTimeout (n : SlotId)
  | rampLimit (o : SlotLimit)
  | shortDuringRamp (o : SlotOutput)
  | breaker (o : SlotLimit)
  | severe (o : SlotSense)
  | perstDelayEnd (n : SlotId)
  | feedWarnChange (n : SlotId) (active : FeedRead)
  | warnEnd (n : SlotId)
  | feedSwap (o : SlotFeeds)
  | gateStuck (o : SlotGate)
  | swapGapEnd (n : SlotId)
  | feedReturn (o : SlotFeedA)
  | bothBad (o : SlotFeeds)
  | fetFail (o : SlotAbove) (feedA feedB : BitVec 12)
  | retryTimerEnd (n : SlotId)
  | faultCountReset (n : SlotId)
  | patinaHour (n : SlotId) (writeOk : Bool)
  | energyIntegrate (n : SlotId) (feeds : FeedCodes) (out : OutCodes)
  | hallmarkPass (x : SlotAuth)
  | hallmarkFail (n : SlotId) (result : Fin 16)
  | channelBringup (c : ChanId) (probe : ChannelProbe)
  | selfRefreshEntry (c : ChanId)
  | lotFillDone (lot : Fin 8192)
  | engineDescriptorStart (t : TenantId)
  | engineDescriptorDone (t : TenantId) (err : Option LineError)
  | notify (t : TenantId)
  | patrolBurst (c : ChanId) (errors : List LineError)
  | ddrAlert (c : ChanId) (retries : Nat) (cleared : Bool)
  | channelLost (c : ChanId) (byAlert : Bool)
  | logLimitMs
  | recovery (r : LinkRecovery)
  | rateOrWidthChange (port : PortId) (rate width active : Nat) (byL0p : Bool)
  | losDeassert (s : StationId) (x : LaneMv)
  | cdrLock (s : StationId) (j : LaneId)
  | chipidClashRetry (port : PortId)
  | vccPdResetRelease (mv : Nat)
  | hotReset (port : PortId) (writer : Writer)
  deriving DecidableEq, Repr

end Sys2Proof
end

