-- ==== Sys2Proof/Config.lean ====
section
/-! DEFINITION. The free values: what the manual leaves open. Each is a constant without a body, so that no proof can
use a value of it. -/

namespace Sys2Proof.Config

/-- The number that MBX_RSP.STATUS shows for the n-th status of R66, 0 for OK (Table 2.16: the manual gives no numbers). -/
opaque statusCode : Nat → Nat

/-- The nonce of the n-th Bilino challenge (R394). -/
opaque nonce : Nat → BitVec 256

/-- Where the search for a free device or fabric tag begins, for the n-th tag taken (R122: only uniqueness is fixed). -/
opaque tagPick : Nat → Nat

/-- The Completer ID of a completion that the device forms at a port (R106, R126: not stated). -/
opaque completerId : Nat → W16

/-- DETAIL of a message of a kind for which the manual gives no detail, by kind and time of sending (Table 11.3). -/
opaque openDetail : Nat → Nat → Nat

/-- The GATE byte of a fault log entry for an access to another tenant's VF, which meets no gate (R202, Table 7.16). -/
opaque vfBarGate : Byte

/-- The Requester ID that the report and sample writer uses in a VH (R153, R160: not stated). -/
opaque writerRid : Nat → W16

/-- The write port of a bank is free in the cycle in which the n-th cell is allocated (R24). -/
opaque writePortFree : Nat → Nat → Bool

/-- A message of a block's queue crosses to Cupel with its parity intact (R314), by the queue and the time. -/
opaque msgParityOk : Nat → Nat → Bool

/-- SEQ in the delivery report of a copy that its destination chip's gate rejects, by time: no SEQ travels with a copy (Table 5.7, R146). -/
opaque farSeq : Nat → W32

/-- The device's vendor ID (R254, R294: no number is given). -/
opaque vendorId : W16

/-- The measured times of the n-th Quench, in ns, before Table 11.7 bounds them. -/
opaque quenchAlive : Nat → Nat
opaque quenchPorts : Nat → Nat
opaque quenchPerst : Nat → Nat
opaque quenchPower : Nat → Nat

/-- The signature that the 96 bytes SIG_R and SIG_S of an UNLOCK_RESPONSE stand for (R395): signatures are held as the key and the
bytes that they verify for. -/
opaque sigOf : List Byte → Sig

/-- How the test of a station ends that a command written through the mailbox registers starts, by station and time (R382). -/
opaque runtimeAssay : Nat → Nat → RuntimeAssay

/-- SHA-384 of the boot ROM (Table 14.14, index 1). -/
opaque bootRomDigest : List Byte

/-- What an SPDM response carries beyond the measurement blocks, by time and request: SPDM 1.2's own encodings, the identity chain
and signatures (R402). -/
opaque spdmBody : Nat → SpdmReq → List Byte

/-- Bits [37:6] of the spill line that holds a parked copy, by the copy's number (R250: its place is not stated). -/
opaque spillLine : Nat → W32

/-- What a read of the device's own configuration space returns, by function, register and time: the manual does not give the
places of the capabilities. -/
opaque cfgRead : W16 → Nat → Nat → W32

/-- What the 12-bit code of a slot power die's converter stands for, by channel, in mV or mA (Table 1.4: no scale is given). -/
opaque adc : Nat → Nat → Nat

/-- ILIM_CODE of a slot that FORCE_ON powers although its cartridge reports a reserved power class (R345, R360). -/
opaque reservedIlim : Nat → Nat

/-- LOST_CAUSE of a channel that an S3 reaction takes away (Table 11.5, Table 8.14: no value is given). -/
opaque poolLossCause : BitVec 4

/-- The greatest depth of any chip of the fabric's tree, 1 to 4 (R278), which no message carries to a chip. -/
opaque treeDepth : Nat

/-- POLARITY of a lane as a training leaves it, by station, lane and time (Table 3.12: found by the receiver). -/
opaque lanePolarity : Nat → Nat → Nat → Bool

/-- Whether the 100 µs period that ends at a time of the power-up Assay falls into a retention pause of a memory test: R378 gives the pauses'
place in no test. Log entry 42. -/
opaque retentionPause : Nat → Bool

end Sys2Proof.Config
end

