-- ==== Sys2Proof/Machine/Bits.lean ====
section
/-! DEFINITION. Bit fields, byte order and saturating sums. -/

namespace Sys2Proof.Machine

/-- `n` bits of `v` from bit `lo` up. -/
def bitsN (v lo n : Nat) : Nat := v / 2 ^ lo % 2 ^ n

/-- Bit `i` of `v`. -/
def bitN (v i : Nat) : Bool := bitsN v i 1 == 1

/-- `v` cut to `n` bits, placed at bit `lo`. -/
def fld (v lo n : Nat) : Nat := v % 2 ^ n * 2 ^ lo

/-- A flag placed at bit `i`. -/
def flag (b : Bool) (i : Nat) : Nat := if b then 2 ^ i else 0

def w32 (n : Nat) : W32 := BitVec.ofNat 32 n

def w64 (n : Nat) : W64 := BitVec.ofNat 64 n

/-- The `n` low bytes of `v`, least significant first. -/
def leBytes : Nat → Nat → List Byte
  | 0, _ => []
  | n + 1, v => BitVec.ofNat 8 v :: leBytes n (v / 256)

/-- The number that bytes spell, least significant first. -/
def leNat : List Byte → Nat
  | [] => 0
  | b :: r => b.toNat + 256 * leNat r

/-- `n` bytes of `l` from offset `o`; bytes beyond its end read 0. -/
def leAt (l : List Byte) (o n : Nat) : Nat := leNat ((l.drop o).take n)

/-- A sum that stops at 2³² − 1 (R102). -/
def sat32 (a b : Nat) : Nat := min (a + b) 0xFFFFFFFF

def setBit32 (w : W32) (i : Nat) : W32 := w ||| w32 (2 ^ i)

def clearBit32 (w : W32) (i : Nat) : W32 := w &&& ~~~ w32 (2 ^ i)

/-- The bits of `w` that lie in enabled bytes (R406). -/
def beMask (be : BitVec 4) : W32 :=
  w32 ((if be.getLsbD 0 then 0xFF else 0) + (if be.getLsbD 1 then 0xFF00 else 0)
    + (if be.getLsbD 2 then 0xFF0000 else 0) + (if be.getLsbD 3 then 0xFF000000 else 0))

/-- An RW write under byte enables (R406). -/
def rwWrite (old value : W32) (be : BitVec 4) : W32 := (old &&& ~~~ beMask be) ||| (value &&& beMask be)

/-- A W1C write under byte enables (R406). -/
def w1cWrite (old value : W32) (be : BitVec 4) : W32 := old &&& ~~~ (value &&& beMask be)

/-- Ones among the `n` low bits of `v`. -/
def popN : Nat → Nat → Nat
  | 0, _ => 0
  | n + 1, v => v % 2 + popN n (v / 2)

/-- The word whose bit i is `f i`, for i below `n`. -/
def bitmap (n : Nat) (f : Nat → Bool) : Nat := (List.range n).foldl (fun a i => a + flag (f i) i) 0

/-- ⌈a / b⌉. -/
def ceilDiv (a b : Nat) : Nat := (a + b - 1) / b

/-- The two's complement of `i` in `n` bits. -/
def twos (n : Nat) (i : Int) : Nat := (i % (2 ^ n : Int)).toNat

/-- An `n`-bit two's complement number. -/
def ofTwos (n v : Nat) : Int := if v % 2 ^ n < 2 ^ (n - 1) then (v % 2 ^ n : Nat) else (v % 2 ^ n : Nat) - (2 ^ n : Nat)

/-- One bit of CRC-32, least significant bit first. -/
def crcBit (c : Nat) : Nat := if c % 2 = 1 then (c / 2) ^^^ 0xEDB88320 else c / 2

def crcByte (c : Nat) (b : Byte) : Nat :=
  crcBit (crcBit (crcBit (crcBit (crcBit (crcBit (crcBit (crcBit (c ^^^ b.toNat))))))))

/-- CRC-32 with the IEEE 802.3 polynomial. -/
def crc32 (l : List Byte) : Nat := l.foldl crcByte 0xFFFFFFFF ^^^ 0xFFFFFFFF

end Sys2Proof.Machine
end

