-- ==== Sys2Proof/Records.lean ====
section
/-! DEFINITION. The eighteen ingot records of Table 2.3 as the device holds them in force: basic fields, expert fields
(the OVERRIDE choice of R47 already made) and entries. -/

namespace Sys2Proof

/-- DEVICE (Tables 2.4, 2.5). -/
structure DeviceRec where
  chipId       : Nat := 0
  fabricMode   : Bool := false
  managerVh    : Nat
  i3cAddr      : Nat := 0x3A
  systemId     : W32 := 0
  avsVmin      : Nat := 700
  avsVmax      : Nat := 850
  mbxReleaseMs : Nat := 1000
  deriving DecidableEq, Repr

/-- STATION (Tables 3.4, 3.5). -/
structure StationRec where
  bifurcation   : Nat := 0
  refclkMode    : Nat := 0
  losMv         : Nat := 80
  burnishPeriod : Nat := 10
  burnishEn     : Bool := true
  alignBadMax   : Nat := 8
  lockPpm       : Nat := 1000
  floorNrz      : Nat := 25
  floorPam4     : Nat := 12
  deriving DecidableEq, Repr

/-- PORT (Tables 3.6, 3.7). `role` is 0 upstream, 1 downstream, 2 fabric; `vh` and `slot` are 0xFF for none. -/
structure PortRec where
  role         : Nat
  targetRate   : Nat := 6
  avoidFlit    : Bool := false
  aspmL1       : Bool := true
  l0p          : Bool := false
  l2           : Bool := false
  vh           : Nat := 0xFF
  slot         : Nat := 0xFF
  containCa    : Bool := true
  cplTimeoutUs : Nat := 50000
  eqBypass     : Bool := false
  reeqEn       : Bool := false
  l0pMinWidth  : Nat := 1
  retimers     : Nat := 3
  txPresets    : Nat := 0x4444
  l1IdleUs     : Nat := 10
  deriving DecidableEq, Repr

/-- A (port, chip) pair of a VH or MCAST record. -/
structure PortChip where
  port : Nat
  chip : Nat
  deriving DecidableEq, Repr

/-- VH (Table 7.1). -/
structure VhRec where
  upPort : Nat
  upChip : Nat := 0
  ds     : List PortChip := []
  deriving DecidableEq, Repr

/-- Classification entry (Table 7.3). -/
structure ClsEntry where
  port    : Nat
  nopasid : Bool := false
  trusted : Bool := false
  ridLo   : Nat := 0
  ridHi   : Nat := 0
  pasidLo : Nat := 0
  pasidHi : Nat := 0
  deriving DecidableEq, Repr

/-- Policer entry (Table 6.2). -/
structure PolEntry where
  tcMask : Byte
  hold   : Bool := false
  cir    : Nat
  pir    : Nat
  cbs    : Nat
  pbs    : Nat
  deriving DecidableEq, Repr

/-- TENANT (Tables 7.2, 7.4). `minP` and `minNp` are 0xFFFF and `cap` is none where they are derived. -/
structure TenantRec where
  vh        : Nat
  bulkTc    : Byte := 0
  minP      : Nat := 0xFFFF
  minNp     : Nat := 0xFFFF
  pol       : List PolEntry := []
  cls       : List ClsEntry := []
  alphaCpl  : Nat := 6
  alphaBulk : Nat := 4
  cap       : Option Nat := none
  deriving DecidableEq, Repr

/-- GATE (Tables 7.8, 7.9). -/
structure GateRec where
  default_ : Nat := 0
  logLimit : Nat := 8
  deriving DecidableEq, Repr

/-- REGION (Table 7.10). -/
structure RegionRec where
  gate     : Nat
  shared   : Bool := false
  slot     : Nat
  tenant   : Nat := 0
  perm     : BitVec 7 := 0
  subdis   : Byte := 0
  sizeLog2 : Nat
  base     : Nat
  tenants  : BitVec 256 := 0
  deriving DecidableEq, Repr

/-- GCL entry: GATE_MASK, INTERVAL in 8 ns units. -/
structure GclEntry where
  mask     : Byte
  interval : Nat
  deriving DecidableEq, Repr

/-- Shaper entry (Table 6.11). `owner` is 256 for M. -/
structure ShaperEntry where
  id     : Nat
  scope  : Nat
  tc     : Nat := 0
  owner  : Nat := 0
  bucketSet : Nat := 0
  rate   : Nat
  burst  : Nat
  deriving DecidableEq, Repr

/-- Monitor entry (Table 6.12). `owner` is 256 for M and 0x1FF for the whole queue. -/
structure MonEntry where
  id    : Nat
  tc    : Nat := 0
  owner : Nat := 0x1FF
  deriving DecidableEq, Repr

/-- SCHED (Tables 6.9, 6.10). -/
structure SchedRec where
  express      : Byte := 0
  sampleUs     : Nat := 10
  weight       : List Nat := [8, 8, 8, 8, 8, 8, 8, 8]
  baseTime     : Nat := 0
  cycleNs      : Nat := 0
  gcl          : List GclEntry := []
  shapers      : List ShaperEntry := []
  mons         : List MonEntry := []
  guardExtra   : Nat := 0
  quantumScale : Nat := 512
  deriving DecidableEq, Repr

/-- Delivery policies (Table 5.10). -/
inductive Policy where
  | atomicAdmit | bestEffort | park
  deriving DecidableEq, Repr

/-- MCAST (Tables 5.10, 5.11). -/
structure McastRec where
  tenant       : Nat
  vh           : Nat
  vhIndex      : Nat
  policy       : Policy := .bestEffort
  admitTimeout : Nat := 100
  members      : W64 := 0
  parkCells    : Nat := 512
  dests        : List PortChip
  destCells    : Nat := 96
  deriving DecidableEq, Repr

/-- Fan-out entry (Table 8.10). -/
structure Fanout where
  region   : Nat
  producer : Nat
  deriving DecidableEq, Repr

/-- Run entry (Table 8.11). -/
structure Run where
  firstLot  : Nat
  count     : Nat
  tenant    : Nat
  firstSlot : Nat
  deriving DecidableEq, Repr

/-- POOL (Tables 8.9, 8.12). -/
structure PoolRec where
  chMask       : Nat := 3
  patrolHours  : Nat := 24
  spillChannel : Nat := 0xFF
  spillLots    : Nat := 0
  capGib0      : Nat := 0
  capGib1      : Nat := 0
  windowLog2   : Nat := 34
  fanout       : List Fanout := []
  runs         : List Run := []
  speedMts     : Nat := 6400
  srIdleUs     : Nat := 100
  ueLimit      : Nat := 64
  fillShare    : Nat := 1
  deriving DecidableEq, Repr

/-- SLOT (Tables 12.17, 12.18). `ilimCode` is none where R345 derives it. -/
structure SlotRec where
  autoOn       : Bool := true
  feedA        : Bool := true
  feedB        : Bool := true
  defClass     : Nat := 2
  rsenseUohm   : Nat
  tWarnUs      : Nat := 1000
  retryMs      : Nat := 5000
  perstDelayMs : Nat := 100
  idAddr       : Nat := 0x50
  ilimCode     : Option Nat := none
  faultTmrUs   : Nat := 2000
  rampFaultUs  : Nat := 500
  gateUa       : Nat := 20
  swapGapUs    : Nat := 50
  feedUvMv     : Nat := 8500
  feedWarnMv   : Nat := 9500
  feedOvMv     : Nat := 16000
  dischargeMs  : Nat := 50
  retryMax     : Nat := 8
  rampMaxMs    : Nat := 50
  deriving DecidableEq, Repr

/-- CART (Tables 12.19, 12.20). -/
structure CartRec where
  authFailCut   : Bool := false
  maxClass      : Nat := 2
  vendorId      : Nat := 0xFFFF
  authTimeoutMs : Nat := 2000
  rootDigest    : List Byte := []
  forceOk       : Nat := 0
  allowP256     : Bool := false
  deriving DecidableEq, Repr

/-- A PEER entry (Table 9.9). -/
structure Peer where
  port     : Nat
  chip     : Nat := 0xFF
  peerPort : Nat := 0xFF
  asymNs   : Int := 0
  deriving DecidableEq, Repr

/-- FABRIC (Tables 9.9, 9.10). `routes` holds entry 16 × bank + chip: the member ports. -/
structure FabricRec where
  fabricId     : W32
  chipCount    : Nat
  rootChip     : Nat := 0
  treeParent   : Nat
  ringEn       : Bool := false
  chipMask     : BitVec 16
  bankTag0     : W32 := 0
  bankTag1     : W32 := 0
  peers        : List Peer
  routes       : Tbl (List Nat) := []
  epochDrainUs : Nat := 50
  joinWindowMs : Nat := 1000
  timeSyncUs   : Nat := 10
  presenceMiss : Nat := 3
  deriving DecidableEq, Repr

/-- TIME (Tables 6.13, 6.14). -/
structure TimeRec where
  ppsEn       : Bool := true
  ptmEn       : Bool := true
  ppsWindowUs : Nat := 100
  ppsDelayNs  : Int := 0
  kpShift     : Nat := 2
  kiShift     : Nat := 5
  deriving DecidableEq, Repr

/-- A REACT entry (Table 11.8). -/
structure ReactEntry where
  kind   : Nat
  level  : Nat
  escMax : Nat
  ring   : Bool := false
  deriving DecidableEq, Repr

/-- REACT (Tables 11.8, 11.10). -/
structure ReactRec where
  slotSafe   : BitVec 24 := 0xFFFFFF
  entries    : List ReactEntry := []
  stormLimit : Nat := 16
  deriving DecidableEq, Repr

/-- LOCK (Tables 14.5, 14.6). -/
structure LockRec where
  lockOnLoad    : Bool := false
  passwordEn    : Bool := false
  bilinoEn      : Bool := true
  unlockKeySlot : Nat := 0xFF
  minSecVersion : Nat := 0
  revokeMask    : BitVec 4 := 0
  salt          : List Byte := []
  pwHash        : List Byte := []
  failHoldS     : Nat := 10
  challengeLifeS : Nat := 60
  failMax       : Nat := 16
  deriving DecidableEq, Repr

/-- Grant classes (Table 2.20). -/
inductive Grant where
  | shaperRate | gateList | mcastMember | slotPower | containRelease | tenantEvict | lotAssign | routeEpoch | classify
  deriving DecidableEq, Repr

structure GrantEntry where
  cls    : Grant
  instLo : Nat
  instHi : Nat
  deriving DecidableEq, Repr

/-- AMEND (R71). -/
structure AmendRec where
  warmResume : Bool := false
  grants     : List GrantEntry := []
  deriving DecidableEq, Repr

/-- SAMPLE (Tables 5.16, 5.17). -/
structure SampleRec where
  port         : Nat
  egress       : Bool := false
  rateK        : Nat := 16
  typeMask     : Byte := 0x3F
  tcMask       : Byte := 0xFF
  tenantFilter : Bool := false
  payloadEn    : Bool := false
  tenant       : Nat := 0
  ringVh       : Nat := 0xFF
  ringAddr     : Nat := 0
  ringLog2     : Nat := 8
  payloadBytes : Nat := 64
  deriving DecidableEq, Repr

/-- The records in force (R54, R73): the applied ingot with the amendments accepted since. -/
structure Cfg where
  device   : Option DeviceRec := none
  stations : Tbl StationRec := []
  ports    : Tbl PortRec := []
  vhs      : Tbl VhRec := []
  tenants  : Tbl TenantRec := []
  gates    : Tbl GateRec := []
  regions  : Tbl RegionRec := []
  scheds   : Tbl SchedRec := []
  mcasts   : Tbl McastRec := []
  pool     : Option PoolRec := none
  slots    : Tbl SlotRec := []
  carts    : Tbl CartRec := []
  fabric   : Option FabricRec := none
  time     : Option TimeRec := none
  react    : Option ReactRec := none
  lock     : Option LockRec := none
  amend    : Option AmendRec := none
  samples  : Tbl SampleRec := []
  deriving DecidableEq, Repr

end Sys2Proof
end

