-- ==== Sys2Proof/Machine/Kinds.lean ====
section
/-! DEFINITION. The fault kinds of Table 11.4, and the REACT record's hold on them (R318, R319, R329). -/

namespace Sys2Proof.Machine

/-- What an S3 reaction of a kind acts on (Table 11.4). -/
inductive Target where
  | port | station | slot | stationOrPool | none | absent
  deriving DecidableEq, Repr

/-- A row of Table 11.4: `levels` and `escs` are what LEVEL and ESC_MAX may be. -/
structure KindRow where
  kind   : Nat
  level  : Nat
  levels : List Nat
  escs   : List Nat
  esc    : Nat
  target : Target := .absent
  deriving DecidableEq, Repr

/-- A row whose LEVEL and ESC_MAX share one Allowed set, and whose default ESC_MAX is its default level. -/
def kindRow (kind level : Nat) (allowed : List Nat) (t : Target := .absent) : KindRow :=
  { kind := kind, level := level, levels := allowed, escs := allowed, esc := level, target := t }

def kindTableA : List KindRow :=
  [ kindRow 0x00 2 [2], kindRow 0x01 4 [4],
    { kind := 0x02, level := 3, levels := [3], escs := [4], esc := 4, target := .stationOrPool },
    kindRow 0x03 4 [4], kindRow 0x04 1 [1, 2], kindRow 0x05 4 [4], kindRow 0x06 1 [1, 2], kindRow 0x07 2 [2, 4],
    kindRow 0x08 2 [2], kindRow 0x09 4 [4], kindRow 0x0A 1 [1], kindRow 0x0B 0 [0], kindRow 0x0C 1 [1, 2],
    kindRow 0x0D 4 [2, 4], kindRow 0x0E 2 [2, 4], kindRow 0x0F 1 [1], kindRow 0x10 1 [1], kindRow 0x11 4 [4],
    kindRow 0x12 0 [0], kindRow 0x20 1 [1, 2], kindRow 0x21 2 [2], kindRow 0x22 1 [1, 2], kindRow 0x23 1 [1, 2],
    kindRow 0x24 1 [1, 2], kindRow 0x25 2 [2, 3] .station, kindRow 0x26 0 [0], kindRow 0x27 0 [0], kindRow 0x28 1 [1, 2],
    kindRow 0x29 2 [2] ]

def kindTableB : List KindRow :=
  [ kindRow 0x30 2 [2], kindRow 0x31 2 [2], kindRow 0x32 1 [1, 2], kindRow 0x33 1 [1, 2], kindRow 0x34 0 [0],
    kindRow 0x35 2 [2], kindRow 0x36 2 [2], kindRow 0x37 2 [2], kindRow 0x38 2 [2], kindRow 0x39 2 [2],
    kindRow 0x3A 1 [1, 2], kindRow 0x3B 1 [1, 2], kindRow 0x3C 2 [2, 4], kindRow 0x40 2 [2], kindRow 0x41 2 [2],
    kindRow 0x42 2 [2], kindRow 0x43 1 [1, 2], kindRow 0x44 2 [2], kindRow 0x45 0 [0], kindRow 0x48 2 [2],
    kindRow 0x49 2 [2], kindRow 0x4A 2 [2], kindRow 0x4B 1 [1, 2], kindRow 0x50 1 [1, 2], kindRow 0x51 1 [1, 2],
    kindRow 0x52 0 [0], kindRow 0x53 1 [1, 2], kindRow 0x54 1 [1, 2], kindRow 0x55 1 [1, 2], kindRow 0x56 0 [0],
    kindRow 0x57 1 [1, 2] ]

def kindTableC : List KindRow :=
  [ kindRow 0x60 1 [1, 2], kindRow 0x61 2 [2], kindRow 0x62 1 [1, 2], kindRow 0x63 2 [2, 4], kindRow 0x70 2 [2],
    kindRow 0x71 2 [2], kindRow 0x72 2 [2, 4], kindRow 0x73 2 [2], kindRow 0x74 2 [2], kindRow 0x75 1 [1],
    { kind := 0x76, level := 3, levels := [3], escs := [4], esc := 4, target := .none },
    kindRow 0x77 4 [4], kindRow 0x78 0 [0, 1, 2], kindRow 0x79 2 [0, 1, 2, 4], kindRow 0x7A 0 [0],
    kindRow 0x80 3 [3] .port, kindRow 0x81 2 [2], kindRow 0x82 3 [3] .port, kindRow 0x84 0 [0], kindRow 0x85 2 [2],
    kindRow 0x90 3 [3] .slot, kindRow 0x91 3 [3] .slot, kindRow 0x92 3 [3] .slot, kindRow 0x93 4 [4], kindRow 0x94 1 [1, 2],
    kindRow 0x95 3 [3, 4] .slot, kindRow 0x96 2 [2], kindRow 0x97 1 [1, 2], kindRow 0x98 1 [1, 2], kindRow 0x99 0 [0] ]

/-- Table 11.4. -/
def kindTable : List KindRow := kindTableA ++ kindTableB ++ kindTableC

def findKind : List KindRow → Nat → Option KindRow
  | [], _ => none
  | r :: t, k => if r.kind = k then some r else findKind t k

/-- The row of a kind, none for a reserved value. -/
def kindOf (k : Nat) : Option KindRow := findKind kindTable k

def findReact : List ReactEntry → Nat → Option ReactEntry
  | [], _ => none
  | e :: t, k => if e.kind = k then some e else findReact t k

/-- LEVEL, ESC_MAX and RING in force for a kind (R318, R328, R329); `entries` is the REACT record's, empty before it is
applied. -/
def kindInForce (entries : List ReactEntry) (k : Nat) : Nat × Nat × Bool :=
  match findReact entries k with
  | some e => (e.level, e.escMax, e.ring)
  | none =>
    match kindOf k with
    | some r => (r.level, r.esc, r.level == 4 && k != 0x77)
    | none => (2, 2, false)

/-- The next level above `l`, never above `esc`; a kind without an S3 target goes from S2 to S4 (R322). -/
def stepUp (target : Target) (esc l : Nat) : Nat :=
  let n := if l = 2 ∧ target = .absent then 4 else l + 1
  if l ≥ esc then l else min n esc

/-- Kinds whose AER row stands in Table 10.2 by itself: they are logged where they arise, and not as internal errors. -/
def kindHasAerRow (k : Nat) : Bool :=
  [0x20, 0x21, 0x28, 0x29, 0x35, 0x36, 0x37, 0x38, 0x39, 0x48, 0x49, 0x4A].contains k

end Sys2Proof.Machine
end

