-- ==== Sys2Proof/Machine/State.lean ====
section
/-! DEFINITION. The state of the Kerene-160 as plain data, its faults and refusals, and the state after power-on. -/

namespace Sys2Proof.Machine

/-- The operating modes (Table 0.3). -/
inductive Mode where
  | reset | load | assay | run | degraded | safe | maintenance | factory
  deriving DecidableEq, Repr

/-- Who owns a TLP, a fault or an account: a tenant 0..255, or M, numbered 256 (R163). -/
abbrev Owner := Nat

/-- Owner 256, the management domain M. -/
def ownerM : Owner := 256

/-- Where a TLP came from (R112): a chip and a port; 0x7E is crossbar port 10 and 0x7F crossbar port 11 (Table 9.2). -/
structure Src where
  chip : Nat := 0
  port : Nat
  deriving DecidableEq, Repr

/-- Where the route stage sends a TLP (R109, R111, R144). -/
inductive Dest where
  | port (p : Nat)
  | remote (chip port : Nat)
  | crucible
  | housekeeping
  | group (g : Nat)
  deriving DecidableEq, Repr

/-- What leaves the device, newest first in `State.out`. -/
inductive Output where
  /-- A TLP on port `p`'s pins; `cut` says that it was ended as nullified or stomped (R118). -/
  | tlp (p : Nat) (t : Tlp) (f : Option Farug) (cut : Bool)
  | hello (p : Nat) (b : HelloBody)
  | holdFlit (p : Nat)
  | flitNak (p : Nat)
  | eack (p : Nat) (f : Farug) (epoch : Bool) (count : Nat)
  | sync (p : Nat) (tx : W64)
  | delayReq (p : Nat) (tx : W64)
  | delayResp (p : Nat) (rx tx : W64)
  | presence (p : Nat) (bitmap : BitVec 16)
  | gop (p : Nat) (b : GopBody)
  | fault (p : Nat) (origin : Nat) (level : Nat) (m : Msg)
  | ptm (p : Nat) (rx tx : W64)
  | ibi (byte : Nat)
  | d2d (side : Side) (f : D2dFrame)
  | avs (mv : Nat)
  | i3cRead (status : Byte) (data : List W32)
  | regRead (path : Path) (value : W32)
  | vfRead (t : Nat) (value : W32)
  | debugRead (poisoned : Bool) (data : List Byte)
  | linkDisabled (p : Nat)
  | linkRecovery (p : Nat)
  | hotReset (p : Nat)
  | remoteReset (chip port : Nat)                  -- the hot reset of a VH's downstream port on another chip (R303)
  | spdm (p : Nat) (code : Nat) (data : List Byte)
  | storeWrite (n : Nat) (copy : Nat) (data : List Byte)
  | oob (chip : Nat) (kind : Nat) (owner : Nat)    -- a forwarded error report (R294)
  deriving DecidableEq, Repr

/-- The LTSSM states of Table 3.8. -/
inductive Ltssm where
  | detect | polling | configuration | l0 | recovery | l1 | l2 | disabled | loopback | hotReset
  deriving DecidableEq, Repr

/-- A port's link (Table 3.8, R80 to R98). -/
structure Link where
  ltssm     : Ltssm := .detect
  rate      : Nat := 0
  width     : Nat := 0
  active    : Nat := 0
  flit      : Bool := false
  reversed  : Bool := false
  retimers  : Nat := 0
  dlUp      : Bool := false
  widthShort : Bool := false
  speedShort : Bool := false
  quadFail  : Bool := false
  rateHeld  : Bool := false       -- the hold of R81
  peerRate  : Nat := 0
  peerFlit  : Bool := false
  disable   : Bool := false       -- Link Disable (R98)
  targetRate : Nat := 0           -- Target Link Speed as written and clamped; 0 none
  prevRate  : Nat := 0            -- the rate before the last rise (R81)
  peerBypass : Bool := false      -- the partner advertises equalisation bypass (R80)
  downRole  : Bool := false       -- this side holds the LTSSM's downstream role (R83)
  pmeOff    : Bool := false       -- PME_Turn_Off was received: the link may enter L2 (R96)
  excused   : Bool := false       -- the next DL_DOWN is a logical or station reset (R308)
  deriving DecidableEq, Repr

/-- Containment (Table 10.10, R300 to R309). `phase` is 0 NONE, 1 CONTAINING, 2 CONTAINED, 3 DRAINING. -/
structure Contain where
  phase      : Nat := 0
  cause      : Nat := 0
  drainSince : Nat := 0
  deriving DecidableEq, Repr

/-- A gate control list with its cycle and base (R175, R176). -/
structure GateList where
  gcl   : List GclEntry
  cycle : Nat
  base  : Nat
  deriving DecidableEq, Repr

/-- A pending list switch (R179, R180) with the command that scheduled it (R68). `list` is none where GCL_COUNT is 0. -/
structure PendList where
  list : Option GateList
  ts   : Nat
  path : Path
  seq  : Byte
  stepped : Bool := false                  -- a phase step has moved T_s into the past (Table 6.4)
  deriving DecidableEq, Repr

/-- The last TLP that started on an egress, for the overruns of R178. -/
structure LastTx where
  start  : Nat
  end_   : Nat
  wire   : Nat                             -- wire bytes
  close  : Option Nat                      -- close(c, t) at its start
  paused : Option Nat := none              -- Recovery began
  deriving DecidableEq, Repr

/-- The scheduler of one egress port (R163 to R181). -/
structure Sched where
  ring      : List Nat := []               -- non-express classes in the ring, head first
  deficit   : Tbl Nat := []
  fresh     : List Nat := []               -- classes whose fresh flag is set
  lastOwner : Tbl Nat := []                -- the owner each class last served, plus 1
  oper      : Option GateList := none
  pend      : Option PendList := none
  entry     : Nat := 0                     -- entry in force
  txing     : Option Nat := none           -- descriptor whose head has left and whose tail has not
  cutAt     : Nat := 0                     -- when the cut-through in transmission began
  held      : Option Nat := none           -- descriptor for which a slot is held (R116)
  heldSince : Nat := 0
  last      : Option LastTx := none
  refused   : List Nat := []               -- descriptors already counted as refused in the present open run (R177)
  deriving DecidableEq, Repr

/-- One port. -/
structure Port where
  link     : Link := {}
  tagRead  : Bool := false
  tag10    : Bool := false
  tag14    : Bool := false
  contain  : Contain := {}
  quarantine : Bool := false               -- Hallmark (R363)
  sched    : Sched := {}
  deriving DecidableEq, Repr

/-- One lane (Tables 3.12 to 3.15, R87 to R95). -/
structure Lane where
  los       : Bool := false
  cdrLock   : Bool := false
  aligned   : Bool := false
  offset    : Nat := 0
  polarity  : Bool := false
  eyeValid  : Bool := false
  eyeHeight : Nat := 0
  eyeWidth  : Nat := 0
  ctle      : Nat := 0
  vga       : Nat := 0
  dfe       : List Int := [0, 0, 0, 0, 0]
  knob      : Nat := 0                     -- next knob: 0 ctle, 1 vga, 2..6 dfe1..dfe5
  lowCount  : Nat := 0
  marginEnd : Nat := 0                     -- burnish frozen until this clock, 100 µs after the last margining step (R94)
  burnAt    : Option Nat := none           -- the loop's last step or measurement (R93)
  idle      : Bool := false                -- in electrical idle because its quad PLL is out of lock (R91)
  deriving DecidableEq, Repr

/-- One station. -/
structure Station where
  passed    : Bool := false                -- Assay passed and the block loaded (R378)
  pllLock   : BitVec 4 := 0
  pllFail   : BitVec 4 := 0
  pllLostAt : Tbl Nat := []                -- when each quad's PLL lost lock
  pllTryAt  : Tbl Nat := []                -- when each failed quad's last relock attempt was
  clockOff  : Bool := false                -- station core clock stopped (R96)
  lanes     : Tbl Lane := []
  deriving DecidableEq, Repr

/-- Bridge configuration space that this manual describes: windows, ACS, AER, DPC, KEX, multicast and link control. -/
structure Bridge where
  secondary  : Nat := 0
  subordinate : Nat := 0
  memWin     : List (Nat × Nat) := []      -- base, limit inclusive
  ioWin      : List (Nat × Nat) := []
  acsCtl     : BitVec 7 := 0               -- SV, TB, RR, CR, UF, EC, DT in bits 0..6
  egressVec  : W32 := 0                    -- P2P Egress Control vector, bit i: bridge of DS[i]
  blockAll   : W64 := 0                    -- MC_Block_All
  atomicBlock : Bool := false
  prefixBlock : Bool := false
  cmdSerr    : Bool := false               -- SERR# Enable of the Command register
  brSerr     : Bool := false               -- SERR# Enable of Bridge Control
  errEnables : BitVec 4 := 0               -- Device Control: correctable, non-fatal, fatal and Unsupported Request reporting
  uncStatus  : W32 := 0
  uncMask    : W32 := 0x00400000           -- the Base Specification's default
  uncSev     : W32 := 0x00062030           -- the Base Specification's defaults, Uncorrectable Internal Error 0 (R298)
  corStatus  : W32 := 0
  corMask    : W32 := 0x0000C000           -- the Base Specification's default for the errors of Table 10.2
  firstErr   : Nat := 0
  mhrEn      : Bool := false               -- Multiple Header Recording Enable
  hdrLog     : List (Nat × List Nat) := [] -- at most four: the error's bit, with header words 0 to 3 and the first prefix (R297)
  kexLast    : W32 := 0
  kexFlow    : W32 := 0
  dpcEnable  : BitVec 2 := 0
  dpcReason  : BitVec 2 := 0
  aspm       : BitVec 2 := 0               -- Link Control ASPM bits
  hawDisable : Bool := false               -- Hardware Autonomous Width Disable
  deriving DecidableEq, Repr

/-- A report ring of one VH index (Table 5.14). -/
structure RptRing where
  addr : W64 := 0
  log2 : Nat := 4
  en   : Bool := false
  next : Nat := 0
  deriving DecidableEq, Repr

/-- What a VH's host programs once per VH (R144, R158, R197, R237). -/
structure Vh where
  primaryBus : Nat := 0
  mfBar0     : Option Nat := none
  mfBar2     : Option Nat := none
  vfMem      : Bool := false               -- VF Memory Space Enable
  mps        : Nat := 128
  mcBase     : W64 := 0
  mcIndexPos : Nat := 0
  mcNumGroup : Nat := 0
  mcEnable   : Bool := false
  mcxEnable  : Bool := false
  mcxIndexPos : Nat := 12
  mcxBase    : W64 := 0
  mcxCount   : Nat := 0
  mcxSel     : Nat := 0
  rings      : Tbl RptRing := []
  deriving DecidableEq, Repr

/-- A TLP in ingress staging, or waiting in the block that formed it (R136, R137). -/
structure Staged where
  id      : Nat
  key     : StageKey
  tlp     : Tlp
  src     : Src
  owner   : Owner
  cls     : Nat                            -- accounting class, Table 5.1
  dest    : Dest
  isOpen  : Bool := true                   -- its last cell has not been written yet
  ingress : Nat := 0x7F                    -- the port it came in at; 0x7E, 0x7F for a block
  waited  : Bool := false                  -- counted in TNT_BUFWAIT
  red     : Option Nat := none             -- held red by this policer (R172)
  trusted : Bool := false
  farug   : Option Farug := none
  epoch   : Bool := false                  -- the route epoch at its classification or forming (R266)
  deriving DecidableEq, Repr

/-- A descriptor in a class queue (R163). -/
structure Desc where
  id      : Nat
  tlp     : Tlp                            -- as it leaves, tag translated (R122)
  src     : Src
  owner   : Owner
  cls     : Nat
  egress  : Nat                            -- 0..79
  origin  : Nat := 0                       -- the staged TLP it came from: copies of one write share it
  bytes   : Nat
  cells   : Nat
  banks   : List Nat := []                 -- the bank of each cell (R24); a multicast copy's are its entry's
  ingress : Nat := 0x7F
  isOpen  : Bool := false
  trk     : Option Nat := none             -- tracker entry
  needTrk : Bool := false                  -- a request that must take a tracker entry before it leaves (R113, R121)
  trkWait : Bool := false                  -- counted in TNT_TRKWAIT
  mc      : Option (Nat × Nat × Nat) := none  -- group, destination index, multicast entry
  redeliv : Option (Nat × Nat × Nat × Nat) := none  -- re-delivered parked copy: group, destination, SEQ, time
  enq     : Nat := 0                       -- replica time of enqueue (R189)
  farug   : Option Farug := none
  released : Bool := false                 -- its held slot was released; eligible again when it closes good (R116)
  cut     : Option Bool := none            -- the decision of R115, where it was made before a change of rate or width
  deriving DecidableEq, Repr

/-- The banks of the shared buffer (R24). -/
structure Banks where
  next : Nat := 0                          -- where the rotation among eligible banks stands
  seq  : Nat := 0                          -- cells allocated: the free-value counter of the write ports
  used : Tbl Nat := []                     -- cells in use per bank
  deriving DecidableEq, Repr

/-- A TLP that left the machine before its last byte arrived: how its close will name it, and its ingress (R119). -/
structure Ended where
  id      : Nat
  origin  : Nat
  ingress : Nat
  deriving DecidableEq, Repr

/-- A multicast entry (R146). -/
structure McEntry where
  refs  : Nat := 0
  cells : Nat := 0
  banks : List Nat := []                   -- the bank of each cell (R24)
  owner : Owner := 0
  cls   : Nat := 0
  group : Nat := 0
  seq   : Nat := 0                         -- SEQ of its write
  time  : Nat := 0                         -- when replication started
  deriving DecidableEq, Repr

/-- An admitted multicast write whose replication has started: under ATOMIC_ADMIT it may wait for credit (R148). -/
structure McWait where
  x       : Staged
  group   : Nat
  entry   : Nat                            -- its multicast entry (R146)
  since   : Nat := 0                       -- start of the wait
  members : W64 := 0                       -- the membership when replication started (R145)
  seq     : Nat := 0
  time    : Nat := 0                       -- Mandrel time at which replication started
  deriving DecidableEq, Repr

/-- A tracker entry (R121 to R131). -/
structure Trk where
  id       : Nat
  egress   : Nat
  retired  : Bool := false
  rid      : W16
  devTag   : Nat                           -- tag on the egress, or the fabric tag
  origTag  : BitVec 14
  single   : Bool
  bytes    : Nat                           -- bytes left
  ide      : Bool := false
  xlated   : Bool := true                  -- carries a device tag
  fabric   : Bool := false                 -- tracked under a fabric tag (R125)
  dstChip  : Nat := 0
  dstPort  : Nat := 0
  timeout  : Nat                           -- µs
  start    : Option Nat := none            -- when its timer started
  until_   : Nat := 0                      -- quarantine end
  owner    : Owner
  src      : Src                           -- where completions go
  tc       : BitVec 3 := 0
  hdr      : Tlp                           -- the request as its requester sent it (R297)
  deriving DecidableEq, Repr

/-- A key of the IDE quarantine list (R131). -/
structure IdeKey where
  egress : Nat
  rid    : W16
  tag    : BitVec 14
  until_ : Nat
  owner  : Owner
  deriving DecidableEq, Repr

/-- A parked copy (R149). -/
structure Parked where
  id    : Nat                              -- admission order, for the holds of R150
  dest  : Nat
  tlp   : Tlp
  src   : Src
  owner : Owner
  cells : Nat
  seq   : Nat                              -- SEQ of its write
  time  : Nat                              -- when replication started
  origin : Nat := 0
  isOpen : Bool := false
  trusted : Bool := false                  -- TRUSTED of its Farug header (R200, R259)
  epoch  : Bool := false                   -- its route epoch (R266)
  deriving DecidableEq, Repr

/-- A multicast group (R143 to R154). -/
structure Group where
  members  : W64 := 0
  fallback : W64 := 0
  pending  : Tbl Nat := []                 -- cells queued per destination (R147)
  parked   : List Parked := []             -- oldest first
  deriving DecidableEq, Repr

/-- A delivery report (Table 5.7). -/
structure Report where
  group  : Nat
  seq    : Nat
  cause  : Nat
  missed : W64
  time   : W64
  deriving DecidableEq, Repr

/-- A sample waiting for the sample writer (Table 5.15). -/
structure Sample where
  tap    : Nat
  time   : W64
  port   : Nat
  egress : Bool
  owner  : Owner
  tlp    : Tlp
  deriving DecidableEq, Repr

/-- A Planisher shaper (R168). Tokens are held in 2⁻¹⁶ bytes (R169). -/
structure Shaper where
  port  : Nat := 0
  scope : Nat := 0
  tc    : Nat := 0
  owner : Nat := 0
  rate  : Nat := 0
  nextRate : Nat := 0                      -- rate from the next refill tick (R170)
  burst : Nat := 0
  tok   : Int := 0
  deriving DecidableEq, Repr

/-- An ingress policer (R171, R172). Tokens are held in 2⁻¹⁶ bytes. -/
structure Policer where
  tenant : Nat := 0
  entry  : Nat := 0
  p      : Nat := 0
  c      : Nat := 0
  deriving DecidableEq, Repr

/-- A Crucible channel (Table 8.13). `st` is 0 ABSENT, 1 TRAINING, 2 UP, 3 LOST. -/
structure Chan where
  st       : Nat := 0
  cause    : Nat := 0
  selfRef  : Bool := false
  lots     : Nat := 0
  modules  : Nat := 0
  ueSecond : Nat := 0                      -- uncorrectable errors in the present second
  ueSince  : Nat := 0                      -- when that second began
  lastUse  : Nat := 0                      -- last request, fill or scrub work (R227)
  initFill : Bool := false                 -- the initial fill has ended
  passes   : Nat := 0
  progress : Nat := 0                      -- patrol bursts of the present pass
  deriving DecidableEq, Repr

/-- A lot (Table 8.2). `st` is 0 ABSENT, 1 FREE, 2 SCRUBBING, 3 READY, 4 SPILL; `owner` 0x1FF is none. -/
structure Lot where
  st    : Nat := 0
  owner : Nat := 0x1FF
  slot  : Nat := 0
  deriving DecidableEq, Repr

/-- Rejections logged for one gate and owner in one millisecond of the replica that checks (Table 7.7). -/
structure GateCount where
  src : Nat := 0                           -- the block that checks
  ms  : Nat := 0
  n   : Nat := 0
  deriving DecidableEq, Repr

/-- A descriptor that the engine works on (R240). -/
structure Job where
  entry  : Nat                             -- ring entry
  issued : Nat := 0                        -- bytes of host reads issued (H2P)
  fail   : Nat := 0                        -- status of its first failure, 0 none (Table 8.6)
  told   : Bool := false                   -- a NOTIFY that has been delivered
  deriving DecidableEq, Repr

/-- A host read of the engine (R241). -/
structure EngRead where
  tag    : Nat
  entry  : Nat
  off    : Nat                             -- window offset of its first byte
  len    : Nat
  got    : Nat := 0
  dead   : Bool := false                   -- its data is discarded (R245)
  deriving DecidableEq, Repr

/-- A Crucible VF (Table 8.3). -/
structure Vf where
  evt      : BitVec 6 := 0
  evtMask  : BitVec 6 := 0
  tail     : BitVec 6 := 0
  head     : BitVec 6 := 0
  jobs     : List Job := []                -- descriptors in progress, from head on
  reads    : List EngRead := []            -- host reads outstanding
  ring     : Tbl W32 := []
  ntfy     : List W32 := []                -- oldest first, at most 64
  msix     : Tbl W32 := []
  pba      : BitVec 4 := 0
  bme      : Bool := false
  flr      : Option Nat := none            -- when a running FLR began
  winRej   : W32 := 0
  ueCnt    : W32 := 0
  winLast  : Nat := 0                      -- offset
  winCause : Nat := 0
  viewPage : BitVec 3 := 0
  bar0     : Option Nat := none
  bar2     : Option Nat := none
  mrrs     : Nat := 512                    -- Max_Read_Request_Size
  deriving DecidableEq, Repr

/-- A fabric link (Table 9.8). `st` is Table 9.1's value. -/
structure FabLink where
  st       : Nat := 0
  cause    : Nat := 0
  parent   : Bool := false
  child    : Bool := false
  peerChip : Nat := 0
  peerPort : Nat := 0
  delay    : Nat := 0
  wasActive : Bool := false                -- has been ACTIVE since entry to Run
  t1       : W64 := 0                      -- stamp of the last DELAY_REQ
  clashAt  : Option Nat := none            -- when a Chip ID clash was seen (R254)
  deriving DecidableEq, Repr

/-- A drain toward a chip (R268, R269). -/
structure Drain where
  acked : Nat := 0                         -- count of the last EACK
  since : Nat
  deriving DecidableEq, Repr

/-- A committed flip (R267). -/
structure Flip where
  at_  : Nat
  cmd  : Option (Path × Byte) := none      -- the command, where this chip took it
  deriving DecidableEq, Repr

/-- A prepare phase in progress at the issuing chip (R267). -/
structure Prepare where
  at_     : Nat
  waiting : BitVec 16
  refused : BitVec 16
  drains  : Bool
  tags    : Bool
  parts   : BitVec 16
  since   : Nat
  deriving DecidableEq, Repr

/-- A scheduled snapshot (R282). -/
structure Snap where
  at_  : Nat
  id   : W32
  cmd  : Option (Path × Byte) := none      -- the command, where this chip took it
  deriving DecidableEq, Repr

/-- Fabric state (chapter 9). -/
structure Fab where
  links    : Tbl FabLink := []
  epoch    : Bool := false
  flip     : Option Flip := none
  prep     : Option Prepare := none
  snap     : Option Snap := none
  drains   : Tbl Drain := []
  lastExpiry : Option Nat := none
  sent     : Tbl Nat := []                 -- 2 × chip + epoch
  rcvd     : Tbl Nat := []
  eacked   : Tbl Nat := []                 -- count of the last EACK sent
  newSeen  : BitVec 16 := 0                -- chips from which a new-epoch TLP has come
  heldOnce : List Nat := []                -- descriptors counted in FAB_EPHOLDCNT
  depth    : Nat := 0
  present  : BitVec 16 := 0
  lost     : BitVec 16 := 0
  miss     : Tbl Nat := []
  subtree  : BitVec 16 := 0                -- bits received from children this round
  runSince : Option Nat := none            -- entry to Run (R257)
  joinOver : Bool := false
  heard    : BitVec 16 := 0                -- the combined bitmap received this round
  barriers : Tbl (BitVec 16) := []         -- chips that have entered, per barrier ID
  entered  : Option Nat := none            -- the barrier that this chip has entered
  gopBusy  : Bool := false
  flippedAt : Option Nat := none           -- when the last flip was executed
  takeEpoch : Bool := false                -- the epoch is taken from the next HELLO (R258)
  resetAt  : Option Nat := none
  toffset  : Int := 0
  ringIn   : Option RingIn := none         -- none: not read yet
  ringArmed : Bool := false
  ringSince : Nat := 0
  ringOpened : Bool := false
  ringOut  : Nat := 2                      -- 0 HEALTHY, 1 ALARM, 2 high impedance
  deriving DecidableEq, Repr

/-- A fault class (R321). -/
structure FltClass where
  source : Nat
  inst   : Nat
  kind   : Nat
  owner  : Nat                             -- 0x1FF none
  deriving DecidableEq, Repr

/-- A fault table entry (R321). -/
structure FltEntry where
  cls    : FltClass
  level  : Nat
  acked  : Bool
  active : Bool
  count  : W32
  first  : Nat
  last   : Nat
  lastMsg : Msg
  deriving DecidableEq, Repr

/-- Rail states (R317). -/
inductive RailSt where
  | healthy | alarm | equal
  deriving DecidableEq, Repr

/-- Cupel (chapter 11). -/
structure Cupel where
  queues   : Tbl (List Msg) := []          -- rail index 0..13, 14 the slot power die's ALARM frames
  turn     : Nat := 0                      -- next queue in the rotation
  ovf      : BitVec 15 := 0                -- overrun flags
  masks    : Bool := false                 -- the REACT masks are loaded (R316)
  table    : Tbl FltEntry := []            -- 1,024 entries
  rails    : Tbl RailSt := []
  injectUntil : Tbl Nat := []
  quenched : Bool := false
  aliveLow : Bool := true                  -- ALIVE is in a low half-period
  checkBad : Bool := false                 -- a self-check failed and holds the toggle
  unserved : BitVec 15 := 0                -- queues that held a message at the last toggle and have not been served since
  quenchAt : Option (Nat × Nat) := none    -- when the last Quench was decided, and its rail index, 99 for a message
  temps    : List Int := []                -- the last island readings, in quarter degrees
  tjOn     : BitVec 2 := 0                 -- the TJ_HIGH and TJ_CRIT conditions hold
  storm    : List (FltClass × Nat) := []   -- events of the millisecond `stormMs`, per class
  stormMs  : Nat := 0                      -- Mandrel time in whole milliseconds
  ovfMs    : Tbl Nat := []                 -- per queue, 1 + the millisecond of its last MSG_OVF (R316)
  signalled : BitVec 14 := 0               -- rail pairs on which a block has signalled an S4 kind, not yet confirmed (R316)
  aliveNext : Nat := 0                     -- ALIVE's next toggle is due then, in device ns
  tempNext : Nat := 0                      -- the next reading of the sensors is due then
  hot      : Tbl Nat := []                 -- consecutive hot readings: island, 32 + island
  qCount   : Nat := 0                      -- free-value counter of the Quench times
  deriving DecidableEq, Repr

/-- The life record of a cartridge (Table 12.13). -/
structure Life where
  seq        : W32 := 0
  insertions : W32 := 0
  hours      : W32 := 0
  trips      : W32 := 0
  energyWh   : W32 := 0
  deriving DecidableEq, Repr

/-- A slot (Tables 12.2, 12.21). The switch die holds its state, what STAT frames told of it and everything of WANT, identity, retry and
life record; the slot power die holds `loc`, the pins, gates, feeds, latch and the timers of its local protection (R33, R339). -/
structure Slot where
  st       : Nat := 0                      -- Table 12.2, held on the switch die
  seen     : Nat := 0x3000                 -- the last STAT value, laid out as `statOf`
  loc      : Nat := 0                      -- the power die's own state, by Table 12.2's numbers; 9 latched
  want     : Bool := false
  feed     : Nat := 0                      -- 0 none, 1 A, 2 B
  perst    : Bool := true                  -- SLOT_PERST_N asserted
  warn     : Bool := true                  -- PWRFAIL_WARN_N asserted
  alert    : Bool := false                 -- SLOT_ALERT_N asserted
  held     : Bool := false                 -- holds power in its safe state: SLOT_PERST_N stays asserted (R356)
  pinA     : Bool := false                 -- presence pins, true where asserted
  pinB     : Bool := false
  pinsSince : Nat := 0                     -- both asserted since
  absentSince : Option Nat := none
  newIns   : Bool := true                  -- the next seating is a new insertion
  everSeated : Bool := false               -- a seating was observed since chip reset
  identified : Bool := false
  identFail  : Bool := false               -- STORE or VENDOR: not to be powered
  classBad   : Bool := false
  expired  : Bool := false
  lockout  : Bool := false
  latch    : Nat := 0                      -- Table 12.8
  hallmark : Nat := 0                      -- Table 12.16
  authSince : Nat := 0                     -- the DL_UP from which AUTH_TIMEOUT_MS runs (R363)
  count    : Nat := 0
  forced   : Bool := false                 -- FORCE_ON set EXPIRED and CLASS aside
  goodA    : Bool := false                 -- feed A good, as last read
  energyNext : Nat := 0                    -- the next 1 ms of ENERGY_INTEGRATE is due then
  goodB    : Bool := false
  usedA    : Bool := true                  -- driver passed Assay
  usedB    : Bool := true
  converterBad : Bool := false             -- converter check failed (Table 13.7)
  warnBelow : Bool := false                -- active feed judged below FEED_WARN_MV
  retryUntil : Option Nat := none
  perstUntil : Option Nat := none          -- PERST_DELAY_MS running
  rampSince : Nat := 0
  onSince  : Nat := 0                      -- ON since, as the switch die saw it
  offSince : Nat := 0                      -- the last gate was pulled down
  swapSince : Nat := 0                     -- the active gate was pulled down for a swap
  warnSince : Nat := 0                     -- start of T_WARN_US
  warnKind : Nat := 0                      -- 0 none, 1 commanded cut, 2 both bad, 3 chip reset
  gap      : Bool := false                 -- SWAP: old gate off, gap running
  swapTo   : Nat := 0
  gateA    : Bool := false                 -- gate driven on
  gateB    : Bool := false
  rearm    : Bool := false                 -- stays off until SLOT_POWER after RESUME (R356)
  vendorId : Nat := 0
  deviceId : Nat := 0
  cls      : Nat := 0                      -- power class in force
  ilimCode : Nat := 0
  serial   : List Byte := []
  storeMax : List Nat := [0, 0, 0, 0]      -- MAX_INSERTIONS, MAX_HOURS, MAX_TRIPS, MAX_ENERGY_KWH
  cert     : List Byte := []
  life     : Life := {}
  written  : Life := {}                    -- the record as last written
  cmdOn    : Bool := false                 -- WANT comes from SLOT_POWER in Maintenance or Factory
  latchAt  : Nat := 0                      -- when the last latch was set
  lifeCopy : Nat := 0                      -- copy that holds the newer record
  seconds  : Nat := 0                      -- ON-time residue, ms
  energy   : Nat := 0                      -- energy residue, in mV × mA × ms
  feedAMv  : Nat := 0
  feedBMv  : Nat := 0
  voutMv   : Nat := 0
  ioutMa   : Nat := 0
  deriving DecidableEq, Repr

/-- The slot power die (R33 to R36). -/
structure PowerDie where
  inReset  : Bool := true
  vccGood  : Bool := true
  safe     : BitVec 24 := 0xFFFFFF         -- its copy of the safe actions, 1 cut
  lastSeq  : Option Nat := none            -- sequence number of the last CMD or CFG applied
  lastQuench : Option Nat := none          -- sequence number of the last QUENCH applied
  lastGood : Nat := 0                      -- when the last frame with a good CRC arrived
  fields   : Tbl Nat := []                 -- CFG fields, 64 × slot + field
  orders   : Tbl Nat := []                 -- last CMD per slot, Table 1.4's order plus 1
  lost     : Bool := false                 -- it has declared the link lost
  resetting : Bool := false                -- a chip reset's warnings are running (R62)
  resetSince : Nat := 0
  deriving DecidableEq, Repr

/-- A frame waiting for its ACK (R34). -/
structure Unacked where
  frame : D2dFrame
  since : Nat
  tries : Nat
  deriving DecidableEq, Repr

/-- The switch die's end of the die-to-die link. -/
structure D2d where
  seq     : Nat := 0
  unacked : List Unacked := []             -- CMD and CFG frames, oldest first; the first is under way
  quench  : Option Unacked := none         -- a QUENCH frame under way
  lastGood : Nat := 0                      -- when the last frame with a good CRC arrived
  lost    : Bool := false
  broken  : Bool := false                  -- D2D_BREAK (R335)
  deriving DecidableEq, Repr

/-- The slots of the one-time key store (Table 14.1). `st` is 0 EMPTY, 1 VALID, 2 REVOKED. -/
structure KeySlot where
  st  : Nat := 0
  key : Nat := 0
  deriving DecidableEq, Repr

/-- The one-time key store (Table 14.1). Public keys are held as numbers. -/
structure KeyStore where
  uid       : BitVec 128 := 0
  vendorKey : Nat := 0
  owner     : Tbl KeySlot := []
  minSec    : Nat := 0
  lifecycle : Nat := 0
  deriving DecidableEq, Repr

/-- A staged AMEND record (R74). -/
structure Staging where
  bytes : List Byte
  total : Nat
  validateOnly : Bool
  deriving DecidableEq, Repr

/-- A command whose response is not formed yet. -/
structure Active where
  path  : Path
  seq   : Byte
  code  : Nat
  arg   : Nat := 0
  since : Nat := 0
  disc  : Nat := 0                         -- TLPs discarded so far (EVICT_TENANT)
  deriving DecidableEq, Repr

/-- The mailbox (Table 2.16). -/
structure Mailbox where
  owner   : Option Path := none
  busy    : Bool := false
  done    : Bool := false
  cmd     : W32 := 0
  rsp     : W32 := 0
  data    : Tbl W32 := []
  lastUse : Nat := 0
  staging : Option Staging := none
  active  : Option Active := none
  deriving DecidableEq, Repr

/-- The I3C target's window (R411 to R413). -/
structure I3c where
  static_  : Nat := 0x3A
  dynamic  : Option Nat := none
  setup    : Option (Nat × Nat) := none
  rejected : Bool := false
  deriving DecidableEq, Repr

/-- An outstanding Bilino challenge (R394). -/
structure Challenge where
  level  : Nat
  key    : Nat
  nonce  : BitVec 256
  block  : List Byte
  issued : Nat
  deriving DecidableEq, Repr

/-- Security state (chapter 14). -/
structure Sec where
  lifeAtReset : Nat := 0
  level    : Nat := 0
  fails    : Nat := 0
  holdUntil : Option Nat := none
  lockout  : Bool := false
  challenge : Option Challenge := none
  scrubbing : Bool := false
  scrubDone : Bool := false
  bufScrubbed : Bool := false
  nonces   : Nat := 0                      -- nonces drawn: the free-value counter
  burnsDue : Bool := false
  secVersion : Nat := 0
  keySlot  : Nat := 0
  fwDigest : List Byte := []
  ownDigest : List Byte := []
  chain    : List Byte := []               -- amendment chain, 48 bytes
  deriving DecidableEq, Repr

/-- The time base (R182 to R187). The counter is held in 2⁻³² ns. -/
structure TimeBase where
  ctr      : BitVec 96 := 0
  rate     : Int := 0                      -- 2⁻¹⁶ ppb
  integ    : Int := 0                      -- 2⁻¹⁶ ppb
  st       : Nat := 0                      -- Table 6.6
  offset   : Int := 0
  lastEdge : Option Int := none            -- C of the last valid edge with later steps added
  good     : Nat := 0                      -- consecutive edges within the lock limit
  lastC    : W64 := 0
  edgeAt   : Nat := 0                      -- clock of the last valid edge or SYNC
  accept   : Bool := true                  -- the next edge is accepted without the window (R183)
  setAt    : Option W64 := none            -- SET_TIME awaiting an edge
  nowHi    : W32 := 0
  nowFrac  : W16 := 0
  replicas : Tbl Nat := []                 -- stations 0..9, Crucible 10; 2⁻¹⁶ ns
  deriving DecidableEq, Repr

/-- The Assay sequencer and the adaptive voltage loop (chapter 13). -/
structure Assay where
  testing  : List Nat := []                -- stations under test
  initFrom : Option Nat := none            -- internal initialisation began
  initDone : Bool := false
  runtime  : Option Nat := none            -- station under runtime Assay
  lastRun  : Nat := 0                      -- station of the last one
  runSince : Nat := 0                      -- when it began
  vreq     : Nat := 850
  written  : Nat := 850
  highRun  : Nat := 0
  avsFail  : Bool := false
  avsTries : Nat := 0
  avsWait  : Bool := false                 -- a write awaits its acknowledgement
  avsSent  : Nat := 0                      -- when it was sent
  avsNext  : Nat := 0                      -- the loop's next period is due then
  pairFrom : Nat := 0                      -- the tests of the present pair began, after its settling time (R379)
  slack    : Nat := 0
  wdogFrom : Nat := 0                      -- when the firmware started, and with it the housekeeping watchdog (R29)
  deriving DecidableEq, Repr

/-- Why a step stops. No command of this machine stops, so there is no reason. -/
inductive Fault where
  /-- Raised by no command: a block has no exception that ends its run. Safe. -/
  | none
  deriving DecidableEq, Repr

/-- Why a command has no meaning. -/
inductive Refusal where
  /-- Raised by the dispatch of a command that has no meaning yet. Safe. -/
  | notModelled (mnemonic : String)
  deriving DecidableEq, Repr

/-- The Kerene-160. -/
structure State where
  /-- Commands waiting, first in, first out. -/
  pending   : List Instr := []
  /-- The model's own monotonic clock, in ns of time base time. -/
  clock     : Nat := 0
  mode      : Mode := .reset
  modeCause : Nat := 0
  resetCause : Nat := 1
  pwrgd     : Bool := false
  perstN    : Bool := false
  alive     : Bool := false                -- ALIVE toggling
  faultN    : Bool := false                -- FAULT_N asserted
  xspi      : Bool := false                -- XSPI_* driven
  hkRunning : Bool := false                -- housekeeping firmware running (R29)
  unusable  : BitVec 10 := 0
  banksOut  : BitVec 16 := 0
  peerLost  : Bool := false
  time      : TimeBase := {}
  keys      : KeyStore := {}
  sec       : Sec := {}
  fetchStep : Nat := 0                     -- 0 slot A next, 1 slot B next, 2 nothing to fetch, 3 an error while applying
  verified  : Option (Nat × IngotHeader × List RawRec) := none
  ingotLive : Bool := false                -- a verified ingot is applied
  ingCause0 : W32 := 0x0E                  -- ING_CAUSE[0], ING_CAUSE[1] (Table 2.8)
  ingCause1 : W32 := 0x0E
  cfg       : Cfg := {}
  /-- The records in force as framed, in order (R73). -/
  records   : List RawRec := []
  loadPorts : List (Nat × Nat) := []       -- (tenant, port) of the classification entries at Load (R72)
  /-- The BAR0 registers held as words, by BAR0 offset. -/
  regs      : Tbl W32 := []
  mbx       : Mailbox := {}
  i3c       : I3c := {}
  stations  : Tbl Station := []
  ports     : Tbl Port := []
  bridges   : Tbl Bridge := []
  vhs       : Tbl Vh := []
  nextId    : Nat := 0
  picks     : Nat := 0                     -- free-value counter of the tags taken
  staging   : List Staged := []
  descs     : List Desc := []
  mcEntries : Tbl McEntry := []
  mcWaits   : List McWait := []            -- oldest first
  used      : Tbl Nat := []                -- cells per account, 4 × owner + class
  usedTo    : Tbl Nat := []                -- cells per account and egress, 128 × (4 × owner + class) + egress
  parkUsed  : Nat := 0                     -- cells of the PARK re-delivery reserve in use
  thr       : Tbl Nat := []                -- dynamic thresholds, 2 × tenant + (0 CPL, 1 BULK)
  banks     : Banks := {}
  ended     : List Ended := []             -- open TLPs that have left before their close
  bankCe    : Tbl Nat := []                -- corrected single-bit errors per bank
  tracker   : List Trk := []
  ideQ      : List IdeKey := []
  groups    : Tbl Group := []
  reports   : List Report := []
  tapCount  : Tbl Nat := []                -- matching TLPs per tap
  tapRing   : Tbl Nat := []                -- next tenant ring entry per tap
  samples   : List Sample := []
  shapers   : Tbl Shaper := []
  policers  : Tbl Policer := []
  evict     : Tbl Nat := []                -- tenant: 2 EVICTING, 3 EVICTED
  gateMs    : Tbl GateCount := []          -- rejections logged this millisecond, 512 × gate + owner
  chans     : Tbl Chan := []
  lots      : Tbl Lot := []
  vfs       : Tbl Vf := []
  poolMem   : List Host.Cell := []         -- pool bytes, 2^38 × channel + channel address
  poison    : List Nat := []               -- poisoned lines: their first byte, as in poolMem
  hkMem     : List Host.Cell := []         -- the housekeeping controller's 2 MiB SRAM
  fab       : Fab := {}
  cupel     : Cupel := {}
  slots     : Tbl Slot := []
  pd        : PowerDie := {}
  d2d       : D2d := {}
  assay     : Assay := {}
  out       : List Output := []
  deriving DecidableEq, Repr

/-- The machine as it stands unpowered or right after a power-on reset: mode Reset, every register at its reset value,
nothing queued. -/
def State.reset : State := {}

end Sys2Proof.Machine
end

