-- ==== Sys2Proof/Machine/Ops.lean ====
section
/-! DEFINITION. The named operations over tables, registers, memory and reports that every command is written with. -/

namespace Sys2Proof.Machine

/-! Sparse tables. -/

def tfind {α : Type} : Tbl α → Nat → Option α
  | [], _ => none
  | (k, v) :: r, i => if k = i then some v else tfind r i

/-- What key `i` reads as: its entry, or the default `d`. -/
def tget {α : Type} (d : α) (t : Tbl α) (i : Nat) : α := (tfind t i).getD d

def terase {α : Type} : Tbl α → Nat → Tbl α
  | [], _ => []
  | (k, v) :: r, i => if k = i then r else (k, v) :: terase r i

def tput {α : Type} : Tbl α → Nat → α → Tbl α
  | [], i, v => [(i, v)]
  | (k, w) :: r, i, v => if i < k then (i, v) :: (k, w) :: r else if i = k then (i, v) :: r else (k, w) :: tput r i v

/-- Writes key `i`; a value equal to the default removes the entry, so that equal tables are equal lists. -/
def tset {α : Type} [DecidableEq α] (d : α) (t : Tbl α) (i : Nat) (v : α) : Tbl α :=
  if v = d then terase t i else tput t i v

/-- Every entry changed by `f`; an entry that becomes the default is removed. -/
def tmap {α : Type} [DecidableEq α] (d : α) (f : α → α) (t : Tbl α) : Tbl α :=
  (t.map (fun e => (e.1, f e.2))).filter (fun e => decide (e.2 ≠ d))

/-- Every key is above `b` and the keys rise strictly. -/
def tsorted {α : Type} : Nat → Tbl α → Bool
  | _, [] => true
  | b, (k, _) :: r => decide (b ≤ k) && tsorted (k + 1) r

/-- The canonical form: keys strictly rising, and no entry equal to the default. -/
def twf {α : Type} [DecidableEq α] (d : α) (t : Tbl α) : Bool := tsorted 0 t && t.all (fun e => decide (e.2 ≠ d))

/-! Memory (a table of bytes whose default is 0). -/

def memRead (m : List Host.Cell) : Nat → Nat → List Byte
  | _, 0 => []
  | a, n + 1 => tget 0 m a :: memRead m (a + 1) n

def memWrite (m : List Host.Cell) : Nat → List Byte → List Host.Cell
  | _, [] => m
  | a, b :: r => memWrite (tset 0 m a b) (a + 1) r

/-- Zero from `a` for `n` bytes: nothing listed there. -/
def memZero (m : List Host.Cell) (a n : Nat) : List Host.Cell := m.filter (fun e => e.1 < a || a + n ≤ e.1)

/-- A memory is well formed when it is in canonical form. -/
def Memory.wf (m : List Host.Cell) : Bool := twf 0 m

/-! Where the registers lie in BAR0 (Table 15.1). -/

def offGlb (x : Nat) : Nat := x
def offStn (s x : Nat) : Nat := 0x100000 + 0x10000 * s + x
def offPrt (p x : Nat) : Nat := 0x200000 + 0x1000 * p + x
def offSch (p x : Nat) : Nat := 0x300000 + 0x1000 * p + x
def offSchA (x : Nat) : Nat := 0x300000 + x
def offMcg (g x : Nat) : Nat := 0x400000 + 64 * g + x
def offMcgA (x : Nat) : Nat := 0x400000 + x
def offTnt (x : Nat) : Nat := 0x500000 + x
def offGat (x : Nat) : Nat := 0x600000 + x
def offCru (x : Nat) : Nat := 0x700000 + x
def offFab (x : Nat) : Nat := 0x800000 + x
def offFlt (x : Nat) : Nat := 0x900000 + x
def offSlp (n x : Nat) : Nat := 0xA00000 + 0x100 * n + x
def offTim (x : Nat) : Nat := 0xB00000 + x
def offAsy (x : Nat) : Nat := 0xC00000 + x
def offAnl (x : Nat) : Nat := 0xD00000 + x
def offSec (x : Nat) : Nat := 0xE00000 + x

/-! The word registers. Every one that `State.regs` holds resets to 0. -/

namespace State

def reg (s : State) (off : Nat) : W32 := tget 0 s.regs off

def setReg (s : State) (off : Nat) (v : W32) : State := { s with regs := tset 0 s.regs off v }

/-- A counter rises by `n` and stops at 2³² − 1 (R102). -/
def bump (s : State) (off : Nat) (n : Nat := 1) : State := s.setReg off (w32 (sat32 (s.reg off).toNat n))

/-- The device sets an event bit. -/
def setEvt (s : State) (off bit : Nat) : State := s.setReg off (setBit32 (s.reg off) bit)

/-- Words written from `off` up, four bytes each. -/
def setRegs (s : State) (off : Nat) : List Nat → State
  | [] => s
  | v :: r => (s.setReg off (w32 v)).setRegs (off + 4) r

/-! The parts of the state. -/

def port (s : State) (p : Nat) : Port := tget {} s.ports p
def setPort (s : State) (p : Nat) (v : Port) : State := { s with ports := tset {} s.ports p v }
def modPort (s : State) (p : Nat) (f : Port → Port) : State := s.setPort p (f (s.port p))
def modLink (s : State) (p : Nat) (f : Link → Link) : State := s.modPort p (fun v => { v with link := f v.link })
def modSched (s : State) (p : Nat) (f : Sched → Sched) : State := s.modPort p (fun v => { v with sched := f v.sched })
def modContain (s : State) (p : Nat) (f : Contain → Contain) : State :=
  s.modPort p (fun v => { v with contain := f v.contain })

def station (s : State) (i : Nat) : Station := tget {} s.stations i
def setStation (s : State) (i : Nat) (v : Station) : State := { s with stations := tset {} s.stations i v }
def modStation (s : State) (i : Nat) (f : Station → Station) : State := s.setStation i (f (s.station i))
def lane (s : State) (i j : Nat) : Lane := tget {} (s.station i).lanes j
def modLane (s : State) (i j : Nat) (f : Lane → Lane) : State :=
  s.modStation i (fun v => { v with lanes := tset {} v.lanes j (f (tget {} v.lanes j)) })

def bridge (s : State) (p : Nat) : Bridge := tget {} s.bridges p
def setBridge (s : State) (p : Nat) (v : Bridge) : State := { s with bridges := tset {} s.bridges p v }
def modBridge (s : State) (p : Nat) (f : Bridge → Bridge) : State := s.setBridge p (f (s.bridge p))

def vh (s : State) (v : Nat) : Vh := tget {} s.vhs v
def modVh (s : State) (v : Nat) (f : Vh → Vh) : State := { s with vhs := tset {} s.vhs v (f (s.vh v)) }

def group (s : State) (g : Nat) : Group := tget {} s.groups g
def modGroup (s : State) (g : Nat) (f : Group → Group) : State := { s with groups := tset {} s.groups g (f (s.group g)) }

def chan (s : State) (c : Nat) : Chan := tget {} s.chans c
def modChan (s : State) (c : Nat) (f : Chan → Chan) : State := { s with chans := tset {} s.chans c (f (s.chan c)) }

def lot (s : State) (l : Nat) : Lot := tget {} s.lots l
def modLot (s : State) (l : Nat) (f : Lot → Lot) : State := { s with lots := tset {} s.lots l (f (s.lot l)) }

def vf (s : State) (t : Nat) : Vf := tget {} s.vfs t
def modVf (s : State) (t : Nat) (f : Vf → Vf) : State := { s with vfs := tset {} s.vfs t (f (s.vf t)) }

def slot (s : State) (n : Nat) : Slot := tget {} s.slots n
def modSlot (s : State) (n : Nat) (f : Slot → Slot) : State := { s with slots := tset {} s.slots n (f (s.slot n)) }

def fabLink (s : State) (p : Nat) : FabLink := tget {} s.fab.links p
def modFab (s : State) (f : Fab → Fab) : State := { s with fab := f s.fab }
def modFabLink (s : State) (p : Nat) (f : FabLink → FabLink) : State :=
  s.modFab (fun b => { b with links := tset {} b.links p (f (s.fabLink p)) })

def modCupel (s : State) (f : Cupel → Cupel) : State := { s with cupel := f s.cupel }
def modTime (s : State) (f : TimeBase → TimeBase) : State := { s with time := f s.time }
def modSec (s : State) (f : Sec → Sec) : State := { s with sec := f s.sec }
def modMbx (s : State) (f : Mailbox → Mailbox) : State := { s with mbx := f s.mbx }
def modAssay (s : State) (f : Assay → Assay) : State := { s with assay := f s.assay }
def modPd (s : State) (f : PowerDie → PowerDie) : State := { s with pd := f s.pd }

def emit (s : State) (o : Output) : State := { s with out := o :: s.out }

/-! The records in force. -/

def device (s : State) : DeviceRec := s.cfg.device.getD { managerVh := 0 }
def chipId (s : State) : Nat := s.device.chipId
def fabricMode (s : State) : Bool := s.device.fabricMode
def portRec (s : State) (p : Nat) : Option PortRec := tfind s.cfg.ports p
def vhRec (s : State) (v : Nat) : Option VhRec := tfind s.cfg.vhs v
def tenantRec (s : State) (t : Nat) : Option TenantRec := tfind s.cfg.tenants t
def stationRec (s : State) (i : Nat) : StationRec := tget {} s.cfg.stations i

/-- The role of a port: 0 upstream, 1 downstream, 2 fabric. -/
def isRole (s : State) (r p : Nat) : Bool := match s.portRec p with | some x => x.role == r | none => false
def isUp (s : State) (p : Nat) : Bool := s.isRole 0 p
def isDown (s : State) (p : Nat) : Bool := s.isRole 1 p
def isFabric (s : State) (p : Nat) : Bool := s.isRole 2 p

/-- The numbers of the ports that have a PORT record. -/
def portNums (s : State) : List Nat := s.cfg.ports.map (·.1)

/-- The Mandrel counter in whole ns (R182). -/
def now (s : State) : Nat := s.time.ctr.toNat / 2 ^ 32

def inRunModes (s : State) : Bool := s.mode == .run || s.mode == .degraded

end State

/-- The mode's value in Table 0.3. -/
def modeNum : Mode → Nat
  | .reset => 0 | .load => 1 | .assay => 2 | .run => 3 | .degraded => 4 | .safe => 5 | .maintenance => 6 | .factory => 7

/-- The station of a port. -/
def stationOf (p : Nat) : Nat := p / 8

/-- The VH that holds a port of this chip: the one it roots, or the one whose record lists it (R437). -/
def vhHolds (s : State) (p : Nat) (v : VhRec) : Bool :=
  (v.upPort == p && v.upChip == s.chipId) || v.ds.any (fun d => d.port == p && d.chip == s.chipId)

def findVh (s : State) (p : Nat) : Tbl VhRec → Option Nat
  | [] => none
  | (n, v) :: r => if vhHolds s p v then some n else findVh s p r

/-- The number of the VH to which a port belongs. -/
def vhOfPort (s : State) (p : Nat) : Option Nat := findVh s p s.cfg.vhs

/-! Reports to Cupel (R314, R316). -/

/-- The replica of the block that Table 11.2 numbers `src`, in whole ns; housekeeping and the crossbar read the counter. -/
def replicaOf (s : State) (src : Nat) : Nat :=
  if src < 10 then tget 0 s.time.replicas src / 65536 else if src = 0x0B then tget 0 s.time.replicas 10 / 65536 else s.now

/-- The queue of a source block: its rail index, or 14 for the slot power die. -/
def queueOf (src : Nat) : Nat := if src < 14 then src else 14

/-- The REACT entries that the blocks' masks were loaded from. -/
def maskEntries (s : State) : List ReactEntry :=
  if s.cupel.masks then (match s.cfg.react with | some r => r.entries | none => []) else []

/-- A kind that may use the four reserved queue entries (R316). -/
def mayUseReserved (s : State) (kind : Nat) : Bool :=
  let c := kindInForce (maskEntries s) kind
  c.1 ≥ 3 || c.2.1 ≥ 3

/-- A block signals an event of an S4 kind on its rail pair as well (R316). -/
def signalRail (s : State) (q kind : Nat) : State :=
  s.modCupel (fun c => { c with
    signalled := if q < 14 ∧ (kindInForce (maskEntries s) kind).1 = 4 then c.signalled ||| BitVec.ofNat 14 (2 ^ q) else c.signalled })

/-- A block sends a message: it joins its queue, or is counted and flags the overrun. -/
def sendMsg (s : State) (q : Nat) (m : Msg) : State :=
  let s := signalRail s q m.kind
  let l := tget [] s.cupel.queues q
  let room := if mayUseReserved s m.kind then 16 else 12
  if l.length < room then s.modCupel (fun c => { c with queues := tset [] c.queues q (l ++ [m]) })
  else ((s.bump (offFlt 0x30)).modCupel (fun c => { c with ovf := c.ovf ||| BitVec.ofNat 15 (2 ^ q) }))

/-- A block detects an event of a kind and reports it with its port, owner and detail. -/
def report (s : State) (src inst kind : Nat) (owner : Option Owner := none) (port : Nat := 0x7F) (detail : Option Nat := none)
    (dest : Option (Nat × Nat) := none) : State :=
  sendMsg s (queueOf src)
    { source := src, inst := inst % 256, kind := kind, severity := (kindInForce (maskEntries s) kind).1,
      tenant := match owner with | some o => if o = ownerM then 0 else o | none => 0,
      ownerValid := owner.isSome, ownerM := owner == some ownerM, port := port, detail := detail.getD (Config.openDetail kind s.clock) % 2 ^ 31,
      time := replicaOf s src % 2 ^ 21, dest := dest }

/-- A report of a station about one of its ports. -/
def reportPort (s : State) (p kind : Nat) (owner : Option Owner := none) (detail : Option Nat := none) (dest : Option (Nat × Nat) := none) :
    State :=
  report s (stationOf p) p kind owner p detail dest

/-- An S0 report of kind STATE_CONFLICT with the DETAIL of R68. -/
def reportConflict (s : State) (code : Nat) (seq : Byte) (path : Path) : State :=
  report s 0x0C 0 0x0B none 0x7F
    (some (fld code 0 8 + fld seq.toNat 8 8 + fld (modeNum s.mode) 16 3 + fld (match path with | .mf => 1 | .i3c => 2) 19 2))

end Sys2Proof.Machine
end

