-- ==== Sys2Proof/Machine/Buffer.lean ====
section
/-! DEFINITION. The shared buffer: sizes of TLPs, accounts, pools, staging and descriptors (R24, R133 to R140). -/

namespace Sys2Proof.Machine

/-! What a TLP is. -/

/-- A request that a completion answers. -/
def isNonPosted (k : TlpKind) : Bool :=
  match k with
  | .mrd | .dmwr | .atomic | .iord | .iowr | .cfgrd0 | .cfgwr0 | .cfgrd1 | .cfgwr1 => true
  | _ => false

def isPosted (k : TlpKind) : Bool := match k with | .mwr | .msg => true | _ => false

def isMem (k : TlpKind) : Bool := match k with | .mrd | .mwr | .dmwr | .atomic => true | _ => false

def isCfg (k : TlpKind) : Bool := match k with | .cfgrd0 | .cfgwr0 | .cfgrd1 | .cfgwr1 => true | _ => false

/-- Header bytes in the non-flit format. -/
def hdrBytes (t : Tlp) : Nat :=
  match t.kind with
  | .msg => 16
  | .mrd | .mwr | .dmwr | .atomic => if t.hdr4 then 16 else 12
  | _ => 12

/-- The bytes that a memory access asks for or carries. -/
def memBytes (t : Tlp) : Nat := if t.kind = .mwr ∨ t.kind = .dmwr then t.data.length else t.len

/-- The credit type of a TLP: 0 posted, 1 non-posted, 2 completion. -/
def creditOf (t : Tlp) : Fin 3 := if t.kind = .cpl then 2 else if isNonPosted t.kind then 1 else 0

/-- The b of R24: header, prefixes (a PASID counts as one), payload and digest. -/
def tlpBytes (t : Tlp) : Nat :=
  hdrBytes t + 4 * t.prefixes.length + (if t.pasid.isSome then 4 else 0) + t.data.length + (if t.digest then 4 else 0)

/-- The cells a TLP occupies (R24). -/
def tlpCells (t : Tlp) : Nat := ceilDiv (tlpBytes t) 256

/-! Accounts (R133). -/

/-- The accounting class of a TLP (Table 5.1): M has the one account 0. -/
def acctClass (s : State) (o : Owner) (t : Tlp) : Nat :=
  if o = ownerM then 0
  else if t.kind = .cpl then 2
  else if isNonPosted t.kind then 1
  else match s.tenantRec o with
    | some r => if r.bulkTc.getLsbD t.tc.toNat then 3 else 0
    | none => 0

def acct (o : Owner) (c : Nat) : Nat := 4 * o + c

/-- The egress number that stands for a multicast write (R137). -/
def egressMc : Nat := 127

/-- Egress numbers: 0..79 a port, 126 crossbar port 10 and 11 have no class queue; 127 multicast. -/
def egressOf (d : Dest) : Nat :=
  match d with
  | .port p => p
  | .remote _ _ => 125
  | .crucible => 124
  | .housekeeping => 126
  | .group _ => egressMc

/-- U of R134. -/
def usable (s : State) : Nat := if s.banksOut = 0 then 98304 else 92160

/-- MIN_P and MIN_NP of a TENANT record, for U usable cells and N records (R135). -/
def derivedMinP (u n : Nat) : Nat := min 512 (3 * u / (16 * n))
def derivedMinNp (u n : Nat) : Nat := min 128 (u / (16 * n))
def minPOf (u n : Nat) (r : TenantRec) : Nat := if r.minP = 0xFFFF then derivedMinP u n else r.minP
def minNpOf (u n : Nat) (r : TenantRec) : Nat := if r.minNp = 0xFFFF then derivedMinNp u n else r.minNp

/-- The reserved pool of a configuration with U usable cells (R134). -/
def reservedPoolOf (u : Nat) (c : Cfg) : Nat :=
  (c.tenants.map (fun e => minPOf u c.tenants.length e.2 + minNpOf u c.tenants.length e.2)).sum + 1024
    + (if c.mcasts.any (fun e => e.2.policy == .park) then 2048 else 0)

def minOf (s : State) (o c : Nat) : Nat :=
  if o = ownerM then (if c = 0 then 1024 else 0)
  else match s.tenantRec o with
    | some r =>
      if c = 0 then minPOf (usable s) s.cfg.tenants.length r
      else if c = 1 then minNpOf (usable s) s.cfg.tenants.length r else 0
    | none => 0

def reservedPool (s : State) : Nat := reservedPoolOf (usable s) s.cfg

def sharedPool (s : State) : Nat := usable s - reservedPool s

def usedOf (s : State) (o c : Nat) : Nat := tget 0 s.used (acct o c)

/-- Cells that an account holds above its minimum. -/
def overOf (s : State) (o c : Nat) : Nat := usedOf s o c - minOf s o c

/-- Cells of the shared pool in use. -/
def sharedUsed (s : State) : Nat := (s.used.map (fun e => e.2 - minOf s (e.1 / 4) (e.1 % 4))).sum

def sharedFree (s : State) : Nat := sharedPool s - sharedUsed s

/-- BUF_CAP in force (Table 5.3). -/
def capOf (s : State) (t : Nat) : Nat :=
  match s.tenantRec t with
  | some r => r.cap.getD (sharedPool s / 8)
  | none => 0

/-- q[t][a][e] of R137. -/
def queuedTo (s : State) (o c e : Nat) : Nat := tget 0 s.usedTo (128 * acct o c + e)

/-- The dynamic threshold in force, for class 2 CPL or 3 BULK. -/
def thrOf (s : State) (t c : Nat) : Nat := tget 0 s.thr (2 * t + (c - 2))

/-- α of a threshold code times the shared free count (Table 5.3). -/
def alphaOf (code f : Nat) : Nat := f * 2 ^ code / 64

/-- The dynamic thresholds are set from the shared free count (R139, R140). -/
def setThresholds (s : State) : State :=
  let f := sharedFree s
  let cap := sharedPool s
  { s with thr := s.cfg.tenants.foldl (fun t e =>
      tset 0 (tset 0 t (2 * e.1) (min cap (alphaOf e.2.alphaCpl f))) (2 * e.1 + 1) (min cap (alphaOf e.2.alphaBulk f))) [] }

/-- The buffer, the tracker with its tags, and the IDE quarantine list are cleared (R55, R397). -/
def clearBuffer (s : State) : State :=
  { s with descs := [], mcWaits := [], mcEntries := [], used := [], usedTo := [], parkUsed := 0, tracker := [], ideQ := [],
           banks := { s.banks with used := [] }, ended := [] }

/-- The admission decision of R137 for n cells toward e. -/
def mayAdmit (s : State) (o c e n : Nat) : Bool :=
  let incOf (k : Nat) := (usedOf s o k + n - minOf s o k) - (usedOf s o k - minOf s o k)
  if o = ownerM then
    incOf 0 == 0 || (decide (overOf s ownerM 0 + incOf 0 ≤ 4096) && decide (incOf 0 ≤ sharedFree s))
  else if c ≤ 1 then
    incOf c == 0
      || (decide (overOf s o 0 + overOf s o 1 + incOf c ≤ capOf s o) && decide (incOf c ≤ sharedFree s))
  else if sharedFree s < n then false
  else queuedTo s o c e == 0 || decide (queuedTo s o c e + n ≤ thrOf s o c)

/-- take(n) of R137. -/
def takeCells (s : State) (o c e n : Nat) : State :=
  { s with used := tset 0 s.used (acct o c) (usedOf s o c + n)
           usedTo := tset 0 s.usedTo (128 * acct o c + e) (queuedTo s o c e + n) }

def freeCells (s : State) (o c e n : Nat) : State :=
  { s with used := tset 0 s.used (acct o c) (usedOf s o c - n)
           usedTo := tset 0 s.usedTo (128 * acct o c + e) (queuedTo s o c e - n) }

/-! Banks (R24). -/

/-- The bank of the next cell: of the banks that are not mapped out and have a free cell, the first in the rotation whose write port is free
in that cycle; where no port is free, the first of them, a cycle later. -/
def pickBank (out : BitVec 16) (k : Banks) : Nat :=
  let l := ((List.range 16).map (fun i => (k.next + i) % 16)).filter (fun b => !out.getLsbD b && decide (tget 0 k.used b < 6144))
  (l.find? (Config.writePortFree k.seq)).getD (l.headD 0)

/-- The banks of the next `n` cells, and the banks after their allocation. -/
def allocBanks (out : BitVec 16) : Nat → Banks → List Nat × Banks
  | 0, k => ([], k)
  | n + 1, k =>
    let b := pickBank out k
    let r := allocBanks out n { next := (b + 1) % 16, seq := k.seq + 1, used := tset 0 k.used b (tget 0 k.used b + 1) }
    (b :: r.1, r.2)

/-- The banks of `n` cells that a TLP takes now. -/
def banksFor (s : State) (n : Nat) : List Nat := (allocBanks s.banksOut n s.banks).1

def takeBanks (s : State) (n : Nat) : State := { s with banks := (allocBanks s.banksOut n s.banks).2 }

def freeBanks (s : State) (l : List Nat) : State :=
  { s with banks := { s.banks with used := l.foldl (fun u b => tset 0 u b (tget 0 u b - 1)) s.banks.used } }

/-! Staging and descriptors. -/

/-- A TLP joins a staging queue, or the queue of the block that formed it. -/
def stage (s : State) (x : Staged) : State :=
  { s with staging := s.staging ++ [{ x with id := s.nextId }], nextId := s.nextId + 1 }

def unstage (s : State) (id : Nat) : State := { s with staging := s.staging.filter (fun x => x.id != id) }

def modStaged (s : State) (id : Nat) (f : Staged → Staged) : State :=
  { s with staging := s.staging.map (fun x => if x.id = id then f x else x) }

def findDesc (s : State) (id : Nat) : Option Desc := s.descs.find? (fun d => d.id == id)

def modDesc (s : State) (id : Nat) (f : Desc → Desc) : State :=
  { s with descs := s.descs.map (fun d => if d.id = id then f d else d) }

/-- A reference to a multicast entry ends; the cells are freed with the last one (R146). -/
def mcUnref (s : State) (e : Nat) : State :=
  let m := tget {} s.mcEntries e
  if m.refs ≤ 1 then
    { freeCells (freeBanks s m.banks) m.owner m.cls egressMc m.cells with mcEntries := terase s.mcEntries e }
  else { s with mcEntries := tset {} s.mcEntries e { m with refs := m.refs - 1 } }

/-- pending(g, d) of R147 falls by the cells of a copy that is no longer queued. -/
def unpend (s : State) (g d n : Nat) : State :=
  s.modGroup g (fun x => { x with pending := tset 0 x.pending d (tget 0 x.pending d - n) })

/-- The SCHED record of a port; a port without one has no express class, weights of 8 and nothing else (R167). -/
def schedRec (s : State) (p : Nat) : SchedRec := (tfind s.cfg.scheds p).getD {}

def isExpress (s : State) (p c : Nat) : Bool := (schedRec s p).express.getLsbD c

/-- A descriptor is still queued: the one whose head has left its egress by cut-through is not. -/
def isQueued (s : State) (d : Desc) : Bool := (s.port d.egress).sched.txing != some d.id

/-- A descriptor of a class is queued toward a port. -/
def classBusy (s : State) (p c : Nat) : Bool := s.descs.any (fun d => d.egress == p && d.tlp.tc.toNat == c && isQueued s d)

/-- A descriptor joins its class queue; a class that becomes non-empty joins the tail of the ring with deficit 0 and
fresh set (R163, R166). -/
def enqueue (s : State) (d : Desc) : State :=
  let c := d.tlp.tc.toNat
  let s := if classBusy s d.egress c || isExpress s d.egress c then s
    else s.modSched d.egress (fun x =>
      { x with ring := x.ring.filter (· != c) ++ [c], deficit := terase x.deficit c, fresh := x.fresh.filter (· != c) ++ [c] })
  { s with descs := s.descs ++ [d] }

/-- A class that has become empty leaves the ring with deficit 0 (R166). -/
def leaveRing (s : State) (p c : Nat) : State :=
  if classBusy s p c then s
  else s.modSched p (fun x =>
    { x with ring := x.ring.filter (· != c), deficit := terase x.deficit c, fresh := x.fresh.filter (· != c) })

/-- An open TLP that leaves before its close is remembered until then (R119). -/
def noteEnded (s : State) (isOpen : Bool) (id origin ingress : Nat) : State :=
  if isOpen then { s with ended := s.ended ++ [{ id := id, origin := origin, ingress := ingress }] } else s

/-- A descriptor leaves its queue and its cells are freed. -/
def removeDesc (s : State) (d : Desc) : State :=
  let s := noteEnded { s with descs := s.descs.filter (fun x => x.id != d.id) } d.isOpen d.id d.origin d.ingress
  let s := s.modSched d.egress (fun c =>
    { c with txing := if c.txing = some d.id then none else c.txing
             cutAt := if c.txing = some d.id then 0 else c.cutAt
             held := if c.held = some d.id then none else c.held
             refused := c.refused.filter (· != d.id) })
  let s := leaveRing s d.egress d.tlp.tc.toNat
  let s := s.modFab (fun f => { f with heldOnce := f.heldOnce.filter (· != d.id) })
  match d.redeliv, d.mc with
  | some (g, k, _, _), _ => unpend { freeBanks s d.banks with parkUsed := s.parkUsed - d.cells } g k d.cells
  | none, some (g, k, e) => mcUnref (unpend s g k d.cells) e
  | none, none => freeCells (freeBanks s d.banks) d.owner d.cls d.egress d.cells

/-- Descriptors queued toward a port. -/
def descsTo (s : State) (p : Nat) : List Desc := s.descs.filter (fun d => d.egress == p)

end Sys2Proof.Machine
end

