-- ==== Sys2Proof/Machine/Header.lean ====
section
/-! DEFINITION. The header of a TLP in the Base Specification's non-flit format, as logs and samples hold it. -/

namespace Sys2Proof.Machine

/-- Fmt and Type of a TLP. -/
def fmtType (t : Tlp) : Nat :=
  let h4 := if t.hdr4 then 0x20 else 0
  match t.kind with
  | .mrd => h4
  | .mwr => 0x40 + h4
  | .dmwr => 0x5B + h4                     -- PRESUMED, the Base Specification's code: log entry 85
  | .iord => 0x02
  | .iowr => 0x42
  | .cfgrd0 => 0x04
  | .cfgwr0 => 0x44
  | .cfgrd1 => 0x05
  | .cfgwr1 => 0x45
  | .atomic => 0x40 + h4 + (match t.atomicOp with | .fetchAdd => 0x0C | .swap => 0x0D | .cas => 0x0E)
  | .cpl => if t.data = [] then 0x0A else 0x4A
  | .msg => (if t.data = [] then 0x30 else 0x70)
      + (match t.route with | .toRoot => 0 | .byAddr => 1 | .byId => 2 | .broadcast => 3 | .local => 4)

/-- Length in double words, as the header gives it: 0 stands for 1,024. -/
def lenDw (t : Tlp) : Nat :=
  (match t.kind with | .mrd => ceilDiv t.len 4 | .iord | .cfgrd0 | .cfgrd1 => 1 | _ => ceilDiv t.data.length 4) % 1024

def cplCode (c : CplStatus) : Nat := match c with | .sc => 0 | .ur => 1 | .rrs => 2 | .ca => 4

/-- The four header words; word 3 of a 3DW header is 0. -/
def hdrWords (t : Tlp) : List Nat :=
  let g := t.tag.toNat
  let d0 := fld (fmtType t) 24 8 + fld (g / 512) 23 1 + fld t.tc.toNat 20 3 + fld (g / 256) 19 1 + flag t.ido 18 + flag t.digest 15
    + flag t.poisoned 14 + flag t.relaxed 13 + fld t.addrType.toNat 10 2 + fld (lenDw t) 0 10
  let bes := fld t.lastBe.toNat 4 4 + fld t.firstBe.toNat 0 4
  let req := fld t.rid.toNat 16 16 + fld g 8 8
  match t.kind with
  | .cpl => [d0, fld t.cid.toNat 16 16 + fld (cplCode t.status) 13 3 + fld t.byteCount 0 12,
             req + fld t.addr.toNat 0 7, 0]
  | .cfgrd0 | .cfgwr0 | .cfgrd1 | .cfgwr1 => [d0, req + bes, fld t.cid.toNat 16 16 + fld t.addr.toNat 0 12, 0]
  | .msg => [d0, req + fld t.msgCode.toNat 0 8, t.addr.toNat / 2 ^ 32, t.addr.toNat % 2 ^ 32]
  | _ =>
    if t.hdr4 then [d0, req + bes, t.addr.toNat / 2 ^ 32, t.addr.toNat % 2 ^ 32 / 4 * 4]
    else [d0, req + bes, t.addr.toNat % 2 ^ 32 / 4 * 4, 0]

/-- The header's bytes in the order in which they are sent, the first byte of each word being its most significant. -/
def hdrBytesOf (t : Tlp) : List Byte :=
  ((hdrWords t).map (fun w => (leBytes 4 w).reverse)).flatten.take (hdrBytes t)

/-- The bytes of a PASID prefix. -/
def pasidPrefix (p : Pasid) : List Byte :=
  (leBytes 4 (0x91000000 + flag p.priv 22 + flag p.exe 23 + p.value.toNat)).reverse

end Sys2Proof.Machine
end

