-- ==== Sys2Proof/Machine/Tracker.lean ====
section
/-! DEFINITION. Farug routes, device-formed completions, the non-posted tracker and its tags (R121 to R131, R263). -/

namespace Sys2Proof.Machine

/-! Reach (R437). -/

/-- Tenant t reaches port e of this chip. -/
def reaches (s : State) (t e : Nat) : Bool :=
  match s.tenantRec t with
  | none => false
  | some r =>
    match s.vhRec r.vh with
    | none => false
    | some v => if s.isFabric e then v.upChip != s.chipId || v.ds.any (fun d => d.chip != s.chipId) else vhHolds s e v

/-- The tenants that reach a port. -/
def reachers (s : State) (e : Nat) : List Nat := (s.cfg.tenants.map (·.1)).filter (fun t => reaches s t e)

/-! Fabric routes (R257, R263). -/

def fabricRec (s : State) : FabricRec :=
  s.cfg.fabric.getD { fabricId := 0, chipCount := 0, treeParent := 0, chipMask := 0, peers := [] }

/-- The members of bank `b`'s entry for a chip. -/
def routeMembers (s : State) (b : Bool) (chip : Nat) : List Nat :=
  tget [] (fabricRec s).routes (16 * (if b then 1 else 0) + chip)

/-- A bank names a port. -/
def bankNames (s : State) (b : Bool) (p : Nat) : Bool :=
  (List.range 16).any (fun c => (routeMembers s b c).contains p)

/-- The cold-start window is still running (R257). -/
def inJoinWindow (s : State) : Bool := s.fab.runSince.isSome && !s.fab.joinOver

/-- A fabric port is pending (R257). -/
def isPending (s : State) (p : Nat) : Bool :=
  inJoinWindow s && bankNames s s.fab.epoch p && !(s.fabLink p).wasActive

/-- The outcome of a route lookup. -/
inductive Route where
  | send (p : Nat) | hold (p : Nat) | none
  deriving DecidableEq, Repr

/-- Tries the members from index `i` on, `k` of them. -/
def routeFrom (s : State) (ms : List Nat) (i : Nat) : Nat → Route
  | 0 => .none
  | k + 1 =>
    let m := ms.getD (i % ms.length) 0
    if (s.fabLink m).st = 3 then .send m
    else if isPending s m then .hold m
    else routeFrom s ms (i + 1) k

/-- The hash of a header (R263). -/
def farugHash (f : Farug) : Nat := ((f.srcChip * 128 + f.srcPort) ^^^ (f.dstPort * 8 + f.tc)) ^^^ (f.tenant * 16)

/-- Selection of a member port for a header under the bank that its EPOCH names (R263, R266). -/
def fabRoute (s : State) (f : Farug) : Route :=
  let ms := routeMembers s f.epoch f.dstChip
  routeFrom s ms (farugHash f % ms.length) ms.length

/-- The route of a TLP: a completion toward a LOST chip finds none (R284). -/
def tlpRoute (s : State) (t : Tlp) (f : Farug) : Route :=
  if t.kind = .cpl ∧ s.fab.lost.getLsbD f.dstChip then .none else fabRoute s f

/-- The header that the chip of first ingress stamps on a TLP of route epoch `e` (R259, R266). -/
def stampFarug (src : Src) (o : Owner) (tc : Nat) (trusted e : Bool) (chip port : Nat) : Farug :=
  { dstChip := chip, dstPort := port, srcChip := src.chip, srcPort := src.port,
    tenant := if o = ownerM then 0 else o, ownerM := o == ownerM, epoch := e, tc := tc, trusted := trusted }

/-- TNT_FABLOSSCNT of an owner (R291). -/
def countFabLoss (s : State) (o : Owner) (n : Nat := 1) : State := s.bump (offTnt (0x60008 + 16 * o)) n

/-! Completions that the device forms (Table 4.1, R137). -/

/-- The destination of a completion toward the source of a request. -/
def destOfSrc (s : State) (x : Src) : Dest :=
  if x.chip ≠ s.chipId then .remote x.chip x.port
  else if x.port = 0x7E then .crucible
  else if x.port = 0x7F then .housekeeping
  else .port x.port

/-- A TLP that the device forms itself is presented for admission under `o` in the block `b` (R137). -/
def present (s : State) (b : Nat) (from_ : Src) (o : Owner) (d : Dest) (t : Tlp) : State :=
  stage s { id := 0, key := .block b, tlp := t, src := from_, owner := o, cls := acctClass s o t, dest := d,
            isOpen := false, epoch := s.fab.epoch }

/-! The device's functions in a VH (R197, R237), and their MSI-X messages (R168, R245, R415). -/

/-- The tenants of a VH, ascending. -/
def vhTenants (s : State) (vn : Nat) : List Nat := (s.cfg.tenants.filter (fun t => t.2.vh == vn)).map (·.1)

/-- The Requester ID of function `f` of the device on the VH's primary bus. -/
def funcRid (s : State) (vn f : Nat) : W16 := BitVec.ofNat 16 (256 * (s.vh vn).primaryBus + f)

/-- The Requester ID of tenant `t`'s VF: function 3 + k. -/
def vfRid (s : State) (t : Nat) : W16 :=
  match s.tenantRec t with
  | none => 0
  | some r => funcRid s r.vh (3 + (vhTenants s r.vh).idxOf t)

/-- An MSI-X message of a function of VH `vn`: a posted write of one double word from crossbar port `port`, toward the VH's root complex.
Its route and traffic class are PRESUMED, log entry 93. -/
def sendMsix (s : State) (b port : Nat) (o : Owner) (vn : Nat) (rid : W16) (lo hi data : W32) : State :=
  match s.vhRec vn with
  | none => s
  | some v =>
    present s b { chip := s.chipId, port := port } o (if v.upChip = s.chipId then .port v.upPort else .remote v.upChip v.upPort)
      { kind := .mwr, rid := rid, addr := w64 (hi.toNat * 2 ^ 32 + lo.toNat / 4 * 4), len := 4, data := leBytes 4 data.toNat,
        hdr4 := hi != 0, lastBe := 0 }

/-- A completion without data. -/
def mkCpl (req : Tlp) (tag : BitVec 14) (cid : W16) (st : CplStatus) (bytes : Nat) : Tlp :=
  { kind := .cpl, tc := req.tc, rid := req.rid, tag := tag, cid := cid, status := st, byteCount := bytes,
    relaxed := req.relaxed }

/-- The byte count of a completion that answers a whole request. -/
def reqBytes (t : Tlp) : Nat := if t.kind = .mrd ∨ t.kind = .atomic then t.len else 4

/-- A completion formed for a request that came from `src`: it belongs to the request's owner. A requester that is
crossbar port 10 or 11 of this chip is answered inside the device (R126). -/
def answer (s : State) (b at_ : Nat) (src : Src) (o : Owner) (t : Tlp) : State :=
  match destOfSrc s src with
  | .housekeeping => s
  | d => present s b { chip := s.chipId, port := at_ } o d t

/-- A completion of status `st` for request `t` refused at port `at_`. -/
def answerStatus (s : State) (b at_ : Nat) (src : Src) (o : Owner) (t : Tlp) (st : CplStatus) : State :=
  answer s b at_ src o (mkCpl t t.tag (Config.completerId at_) st (reqBytes t))

/-! Tags (R122 to R124). -/

/-- The number of device tags of a tag form, and the lowest value (Table 4.7). -/
def tagSpace (form : Nat) : Nat := if form = 1 then 256 else if form = 2 then 768 else if form = 3 then 16383 else 0
def tagBase (form : Nat) : Nat := if form = 2 then 0x100 else if form = 3 then 1 else 0

/-- The tag form of Table 4.7 for a port's link and its completer; a port has one from Load on (R124). -/
def tagFormOf (s : State) (p : Nat) : Nat :=
  let q := s.port p
  if s.isFabric p then 3
  else if (s.portRec p).isNone then 0
  else if !q.tagRead || !q.tag10 then 1
  else if q.link.flit && q.tag14 && s.isDown p then 3 else 2

/-- Tags reserved to an owner on an egress (R124). -/
def tagReserve (s : State) (p : Nat) (o : Owner) : Nat :=
  if s.isFabric p then (if o = ownerM then 256 else if (s.tenantRec o).isSome then 32 else 0)
  else if o = ownerM || reaches s o p then tagSpace (tagFormOf s p) * 3 / 4 / ((reachers s p).length + 1) else 0

/-- Shared tags on an egress (R124). -/
def tagShared (s : State) (p : Nat) : Nat :=
  if s.isFabric p then 16383 - (32 * s.cfg.tenants.length + 256)
  else
    let n := tagSpace (tagFormOf s p)
    n - n * 3 / 4 / ((reachers s p).length + 1) * ((reachers s p).length + 1)

/-- The entries that hold a tag of the space that egress `p` uses: fabric tags are one space per chip. -/
def tagHolders (s : State) (p : Nat) : List Trk :=
  s.tracker.filter (fun e => e.xlated && (if s.isFabric p then e.fabric else !e.fabric && e.egress == p))

def ownersOf (l : List Trk) : List Nat := (l.map (·.owner)).eraseDups

/-- Shared tags in use. -/
def tagSharedUsed (s : State) (p : Nat) : Nat :=
  let l := tagHolders s p
  ((ownersOf l).map (fun o => l.countP (fun e => e.owner == o) - tagReserve s p o)).sum

/-- An owner may take one more tag on an egress. -/
def tagAvailable (s : State) (p : Nat) (o : Owner) : Bool :=
  decide ((tagHolders s p).countP (fun e => e.owner == o) < tagReserve s p o)
    || decide (tagSharedUsed s p < tagShared s p)

/-- The first value at or after `i`, of the `n` from `base`, that `used` does not hold; `k` values are tried. -/
def firstFree (used : List Nat) (base n i : Nat) : Nat → Option Nat
  | 0 => none
  | k + 1 => let v := base + i % n; if used.contains v then firstFree used base n (i + 1) k else some v

/-! Tracker entries (R121, R126). -/

/-- Entries reserved to an owner. -/
def trkReserve (s : State) (o : Owner) : Nat :=
  if o = ownerM then 256 else if (s.tenantRec o).isSome then 64 else 0

def trkSharedSize (s : State) : Nat := 32768 - (64 * s.cfg.tenants.length + 256)

def trkSharedUsed (s : State) : Nat :=
  ((ownersOf s.tracker).map (fun o => s.tracker.countP (fun e => e.owner == o) - trkReserve s o)).sum

def trkAvailable (s : State) (o : Owner) : Bool :=
  decide (s.tracker.countP (fun e => e.owner == o) < trkReserve s o) || decide (trkSharedUsed s < trkSharedSize s)

/-- The CPL_TIMEOUT_US of a port. -/
def cplTimeout (s : State) (p : Nat) : Nat := match s.portRec p with | some r => r.cplTimeoutUs | none => 50000

/-- The status that a port's CONTAIN_CPL gives. -/
def containStatus (s : State) (p : Nat) : CplStatus :=
  match s.portRec p with | some r => if r.containCa then .ca else .ur | none => .ca

/-- The other kind of entry is open for this requester toward this egress (R130). -/
def ideConflict (s : State) (p : Nat) (t : Tlp) : Bool :=
  s.tracker.any (fun e => e.egress == p && !e.retired && e.rid == t.rid && e.ide != t.ide)

/-- A request takes its tracker entry, and its device tag where it is translated (R121, R122, R128); none where it must
wait (R113). -/
def trackDesc (s : State) (d : Desc) : Option State :=
  if !trkAvailable s d.owner || ideConflict s d.egress d.tlp then none
  else
    let mk (tag : Nat) (x : Bool) : Trk :=
      { id := s.nextId, egress := d.egress, rid := d.tlp.rid, devTag := tag, origTag := d.tlp.tag,
        single := d.tlp.kind != .mrd, bytes := reqBytes d.tlp, ide := d.tlp.ide, xlated := x,
        fabric := s.isFabric d.egress,
        dstChip := match d.farug with | some f => f.dstChip | none => s.chipId,
        dstPort := match d.farug with | some f => f.dstPort | none => d.egress,
        timeout := cplTimeout s d.egress, owner := d.owner, src := d.src, tc := d.tlp.tc, hdr := d.tlp }
    let put (s : State) (e : Trk) (t : Tlp) : State :=
      modDesc { s with tracker := s.tracker ++ [e], nextId := s.nextId + 1 } d.id
        (fun y => { y with trk := some e.id, needTrk := false, tlp := t })
    if d.tlp.ide then
      -- a new IDE request with a quarantined key removes that key (R131)
      some (put { s with ideQ := s.ideQ.filter
                          (fun k => !(k.egress == d.egress && k.rid == d.tlp.rid && k.tag == d.tlp.tag)) }
                (mk d.tlp.tag.toNat false) d.tlp)
    else if !tagAvailable s d.egress d.owner then none
    else
      let form := tagFormOf s d.egress
      let n := tagSpace form
      match firstFree ((tagHolders s d.egress).map (·.devTag)) (tagBase form) n (Config.tagPick s.picks) n with
      | none => none
      | some g => some (put { s with picks := s.picks + 1 } (mk g true) { d.tlp with tag := BitVec.ofNat 14 g })

/-- An entry leaves the tracker. -/
def freeTrk (s : State) (id : Nat) : State := { s with tracker := s.tracker.filter (fun e => e.id != id) }

def findTrk (s : State) (id : Nat) : Option Trk := s.tracker.find? (fun e => e.id == id)

def modTrk (s : State) (id : Nat) (f : Trk → Trk) : State :=
  { s with tracker := s.tracker.map (fun e => if e.id = id then f e else e) }

/-- A key joins the IDE quarantine list; from a full list the oldest leaves early (R131). -/
def ideqAdd (s : State) (k : IdeKey) : State :=
  if s.ideQ.length < 4096 then { s with ideQ := s.ideQ ++ [k] }
  else
    let w := (s.reg (offGlb 0x10C)).toNat
    let s := s.setReg (offGlb 0x10C) (w32 (min (w / 2 ^ 16 + 1) 0xFFFF * 2 ^ 16))
    let o := (s.ideQ.head?.map (·.owner)).getD ownerM
    report { s with ideQ := s.ideQ.drop 1 ++ [k] } 0x0A 0 0x3A (some o) k.egress

/-- retire(ent, status) of R126. -/
def retire (s : State) (e : Trk) (st : CplStatus) : State :=
  if e.retired then s
  else if e.ide then
    freeTrk (ideqAdd s { egress := e.egress, rid := e.rid, tag := e.origTag, until_ := s.clock + 2000 * e.timeout,
                         owner := e.owner }) e.id
  else
    modTrk (answer s 12 e.egress e.src e.owner (mkCpl e.hdr e.origTag (Config.completerId e.egress) st e.bytes)) e.id
      (fun x => { x with retired := true, until_ := s.clock + 2000 * e.timeout })

/-! A TLP that turns bad (R119, R120). -/

/-- Where a TLP with a Farug header is for: chip and port. -/
def farDest (f : Option Farug) : Option (Nat × Nat) := f.map (fun f => (f.dstChip, f.dstPort))

/-- Counts and reports a TLP nullified or stomped on egress `p` (R119). -/
def lateDiscard (s : State) (p : Nat) (d : Desc) : State :=
  let s := s.bump (offPrt p 0x54)
  let s := s.bump (offTnt (0x40000 + 16 * d.owner))
  reportPort (s.setEvt (offPrt p 0x4C) 1) p 0x31 (some d.owner) none (farDest d.farug)

/-- What becomes of the tracker entry of a request that does not arrive (R120): lost inside the device, or freed because
the link delivers it again or is down. -/
def endTrk (s : State) (d : Desc) (lost : Bool) : State :=
  match d.trk with
  | none => s
  | some i => if lost then (match findTrk s i with | some e => retire s e .ca | none => s) else freeTrk s i

/-- The TLP whose head has left egress `p` is nullified or stomped (R118, R119); `lost` is R120's second row. -/
def cutShort (s : State) (p : Nat) (d : Desc) (lost : Bool) : State :=
  let s := s.emit (.tlp p d.tlp (if s.isFabric p then d.farug.map (fun f => { f with stomp := true }) else none) true)
  endTrk (removeDesc (lateDiscard s p d) d) d lost

end Sys2Proof.Machine
end

