-- ==== Sys2Proof/Machine/Contain.lean ====
section
/-! DEFINITION. Missed multicast copies and their reports, containment and its release (R153, R265, R300 to R306). -/

namespace Sys2Proof.Machine

def mcastRec (s : State) (g : Nat) : Option McastRec := tfind s.cfg.mcasts g

/-- A port of this chip that is not contained and has DL_UP; one that drains (R309) is not contained. -/
def portOpen (s : State) (p : Nat) : Bool :=
  (s.port p).link.dlUp && ((s.port p).contain.phase == 0 || (s.port p).contain.phase == 3)

/-- A report is dropped: counted, and flagged at its group (R153). -/
def dropReport (s : State) (g : Nat) : State :=
  report ((s.bump (offMcgA 0x10008)).setEvt (offMcg g 0x24) 4) 0x0A (g % 256) 0x45

/-- The owning VH's upstream port can take a report; a port of another chip is taken to. -/
def reportPortOpen (s : State) (v : VhRec) : Bool := if v.upChip = s.chipId then portOpen s v.upPort else true

/-- Copies of one write of group `g` are missed: counted, and reported on the group's ring if it is enabled (R153). -/
def missCopies (s : State) (g seq time cause : Nat) (missed : W64) : State :=
  let s := s.bump (offMcg g 0x18) (popN 64 missed.toNat)
  match mcastRec s g with
  | none => s
  | some m =>
    match s.vhRec m.vh with
    | none => s
    | some v =>
      if !(tget {} (s.vh m.vh).rings m.vhIndex).en then s
      else if s.reports.length < 64 && reportPortOpen s v then
        { s with reports := s.reports ++ [{ group := g, seq := seq, cause := cause, missed := missed, time := w64 time }] }
      else dropReport s g

/-- A queued copy of a multicast write is discarded and is a miss (R301). -/
def missDesc (s : State) (d : Desc) (cause : Nat) : State :=
  match d.mc, d.redeliv with
  | some (g, k, e), _ =>
    let m := tget {} s.mcEntries e
    missCopies s g m.seq m.time cause (w64 (2 ^ k))
  | none, some (g, k, seq, time) => missCopies s g seq time cause (w64 (2 ^ k))
  | none, none => s

/-- The (chip, port) of a group's destination. -/
def destAt (m : McastRec) (k : Nat) : PortChip := m.dests.getD k { port := 0xFF, chip := 0xFF }

/-- The parked copies toward destination `k` of `g` are discarded as misses, and its fallback clears (R154). -/
def dropParked (s : State) (g k cause : Nat) : State :=
  let s := ((s.group g).parked.filter (fun x => x.dest == k)).foldl
    (fun a x => missCopies a g x.seq x.time cause (w64 (2 ^ k))) s
  s.modGroup g (fun x => { x with parked := x.parked.filter (fun y => y.dest != k),
                                  fallback := x.fallback &&& ~~~ w64 (2 ^ k) })

/-- Every group's parked copies toward a port of this chip are discarded (R154). -/
def dropParkedTo (s : State) (p : Nat) : State :=
  s.groups.foldl (fun a e =>
    match mcastRec s e.1 with
    | none => a
    | some m => (List.range m.dests.length).foldl
        (fun b k => if (destAt m k).port = p ∧ (destAt m k).chip = s.chipId then dropParked b e.1 k 1 else b) a) s

/-- Reports queued for VHs whose upstream port can no longer take them are dropped (R153). -/
def dropReportsOf (s : State) (p : Nat) : State :=
  let bad (r : Report) : Bool :=
    match mcastRec s r.group with
    | none => false
    | some m => match s.vhRec m.vh with
      | none => false
      | some v => v.upPort == p && v.upChip == s.chipId
  (s.reports.filter bad).foldl (fun a r => dropReport a r.group) { s with reports := s.reports.filter (fun r => !bad r) }

/-! Loss on a fabric link (R265). -/

/-- An error report message on its way to the chip that presents the bridge (R294). -/
def isErrForward (o : Owner) (t : Tlp) : Bool := o == ownerM && t.kind == .msg && t.msgCode == 0x7F

/-- Every TLP queued toward a fabric port is discarded, counted, and reported once for each owner that lost any. Tracked
requests stay open, and their timers, which start with a TLP, run from here (R284). DEDUCED, log entry 87. -/
def fabDiscard (s : State) (p : Nat) : State :=
  let l := descsTo s p
  let owners := (l.map (·.owner)).eraseDups
  let s := l.foldl (fun a d =>
    let b := removeDesc (countFabLoss (missDesc a d 1) d.owner) d
    match d.trk with
    | some i => { b with tracker := b.tracker.map (fun e => if e.id = i ∧ e.start = none then { e with start := some b.clock } else e) }
    | none => b) s
  let s := s.bump (offGlb 0x140) (l.countP (fun d => isErrForward d.owner d.tlp))
  let s := s.bump (offFab 0x54) l.length
  owners.foldl (fun a o =>
    reportPort a p 0x74 (some o) (some (l.countP (fun d => d.owner == o))) ((l.find? (fun d => d.owner == o)).bind (fun d => farDest d.farug))) s

/-! Containment (R300, R301). -/

/-- The Cupel kind of a cause that has one of its own, 0 for the others. -/
def causeKind (c : Nat) : Nat :=
  if c = 1 then 0x80 else if c = 2 then 0x81 else if c = 3 then 0x82 else if c = 5 then 0x84 else if c = 6 then 0x85 else 0

/-- A TLP of owner `o` dropped or discarded by containment or drain of port `p` (R301 step 5). -/
def countCtnDrop (s : State) (p : Nat) (o : Owner) : State :=
  (s.bump (offPrt p 0x9C)).bump (offTnt (0x62004 + 8 * o))

/-- The link of a contained port is directed to Disabled (R301 step 1). -/
def linkToDisabled (s : State) (p cause : Nat) : State :=
  if cause = 1 ∨ cause = 2 ∨ cause = 7 ∨ cause = 8 ∨ (cause = 9 ∧ s.isDown p) then
    (s.modLink p (fun l => { l with ltssm := .disabled })).emit (.linkDisabled p)
  else s

/-- R301 step 1: a TLP in transmission is nullified on a non-flit egress and stomped on a fabric egress; a flit-mode TLP
is completed. No slot stays held. -/
def stopTx (s : State) (p : Nat) : State :=
  let q := s.port p
  let s := s.modSched p (fun c => { c with held := none })
  match q.sched.txing.bind (findDesc s) with
  | none => s
  | some d => if s.isFabric p || !q.link.flit then cutShort s p d true else s

/-- A TLP in transmission when its egress link goes down is lost inside the device (R120). -/
def dropTx (s : State) (p : Nat) : State :=
  let s := s.modSched p (fun q => { q with held := none })
  match (s.port p).sched.txing.bind (findDesc s) with
  | some d => endTrk (removeDesc s d) d true
  | none => s

/-- R301 step 2: TLPs from the port still in staging are discarded. -/
def dropStaging (s : State) (p : Nat) : State :=
  let mine (x : Staged) : Bool := match x.key with | .port q _ => q.val == p | .block _ => false
  (s.staging.filter mine).foldl (fun a x => countCtnDrop a p x.owner)
    { s with staging := s.staging.filter (fun x => !mine x) }

/-- A trigger of cause `cause` on port `p` (R300, R301 steps 1 and 2). -/
def contain (s : State) (p cause : Nat) : State :=
  let s := s.bump (offPrt p 0x98)
  let c := (s.port p).contain
  if c.phase = 1 ∨ c.phase = 2 then s.modContain p (fun x => { x with cause := max x.cause cause })
  else
    let s := s.modContain p (fun _ => { phase := 1, cause := cause })
    let s := dropStaging (stopTx (linkToDisabled s p cause) p) p
    let s := if s.isUp p then dropReportsOf s p else s
    if causeKind cause = 0 then s else reportPort s p (causeKind cause)

/-- R301 step 3 for one descriptor. -/
def dropQueued (s : State) (p : Nat) (d : Desc) : State :=
  let s := countCtnDrop (missDesc s d 1) p d.owner
  let s := removeDesc s d
  if isNonPosted d.tlp.kind then
    match d.trk with
    | some _ => s
    | none => (answerStatus s 12 p d.src d.owner d.tlp (containStatus s p)).bump (offPrt p 0xA0)
  else s

/-- R301 steps 3, 4 and 6. -/
def containFinish (s : State) (p : Nat) : State :=
  let s :=
    if s.isFabric p then fabDiscard s p
    else
      let s := (descsTo s p).foldl (fun a d => dropQueued a p d) s
      let es := s.tracker.filter (fun e => e.egress == p && !e.retired && !e.fabric)
      es.foldl (fun a e => retire (if e.ide then a else a.bump (offPrt p 0xA0)) e (containStatus s p)) s
  let s := dropParkedTo s p
  (s.modContain p (fun x => { x with phase := 2 })).setEvt (offPrt p 0x94) 0

/-- A port receives nothing: a contained one, but for R331. -/
def deaf (s : State) (p : Nat) : Bool :=
  let c := (s.port p).contain
  (c.phase == 1 || c.phase == 2) && !(s.isUp p && s.mode == .safe && c.cause == 9)

/-- The slot that a port serves, none for 0xFF. -/
def slotOfPort (s : State) (p : Nat) : Option Nat :=
  match s.portRec p with
  | some r => if r.slot = 0xFF then none else some r.slot
  | none => none

/-- The port that serves a slot. -/
def findSlotPort : Tbl PortRec → Nat → Option Nat
  | [], _ => none
  | (p, r) :: t, n => if r.slot = n then some p else findSlotPort t n

def portOfSlot (s : State) (n : Nat) : Option Nat := findSlotPort s.cfg.ports n

/-- A port that may train: its slot, if it serves one, was told to have SLOT_PERST_N deasserted (bit 12 of STAT), and Link Disable is
clear. -/
def mayTrain (s : State) (p : Nat) : Bool :=
  !(s.port p).link.disable && (match slotOfPort s p with | some n => !bitN (s.slot n).seen 12 | none => true)

/-- A port begins training from Detect (R83). -/
def beginTraining (s : State) (p : Nat) : State :=
  if (s.port p).link.disable then s.modLink p (fun l => { l with ltssm := .disabled })
  else if mayTrain s p then s.modLink p (fun l => { l with ltssm := .polling })
  else s.modLink p (fun l => { l with ltssm := .detect })

/-- Release of a contained port (R306). -/
def releasePort (s : State) (p : Nat) : State :=
  let l := (s.port p).link
  let s := (s.modContain p (fun _ => {})).setEvt (offPrt p 0x94) 1
  let s := if s.isFabric p ∧ (s.fabLink p).st = 3 then s.modFabLink p (fun x => { x with st := 2 }) else s
  if l.ltssm = .disabled then beginTraining s p else s

/-- Device tags of a port in the retired state. -/
def tagsRetired (s : State) (p : Nat) : Nat := s.tracker.countP (fun e => e.egress == p && e.retired && e.xlated)

/-- A TLP that crosses a quarantined port is refused or dropped: counted, and reported S0 with the owner that it has once it is classified
(R292, R364). -/
def countQblock (s : State) (p : Nat) (o : Option Owner) : State :=
  let s := match slotOfPort s p with
    | some n => (s.bump (offSlp n 0x58)).setEvt (offSlp n 0x04) 9
    | none => s
  reportPort s p 0x99 o

/-! Modes (R58). -/

def setMode (s : State) (m : Mode) (cause : Nat) : State := { s with mode := m, modeCause := cause }

/-- A Crucible channel that has been lost. -/
def chanLost (s : State) (c : Nat) : Bool := (s.chan c).st == 3

/-- DEGRADED_MASK of Table 2.18. -/
def degradedMask (s : State) : Nat :=
  s.unusable.toNat + flag (s.banksOut != 0) 10 + flag (chanLost s 0) 11 + flag (chanLost s 1) 12 + flag s.peerLost 13

/-- Run becomes Degraded on a loss (Table 2.11, MODE_CAUSE RUNTIME_LOSS). -/
def degrade (s : State) : State := if s.mode = .run then setMode s .degraded 4 else s

/-- Degraded becomes Run when its last cause clears (MODE_CAUSE RECOVERED). -/
def recoverMode (s : State) : State := if s.mode = .degraded ∧ degradedMask s = 0 then setMode s .run 8 else s

/-- A station is marked unusable at runtime: its ports are contained with cause STATION (R325). -/
def stationUnusable (s : State) (i : Nat) : State :=
  let s := { s with unusable := s.unusable ||| BitVec.ofNat 10 (2 ^ i) }
  let s := (s.portNums.filter (fun p => stationOf p == i)).foldl (fun a p => contain a p 8) s
  degrade s

end Sys2Proof.Machine
end

