-- ==== Sys2Proof/Machine/Errors.lean ====
section
/-! DEFINITION. Advanced error reporting: which bridge logs an event, and what its log does (R292 to R298, R304). -/

namespace Sys2Proof.Machine

/-! Bits of the AER status registers (the Base Specification's). -/

def aerDlp : Nat := 4
def aerSurprise : Nat := 5
def aerFcp : Nat := 13
def aerTimeout : Nat := 14
def aerCa : Nat := 15
def aerOverflow : Nat := 17
def aerMalformed : Nat := 18
def aerUr : Nat := 20
def aerAcs : Nat := 21
def aerUie : Nat := 22
def aerMcBlocked : Nat := 23
def aerAtomic : Nat := 24
def aerPrefix : Nat := 25
def aerReceiver : Nat := 0
def aerBadTlp : Nat := 6
def aerBadDllp : Nat := 7
def aerRollover : Nat := 8
def aerReplayTo : Nat := 12
def aerCie : Nat := 14
def aerHdrOvf : Nat := 15

/-- The Vendor_Defined Type 1 message code, which carries an error report to another chip (R294). -/
def errForwardCode : Byte := 0x7F

/-- Where the state holds a bridge: a port of this chip by its number, a port of another chip above those. -/
def bridgeKey (s : State) (x : PortChip) : Nat := if x.chip = s.chipId then x.port else 128 * (x.chip + 1) + x.port

/-- The port of a bridge key. -/
def keyPort (s : State) (k : Nat) : PortChip := if k < 128 then { port := k, chip := s.chipId } else { port := k % 128, chip := k / 128 - 1 }

/-- The VH record that presents a bridge. -/
def vhOfBridge (s : State) (x : PortChip) : Option VhRec :=
  (s.cfg.vhs.find? (fun e => (e.2.upPort == x.port && e.2.upChip == x.chip) || e.2.ds.contains x)).map (·.2)

/-- The number of that VH. -/
def vhNumOf (s : State) (x : PortChip) : Option Nat :=
  (s.cfg.vhs.find? (fun e => (e.2.upPort == x.port && e.2.upChip == x.chip) || e.2.ds.contains x)).map (·.1)

/-- The bridge of a link error of port `p` (Table 10.1). -/
def linkBridge (s : State) (p : Nat) : Option PortChip :=
  if s.isUp p then some { port := p, chip := s.chipId }
  else match s.portRec p with
    | some r => if r.role = 1 ∧ r.vh ≠ 0xFF then some { port := p, chip := s.chipId } else none
    | none => none

/-- The bridge of a flow error of owner `o` at port `p`, with the TLP's destination where it has one (Table 10.1). -/
def flowBridge (s : State) (o : Option Owner) (p : Nat) (d : Option PortChip) : Option PortChip :=
  match o.bind (s.tenantRec ·) with
  | none => none
  | some r =>
    match s.vhRec r.vh with
    | none => none
    | some v =>
      if p < 80 ∧ !s.isFabric p ∧ vhHolds s p v then some { port := p, chip := s.chipId }
      else match d with
        | some x => if v.ds.contains x then some x else some { port := v.upPort, chip := v.upChip }
        | none => some { port := v.upPort, chip := v.upChip }

/-- An error message of a bridge leaves through its VH's upstream port, owned by M (R295). -/
def sendErrMsg (s : State) (x : PortChip) (code : Byte) : State :=
  match vhOfBridge s x with
  | none => s
  | some v =>
    present s (stationOf v.upPort) { chip := s.chipId, port := v.upPort } ownerM
      (if v.upChip = s.chipId then .port v.upPort else .remote v.upChip v.upPort)
      { kind := .msg, msgCode := code, route := .toRoot }

/-- The bit of a log word. -/
def w32Bit (w : W32) (i : Nat) : Bool := bitN w.toNat i

/-- A logged header: words 0 to 3 and the first prefix, 0 where there is none (R297). -/
def logHeader (t : Tlp) : List Nat :=
  hdrWords t ++ [match t.pasid, t.prefixes with
    | some p, _ => leNat (pasidPrefix p).reverse
    | none, w :: _ => w.toNat
    | none, [] => 0]

/-- A correctable error is logged in bridge `x`: status, and ERR_COR where unmasked and enabled. -/
def logCorrectable (s : State) (x : PortChip) (bit : Nat) : State :=
  let b := s.bridge (bridgeKey s x)
  let s := s.setBridge (bridgeKey s x) { b with corStatus := setBit32 b.corStatus bit }
  if !w32Bit b.corMask bit && b.errEnables.getLsbD 0 then sendErrMsg s x 0x30 else s

/-- The port is contained already, so that DPC Trigger Status reads 1 and its reason stands. -/
def dpcHeld (s : State) (p : Nat) : Bool := (s.port p).contain.phase == 1 || (s.port p).contain.phase == 2

/-- A DPC trigger of port `p` for cause `cause`; the reason is that of the trigger that contains the port (R304). -/
def dpcContain (s : State) (p cause : Nat) (reason : BitVec 2) : State :=
  contain (if dpcHeld s p then s else s.modBridge p (fun y => { y with dpcReason := reason })) p cause

/-- The DPC trigger of an uncorrectable error at a downstream port of this chip (Table 10.4, R304). -/
def dpcTrigger (s : State) (x : PortChip) (bit : Nat) : State :=
  let b := s.bridge (bridgeKey s x)
  if w32Bit b.uncMask bit then s
  else if x.chip = s.chipId && s.isDown x.port && (b.dpcEnable == 2 || (b.dpcEnable == 1 && w32Bit b.uncSev bit)) then
    dpcContain s x.port 1 0
  else s

/-- A header is to be logged: it takes the next of four places, or sets Header Log Overflow and is lost (R297). -/
def logHdr (s : State) (x : PortChip) (bit : Nat) (hdr : Option (List Nat)) : State :=
  match hdr with
  | none => s
  | some h =>
    let k := bridgeKey s x
    if (s.bridge k).hdrLog.length < 4 then
      s.modBridge k (fun y => { y with hdrLog := y.hdrLog ++ [(bit, h)] })
    else logCorrectable s x aerHdrOvf

/-- First Error Pointer after an unmasked error of bit `bit`: it stays while it names a recorded error. PRESUMED, log entry 101. -/
def nextFirst (b : Bridge) (bit : Nat) : Nat := if b.hdrLog = [] ∧ !w32Bit b.uncStatus b.firstErr then bit else b.firstErr

/-- An uncorrectable error is logged: status; unless masked also First Error Pointer, the header, and the message, where SERR# Enable or the
reporting enables of Device Control allow it; an Unsupported Request needs its own enable beside its class's (R295; the Base Specification's
combination, PRESUMED, log entry 101). -/
def logUncorrectable (s : State) (x : PortChip) (bit : Nat) (hdr : Option (List Nat)) : State :=
  let k := bridgeKey s x
  let b := s.bridge k
  let on := !w32Bit b.uncMask bit
  let s := s.setBridge k { b with uncStatus := setBit32 b.uncStatus bit, firstErr := if on then nextFirst b bit else b.firstErr }
  if !on then s
  else
    let s := logHdr s x bit hdr
    let fatal := w32Bit b.uncSev bit
    let on := b.cmdSerr || (b.errEnables.getLsbD (if fatal then 2 else 1) && (bit != aerUr || b.errEnables.getLsbD 3))
    if on then sendErrMsg s x (if fatal then 0x33 else 0x31) else s

/-- KEX_LAST of Table 10.3 for an internal error of level `level`. -/
def noteKex (s : State) (x : PortChip) (level kind : Nat) (o : Nat) : State :=
  s.modBridge (bridgeKey s x) (fun b => { b with
    kexLast := w32 (fld kind 24 8 + fld o 16 8 + fld (if level = 1 then 1 else 2) 13 3 + 1) })

/-- An event is logged in a bridge that this chip presents. -/
def logHere (s : State) (x : PortChip) (unc flow : Bool) (bit kind : Nat) (o : Nat) (hdr : Option (List Nat)) : State :=
  let s := if flow then s.modBridge (bridgeKey s x) (fun b => { b with kexFlow := w32 (sat32 b.kexFlow.toNat 1) }) else s
  let s := if bit = aerUie ∨ (bit = aerCie ∧ !unc) then noteKex s x (if unc then 2 else 1) kind o else s
  if unc then logUncorrectable s x bit hdr else logCorrectable s x bit

/-- What a report message carries (R294): the AER bit, the bridge, the owner, the kind, the class, and the header. -/
def forwardBytes (x : PortChip) (unc flow : Bool) (bit kind : Nat) (o : Nat) (hdr : Option (List Nat)) : List Byte :=
  leBytes 8 (bit + 2 ^ 8 * (x.port + 2 ^ 8 * (x.chip + 2 ^ 8 * (o + 2 ^ 16 * (kind + 2 ^ 8 * (flag unc 0 + flag flow 1))))))
    ++ (match hdr with | some h => (h.map (leBytes 4)).flatten | none => [])

/-- An error is logged at bridge `x`: here, or by a report message to the chip that presents it, which carries the device's vendor ID (R294). -/
def logAt (s : State) (x : PortChip) (unc flow : Bool) (bit kind : Nat) (o : Nat) (t : Option Tlp) : State :=
  let up := match vhOfBridge s x with | some v => v.upChip | none => s.chipId
  let s :=
    if up = s.chipId then logHere s x unc flow bit kind o (t.map logHeader)
    else present s 11 { chip := s.chipId, port := 0x7F } ownerM (.remote up 0x7F)
      { kind := .msg, msgCode := errForwardCode, route := .byId, addr := w64 (Config.vendorId.toNat * 2 ^ 32), data := forwardBytes x unc flow bit kind o (t.map logHeader) }
  if unc then dpcTrigger s x bit else s

/-- A link error of port `p` (Table 10.2): logged at its bridge, with the header of a malformed TLP, and sent to Cupel without an
owner. -/
def linkError (s : State) (p : Nat) (unc : Bool) (bit : Nat) (hdr : Option Tlp := none) : State :=
  let kind := if unc then 0x21 else 0x20
  let s := match linkBridge s p with
    | none => s
    | some b => logAt s b unc false bit kind 0x1FF hdr
  reportPort s p kind none none

/-- A flow error that has its own row of Table 10.2: logged at its bridge, and sent to Cupel as `kind`. -/
def flowError (s : State) (src kind bit : Nat) (o : Owner) (p : Nat) (d : Option PortChip) (hdr : Option Tlp)
    (detail : Option Nat := none) (inst : Nat := 0) : State :=
  let s := match flowBridge s (some o) p d with
    | none => s
    | some x => logAt s x true true bit kind o hdr
  report s src inst kind (some o) p detail

/-- A Corrected or Uncorrectable Internal Error behind a Cupel message (Table 10.2, R299), of a TLP for `d`. -/
def internalError (s : State) (level kind : Nat) (o : Owner) (p : Nat) (d : Option PortChip) : State :=
  match flowBridge s (some o) p d with
  | none => s
  | some x => if level = 1 then logAt s x false true aerCie kind o none else logAt s x true true aerUie kind o none

/-- The words of a report message's header, none where it carries none. -/
def forwardedHdr (l : List Byte) : Option (List Nat) :=
  if l.length < 28 then none else some ((List.range 5).map (fun i => leAt l (8 + 4 * i) 4))

/-- An error report message arrives from another chip (R294): logged as if detected here, with the DPC trigger that this makes (R304). -/
def remoteReport (s : State) (t : Tlp) : State :=
  let n := leAt t.data 0 8
  let x : PortChip := { port := bitsN n 8 8, chip := bitsN n 16 8 }
  let s := logHere s x (bitN n 48) (bitN n 49) (bitsN n 0 8) (bitsN n 40 8) (bitsN n 24 16) (forwardedHdr t.data)
  if bitN n 48 then dpcTrigger s x (bitsN n 0 8) else s

end Sys2Proof.Machine
end

