-- ==== Sys2Proof/Machine/Gates.lean ====
section
/-! DEFINITION. Regions and access gates: the check of R216 and what a rejection does (R200, R212 to R219). -/

namespace Sys2Proof.Machine

def maxRegion (a : Option (Nat × RegionRec)) (n : Nat) (r : RegionRec) : Option (Nat × RegionRec) :=
  match a with
  | none => some (n, r)
  | some (m, q) => if m < n then some (n, r) else some (m, q)

/-- A region covers a byte. -/
def covers (r : RegionRec) (a : Nat) : Bool := r.base ≤ a && a < r.base + 2 ^ r.sizeLog2

/-- The number (R214) and record of the region that decides byte `a` for tenant `t` at gate `g`. -/
def regionAt (s : State) (g t a : Nat) : Option (Nat × RegionRec) :=
  s.cfg.regions.foldl (fun best e =>
    let r := e.2
    if r.gate = g ∧ covers r a then
      if r.shared then (if t < 256 ∧ r.tenants.getLsbD t then maxRegion best r.slot r else best)
      else if r.tenant = t then maxRegion best (32 + r.slot) r else best
    else best) none

/-- The subregion of a byte is disabled. -/
def subDisabled (r : RegionRec) (a : Nat) : Bool := r.subdis.getLsbD ((a - r.base) * 8 / 2 ^ r.sizeLog2)

/-- Read, write, execute in bits 0, 1, 2. -/
abbrev Perms := BitVec 3

def permsOf (r : RegionRec) (priv : Bool) : Perms := if priv then r.perm.extractLsb' 3 3 else r.perm.extractLsb' 0 3

def defaultMap (s : State) (g : Nat) : Perms :=
  let d := (tget {} s.cfg.gates g).default_
  if d = 1 then 1 else if d = 2 then 3 else if d = 3 then 7 else 0

/-- What an access needs (R215). R215 names memory accesses only: an I/O request needs what the memory request of its direction needs, and a
message routed by address needs read. DESIGN CHOICE, log entry 86. -/
def needOf (k : TlpKind) (exe : Bool) : Perms :=
  match k with
  | .mwr | .dmwr | .iowr => 2
  | .atomic => 3
  | _ => if exe then 4 else 1

/-- The lot that holds a channel address, and its owner. -/
def lotIndex (c a : Nat) : Nat := 4096 * c + a / 2 ^ 26
def lotOwner (s : State) (c a : Nat) : Nat := (s.lot (lotIndex c a)).owner

/-- The outcome of a check. `matched` says that some chunk matched a region. -/
inductive GateResult where
  | pass
  | reject (matched : Bool) (cause firstBad region : Nat)
  deriving DecidableEq, Repr

/-- One chunk, judged at its first byte: none where it grants the need, else the cause and the deciding region. -/
def judge (s : State) (g t : Nat) (priv : Bool) (need : Perms) (a : Nat) : Bool × Option (Nat × Nat) :=
  match regionAt s g t a with
  | none =>
    let grant : Perms := if priv then defaultMap s g else 0
    (false, if need &&& grant = need then none else some (3, 0xFF))
  | some (n, r) =>
    let lotBad := decide (g ≤ 1) && !r.shared && lotOwner s g a != t
    (true,
      if lotBad then some (4, n)
      else if subDisabled r a then some (2, n)
      else if need &&& permsOf r priv = need then none else some (1, n))

/-- The chunks from byte `a` to `e`, with what the earlier ones found. -/
def judgeFrom (s : State) (g t : Nat) (priv : Bool) (need : Perms) (e : Nat) :
    Nat → Nat → Bool → Option (Nat × Nat × Nat) → Bool × Option (Nat × Nat × Nat)
  | 0, _, m, b => (m, b)
  | k + 1, a, m, b =>
    if e ≤ a then (m, b)
    else
      let (m1, r) := judge s g t priv need a
      let b := match b, r with | none, some (c, n) => some (c, a, n) | x, _ => x
      judgeFrom s g t priv need e k ((a / 512 + 1) * 512) (m || m1) b

/-- The gate check of R216 for an access of `n` bytes at `a` of tenant `t`. -/
def gateCheck (s : State) (g t : Nat) (priv : Bool) (need : Perms) (a n : Nat) : GateResult :=
  match judgeFrom s g t priv need (a + n) (n / 512 + 2) a false none with
  | (_, none) => .pass
  | (false, some (_, bad, n)) => .reject false 0 bad n
  | (true, some (c, bad, n)) => .reject true c bad n

/-- Privilege of a request (R200). -/
def isPriv (t : Tlp) (trusted : Bool) : Bool := match t.pasid with | some p => p.priv | none => trusted
def isExe (t : Tlp) : Bool := match t.pasid with | some p => p.exe | none => false

/-- LOG_LIMIT in force at a gate (R220). -/
def logLimit (s : State) (g : Nat) : Nat := (tget {} s.cfg.gates g).logLimit

/-- The words of a fault log entry (Table 7.16). -/
def faultEntry (time start bad rid tenant gate kind cause region : Nat) : List Nat :=
  [time % 2 ^ 32, time / 2 ^ 32, start % 2 ^ 32, start / 2 ^ 32, bad % 2 ^ 32, bad / 2 ^ 32,
   fld rid 0 16 + fld tenant 16 16, fld gate 0 8 + fld kind 8 8 + fld cause 16 8 + fld region 24 8]

/-- An entry joins the fault log, and is the owner's last (R217, R223). `t` is where the owner's counters stand. -/
def writeFault (s : State) (t : Nat) (e : List Nat) : State :=
  let i := (s.reg (offGat 0x20800)).toNat
  let s := s.setRegs (offGat (0x20000 + 32 * i)) e
  let s := s.setReg (offGat 0x20800) (w32 ((i + 1) % 64))
  s.setRegs (offTnt (0x70000 + 32 * t)) e

/-- What is rejected, for its log entry. -/
structure Denied where
  gate     : Nat
  tenant   : Nat            -- as logged: 0..255, 0x100, 0x1FF
  kind     : TlpKind
  priv     : Bool := false
  exe      : Bool := false
  mcast    : Bool := false
  vfBar    : Bool := false
  rid      : W16 := 0
  start    : Nat
  deriving DecidableEq, Repr

def deniedKind (x : Denied) : Nat :=
  (match x.kind with | .mwr | .dmwr | .iowr => 1 | .atomic => 2 | _ => 0) + flag x.priv 2 + flag x.exe 3 + flag x.mcast 4 + flag x.vfBar 5

/-- Rejections of a gate and owner that are logged already in the millisecond of a check at `time` (Table 7.7). -/
def loggedIn (s : State) (key time : Nat) : Nat :=
  let c := tget {} s.gateMs key
  if c.ms = time / 1000000 then c.n else 0

/-- A rejection by block `src` is counted, logged within LOG_LIMIT, and then reported by `rep` (R217, Table 7.7). -/
def rejectAt (s : State) (src : Nat) (x : Denied) (cause bad region : Nat) (rep : State → State) : State :=
  let time := replicaOf s src
  let c := if x.tenant < 256 then x.tenant else 256
  let s := s.bump (offTnt ((if x.kind = .mwr ∨ x.kind = .dmwr ∨ x.kind = .iowr then 0x60004 else 0x60000) + 16 * c))
  let s := if x.gate < 256 ∧ !x.vfBar then s.bump (offGat (16 * x.gate + 4)) else s
  let key := 512 * x.gate + c
  let n := loggedIn s key time
  if logLimit s x.gate ≤ n then s.bump (offGat (16 * x.gate + 8))
  else
    rep (writeFault { s with gateMs := tset {} s.gateMs key { src := src, ms := time / 1000000, n := n + 1 } } c
      (faultEntry time x.start bad x.rid.toNat x.tenant x.gate (deniedKind x) cause region))

/-- The rejection of tenant `t`'s access `x` at port `p` by block `src`: UR where nothing matched, CA otherwise (Table 7.6,
Table 10.2). -/
def gateReject (s : State) (src p t : Nat) (d : Option PortChip) (hdr : Option Tlp) (x : Denied) (matched : Bool)
    (cause bad region : Nat) : State :=
  rejectAt s src x cause bad region
    (fun a => flowError a src 0x48 (if matched then aerCa else aerUr) t p d hdr none x.gate)

/-- The gate number of a P2P window set. -/
def gateP2P (p : Nat) : Nat := 16 + p

/-- The operand width of an atomic, in bytes. -/
def atomicWidth (q : Tlp) : Nat := if q.atomicOp = .cas then q.data.length / 2 else q.data.length

/-- The bytes that a memory request touches. -/
def accessLen (q : Tlp) : Nat := match q.kind with | .mrd => q.len | .atomic => atomicWidth q | _ => q.data.length

/-- The bytes of an access that a P2P window gate judges; a message without data is judged at its address. -/
def gateBytes (t : Tlp) : Nat :=
  match t.kind with
  | .mrd | .atomic => accessLen t
  | .iord => 4
  | _ => max 1 t.data.length

/-- The P2P window gate of port `p` for a request of tenant `t` (R114). A request that names no address is covered by no region. -/
def p2pCheck (s : State) (p t : Nat) (trusted : Bool) (q : Tlp) : GateResult :=
  if q.kind = .msg ∧ q.route ≠ .byAddr then .reject false 0 0 0xFF
  else gateCheck s (gateP2P p) t (isPriv q trusted) (needOf q.kind (isExe q)) q.addr.toNat (gateBytes q)

end Sys2Proof.Machine
end

