-- ==== Sys2Proof/Machine/PoolErr.lean ====
section
/-! DEFINITION. Windows, VF events and memory errors of the Crucible pool (R228, R229, R239, R247). -/

namespace Sys2Proof.Machine

/-! Registers of a channel. -/

def offChan (c x : Nat) : Nat := offCru (0x100 * c + x)

/-- Where a byte of a channel stands in the pool memory. -/
def poolAddr (c a : Nat) : Nat := 2 ^ 38 * c + a

def poolChan (x : Nat) : Nat := x / 2 ^ 38

/-! Windows (R229). -/

def poolRec (s : State) : PoolRec := s.cfg.pool.getD { chMask := 0 }

/-- The shared region, if any, at gate c that covers a lot, and whose bitmap names tenant `t`. -/
def sharedFor (s : State) (t l : Nat) : Bool :=
  s.cfg.regions.any (fun e => e.2.shared && e.2.gate == l / 4096 && covers e.2 (l % 4096 * 2 ^ 26)
    && decide (t < 256) && e.2.tenants.getLsbD t)

/-- A run maps slot `k` of tenant `t`'s window: as its owner's own run, or as a shared run. -/
def runLot (s : State) (t k : Nat) (r : Run) : Option Nat :=
  if r.firstSlot ≤ k ∧ k < r.firstSlot + r.count then
    let l := r.firstLot + (k - r.firstSlot)
    if r.tenant = t ∨ sharedFor s t l then some l else none
  else none

/-- window[t][slot]. -/
def windowLot (s : State) (t k : Nat) : Option Nat := (poolRec s).runs.findSome? (fun r => runLot s t k r)

/-- The lots that a run assigns. -/
def runLots (r : Run) : List Nat := (List.range r.count).map (fun i => r.firstLot + i)

/-- Tenants in whose windows a lot is mapped. -/
def lotViewers (s : State) (l : Nat) : List Nat :=
  ((poolRec s).runs.filter (fun r => decide (r.firstLot ≤ l) && decide (l < r.firstLot + r.count))).flatMap (fun r =>
    (s.cfg.tenants.map (·.1)).filter (fun t => r.tenant == t || sharedFor s t l))

/-- A lot's state as it reads: ABSENT on a channel that is not UP (Table 8.2). -/
def lotState (s : State) (l : Nat) : Nat := if (s.chan (l / 4096)).st = 2 then (s.lot l).st else 0

/-! VF events and interrupts (R239, R245). -/

/-- A VF's engine and interrupts are halted: Bus Master Enable clear, an eviction, or Safe (R203, R245, R332). -/
def vfHalted (s : State) (t : Nat) : Bool := !(s.vf t).bme || (tfind s.evict t).isSome || s.mode == .safe

/-- A word of a VF's MSI-X table; each vector's Mask bit resets to 1 as in the Base Specification. -/
def msixWord (v : Vf) (i : Nat) : W32 := tget 0 v.msix i ^^^ (if i % 4 = 3 then 1 else 0)

def msixMasked (v : Vf) (k : Nat) : Bool := w32Bit (msixWord v (4 * k + 3)) 0

/-- The message of vector `k` of tenant `t`'s VF leaves from crossbar port 10, traffic of `t`. -/
def vfMessage (s : State) (t k : Nat) : State :=
  match s.tenantRec t with
  | none => s
  | some r =>
    let w (i : Nat) : W32 := msixWord (s.vf t) (4 * k + i)
    sendMsix s 10 0x7E t r.vh (vfRid s t) (w 0) (w 1) (w 2)

/-- A VF sends vector `k`, or sets its pending bit (R245). -/
def sendVf (s : State) (t k : Nat) : State :=
  if vfHalted s t || msixMasked (s.vf t) k then s.modVf t (fun v => { v with pba := v.pba ||| BitVec.ofNat 4 (2 ^ k) })
  else vfMessage s t k

/-- Pending vectors that may be sent now are sent. -/
def flushMsix (s : State) (t : Nat) : State :=
  (List.range 4).foldl (fun a k =>
    if (a.vf t).pba.getLsbD k && !vfHalted a t && !msixMasked (a.vf t) k then
      vfMessage (a.modVf t (fun v => { v with pba := v.pba &&& ~~~ BitVec.ofNat 4 (2 ^ k) })) t k
    else a) s

/-- VF_EVT bit `b` is set, with a vector 2 message unless VF_EVTMSK masks it. -/
def raiseVf (s : State) (t b : Nat) : State :=
  let s := s.modVf t (fun v => { v with evt := v.evt ||| BitVec.ofNat 6 (2 ^ b) })
  if (s.vf t).evtMask.getLsbD b then s else sendVf s t 2

/-! Memory errors (R247, R249). -/

/-- One more uncorrectable error within the present second of a channel. -/
def countSecond (s : State) (c : Nat) : State :=
  s.modChan c (fun x =>
    if s.clock < x.ueSince + 1000000000 ∧ x.ueSecond ≠ 0 then { x with ueSecond := x.ueSecond + 1 }
    else { x with ueSecond := 1, ueSince := s.clock })

/-- An uncorrectable error in a line, of a lot of tenant `o` or of a free or spill lot. -/
def countUe (s : State) (c line : Nat) (o : Option Nat) : State :=
  let s := (s.bump (offChan c 0x0C)).setReg (offChan c 0x14) (w32 line)
  let s := countSecond (s.setEvt (offChan c 0x04) 2) c
  let s := match o with
    | some t => raiseVf (s.modVf t (fun v => { v with ueCnt := w32 (sat32 v.ueCnt.toNat 1) })) t 3
    | none => s
  report s 0x0B c 0x61 o

/-- A correctable error: counted, and the corrected line written back. -/
def countCe (s : State) (c : Nat) : State := report ((s.bump (offChan c 0x08)).setEvt (offChan c 0x04) 1) 0x0B c 0x60

/-- The owner of a lot, for a report. -/
def ownerOpt (s : State) (l : Nat) : Option Nat := let o := (s.lot l).owner; if o < 256 then some o else none

/-- A line is found uncorrectable: it is poisoned and counted. -/
def poisonLine (s : State) (c line : Nat) : State :=
  let k := poolAddr c (64 * line)
  let s := if s.poison.contains k then s else { s with poison := s.poison ++ [k] }
  countUe s c line (ownerOpt s (4096 * c + line / 2 ^ 20))

def meetError (s : State) (c : Nat) (e : LineError) : State :=
  match e with | .correctable _ => countCe s c | .uncorrectable n => poisonLine s c n

/-- Work is queued to a channel: it leaves self-refresh (R227). -/
def touchChan (s : State) (c : Nat) : State := s.modChan c (fun x => { x with lastUse := s.clock, selfRef := false })

end Sys2Proof.Machine
end

