-- ==== Sys2Proof/Machine/Mcast.lean ====
section
/-! DEFINITION. Multicast replication, parking, delivery reports and Sprue taps (R143 to R162). -/

namespace Sys2Proof.Machine

/-! Taps (R159 to R161). -/

/-- The bit of TYPE_MASK that a TLP kind answers to (Table 5.16). -/
def typeBit (k : TlpKind) : Nat :=
  match k with | .mwr => 0 | .mrd => 1 | .cpl => 2 | .msg => 3 | .atomic => 4 | _ => 5

def tapMatches (r : SampleRec) (p : Nat) (egress : Bool) (o : Owner) (t : Tlp) : Bool :=
  r.port == p && r.egress == egress && r.typeMask.getLsbD (typeBit t.kind) && r.tcMask.getLsbD t.tc.toNat
    && (!r.tenantFilter || r.tenant == o)

/-- Every tap counts the TLPs that match it and samples each 2^RATE_K-th (R159). -/
def sampleTaps (s : State) (p : Nat) (egress : Bool) (o : Owner) (t : Tlp) : State :=
  s.cfg.samples.foldl (fun a e =>
    if tapMatches e.2 p egress o t then
      let n := tget 0 a.tapCount e.1 + 1
      let a := { a with tapCount := tset 0 a.tapCount e.1 n }
      if n % 2 ^ e.2.rateK = 0 then
        { a with samples := a.samples ++ [{ tap := e.1, time := w64 (replicaOf a (stationOf p)), port := p, egress := egress,
                                            owner := o, tlp := t }] }
      else a
    else a) s

/-- The 128 bytes of a sample entry (Table 5.15), with `pay` payload bytes. -/
def sampleEntry (x : Sample) (seq pay : Nat) : List Byte :=
  let pre := (match x.tlp.pasid with | some p => pasidPrefix p | none => [])
    ++ (x.tlp.prefixes.map (fun w => (leBytes 4 w.toNat).reverse)).flatten
  let pad (l : List Byte) (n : Nat) : List Byte := (l ++ List.replicate n 0).take n
  leBytes 8 x.time.toNat ++ leBytes 4 seq ++ leBytes 1 x.tap
    ++ leBytes 1 (flag x.egress 0 + flag (decide (0 < min pay x.tlp.data.length)) 1
        + flag (decide (0 < pay) && decide (pay < x.tlp.data.length)) 2 + flag (!pre.isEmpty) 3)
    ++ leBytes 1 x.port ++ [0] ++ leBytes 2 x.owner ++ leBytes 2 (tlpBytes x.tlp) ++ List.replicate 12 0
    ++ pad pre 16 ++ pad (hdrBytesOf x.tlp) 16 ++ pad (x.tlp.data.take pay) 64

/-- A posted write that crossbar port 11 forms, owned by M, toward a VH's upstream port (R153, R160). -/
def writerWrite (s : State) (v : Nat) (addr : Nat) (data : List Byte) : State :=
  match s.vhRec v with
  | none => s
  | some r =>
    present s 11 { chip := s.chipId, port := 0x7F } ownerM
      (if r.upChip = s.chipId then .port r.upPort else .remote r.upChip r.upPort)
      { kind := .mwr, rid := Config.writerRid v, addr := w64 addr, hdr4 := decide (2 ^ 32 ≤ addr), len := data.length, data := data }

/-- Four-byte words of a byte list. -/
def wordsOf : Nat → List Byte → List Nat
  | 0, _ => []
  | n + 1, l => leNat (l.take 4) :: wordsOf n (l.drop 4)

/-- A sample is written to the housekeeping ring and, where R160 allows it, to the tenant ring. -/
def writeSample (s : State) (x : Sample) : State :=
  let i := x.tap
  let seq := (s.reg (offMcgA (0x20008 + 16 * i))).toNat
  let idx := (s.reg (offMcgA 0x20400)).toNat
  let s := s.setRegs (offMcgA (0x30000 + 128 * idx)) (wordsOf 32 (sampleEntry x seq 0))
  let s := s.setReg (offMcgA 0x20400) (w32 ((idx + 1) % 256))
  let s := s.setReg (offMcgA (0x20008 + 16 * i)) (w32 (seq + 1))
  let s := s.bump (offMcgA (0x20000 + 16 * i))
  match tfind s.cfg.samples i with
  | none => s
  | some r =>
    if r.payloadEn && r.tenantFilter && r.tenant == x.owner then
      let k := tget 0 s.tapRing i
      let s := writerWrite s r.ringVh (r.ringAddr + 128 * k) (sampleEntry x seq r.payloadBytes)
      { s with tapRing := tset 0 s.tapRing i ((k + 1) % 2 ^ r.ringLog2) }
    else s

/-- SAMPLE_WRITE (R160, R161): the writer takes the oldest sample, or drops it where its queue is full. -/
def execSampleWrite (writerFull : Bool) (s : State) : Host.Outcome State Fault Refusal :=
  .next (match s.samples with
    | [] => s
    | x :: r =>
      let s := { s with samples := r }
      if writerFull then s.bump (offMcgA (0x20004 + 16 * x.tap)) else writeSample s x)

/-- The 32 bytes of a delivery report (Table 5.7). -/
def reportEntry (r : Report) : List Byte :=
  leBytes 4 r.seq ++ leBytes 2 r.group ++ leBytes 1 r.cause ++ [0] ++ leBytes 8 r.missed.toNat ++ leBytes 8 r.time.toNat
    ++ List.replicate 8 0

/-- The oldest queued report is written to its group's ring (R153). -/
def writeReport (s : State) (r : Report) : State :=
  match mcastRec s r.group with
  | none => s
  | some m =>
    let q := tget {} (s.vh m.vh).rings m.vhIndex
    let s := writerWrite s m.vh (q.addr.toNat + 32 * q.next) (reportEntry r)
    s.modVh m.vh (fun v => { v with rings := tset {} v.rings m.vhIndex { q with next := (q.next + 1) % 2 ^ q.log2 } })

def execDeliveryReportWrite (s : State) : Host.Outcome State Fault Refusal :=
  .next (match s.reports with
    | [] => s
    | r :: t => writeReport { s with reports := t } r)

/-! Groups (R143 to R148). -/

def isMember (s : State) (g k : Nat) : Bool := (s.group g).members.getLsbD k

/-- The route of a copy toward another chip. -/
def copyRoute (s : State) (src : Src) (o : Owner) (tc : Nat) (trusted e : Bool) (d : PortChip) : Route :=
  fabRoute s (stampFarug src o tc trusted e d.chip d.port)

/-- The egress of a copy, where it has one. -/
def copyEgress (s : State) (src : Src) (o : Owner) (tc : Nat) (trusted e : Bool) (d : PortChip) : Option Nat :=
  if d.chip = s.chipId then some d.port
  else match copyRoute s src o tc trusted e d with | .send p => some p | .hold p => some p | .none => none

/-- MC_Block_All of a destination's bridge, held here for a port of another chip too (R144). -/
def mcBlocked (s : State) (m : McastRec) (d : PortChip) : Bool :=
  decide (m.vhIndex < 64) && (s.bridge (bridgeKey s d)).blockAll.getLsbD m.vhIndex

/-- The causes for which destination `k` is not live (R147, Table 5.6): 1 contained, down or unreachable, 16 blocked. -/
def deadCause (s : State) (x : Staged) (m : McastRec) (k : Nat) : Nat :=
  let d := destAt m k
  let up := if d.chip = s.chipId then portOpen s d.port else (copyEgress s x.src x.owner x.tlp.tc.toNat x.trusted x.epoch d).isSome
  (if up then 0 else 1) + (if mcBlocked s m d then 16 else 0)

/-- A copy toward destination `k` passes the P2P window gate (R146). -/
def copyGate (s : State) (x : Staged) (m : McastRec) (k : Nat) : GateResult :=
  let d := destAt m k
  if d.chip = s.chipId ∧ s.isDown d.port ∧ x.owner ≠ ownerM then
    gateCheck s (gateP2P d.port) x.owner (isPriv x.tlp x.trusted) 2 x.tlp.addr.toNat x.tlp.data.length
  else .pass

/-- The members that a write is concerned with: all but its own ingress port. -/
def mcTargets (s : State) (x : Staged) (m : McastRec) (members : W64) : List Nat :=
  (List.range m.dests.length).filter (fun k =>
    members.getLsbD k && !((destAt m k).chip == s.chipId && (destAt m k).port == x.src.port && x.src.chip == s.chipId))

def pendingOf (s : State) (g k : Nat) : Nat := tget 0 (s.group g).pending k

def hasCredit (s : State) (g : Nat) (m : McastRec) (k n : Nat) : Bool := decide (pendingOf s g k + n ≤ m.destCells)

def parkedTo (s : State) (g k : Nat) : List Parked := (s.group g).parked.filter (fun x => x.dest == k)

def parkCells (s : State) (g k : Nat) : Nat := ((parkedTo s g k).map (·.cells)).sum

/-- The spill area can be reached (R152, R250). -/
def spillUp (s : State) : Bool :=
  match s.cfg.pool with
  | some r => decide (r.spillChannel < 2) && (s.chan r.spillChannel).st == 2
  | none => false

/-- What the replication has found so far: the copies' entry, the missed set and the causes. -/
structure McRun where
  st     : State
  missed : Nat := 0
  cause  : Nat := 0
  copies : Nat := 0

def McRun.miss (r : McRun) (k c : Nat) : McRun := { r with missed := r.missed ||| 2 ^ k, cause := r.cause ||| c }

/-- queue_copy(g, d, w): a descriptor that shares the entry `e` (R146). -/
def queueCopy (r : McRun) (x : Staged) (g : Nat) (m : McastRec) (k e n : Nat) : McRun :=
  let s := r.st
  let d := destAt m k
  match copyEgress s x.src x.owner x.tlp.tc.toNat x.trusted x.epoch d with
  | none => r.miss k 1
  | some p =>
    let s := s.modGroup g (fun y => { y with pending := tset 0 y.pending k (tget 0 y.pending k + n) })
    let s := enqueue { s with nextId := s.nextId + 1 }
      { id := s.nextId, tlp := x.tlp, src := x.src, owner := x.owner, cls := x.cls, egress := p, origin := x.id, ingress := x.ingress,
        bytes := tlpBytes x.tlp, cells := n, isOpen := x.isOpen, mc := some (g, k, e), enq := replicaOf s (stationOf p),
        farug := if d.chip = s.chipId then none
          else some (stampFarug x.src x.owner x.tlp.tc.toNat x.trusted x.epoch d.chip d.port) }
    { r with st := s, copies := r.copies + 1 }

/-- The spill area is written or read: its channel leaves self-refresh (R227, R250). -/
def touchSpill (s : State) : State := match s.cfg.pool with | some r => touchChan s r.spillChannel | none => s

/-- park_copy(g, d, w) (R149): the copy is written to the spill area and holds its domain (R150). -/
def parkCopy (r : McRun) (x : Staged) (g k n seq : Nat) : McRun :=
  let s := r.st
  let s := touchSpill (s.bump (offMcg g 0x1C))
  let c : Parked := { id := s.nextId, dest := k, tlp := x.tlp, src := x.src, owner := x.owner, cells := n, seq := seq,
                      time := s.now, origin := x.id, isOpen := x.isOpen, trusted := x.trusted, epoch := x.epoch }
  let s := { s with nextId := s.nextId + 1 }
  { r with st := s.modGroup g (fun y => { y with parked := y.parked ++ [c] }) }

/-- A destination enters fallback (R151). -/
def enterFallback (s : State) (g k : Nat) (t : Nat) : State :=
  if (s.group g).fallback.getLsbD k then s
  else report ((s.modGroup g (fun y => { y with fallback := y.fallback ||| w64 (2 ^ k) })).setEvt (offMcg g 0x24) 1)
    0x0A (g % 256) 0x43 (some t)

/-- One live destination under the group's policy (R148). -/
def deliverOne (x : Staged) (g : Nat) (m : McastRec) (n e seq : Nat) (r : McRun) (k : Nat) : McRun :=
  let s := r.st
  let credit := hasCredit s g m k n
  let d := destAt m k
  if d.chip = s.chipId ∧ (s.port d.port).quarantine then { r with st := countQblock s d.port (some x.owner) }
  else if d.chip = s.chipId ∧ (s.port d.port).contain.phase = 3 then
    -- live, and dropped as every new posted request is (R309). DEDUCED, log entry 89
    { r with st := reportPort (countCtnDrop s d.port x.owner) d.port 0x84 (some x.owner) }
  else if m.policy = .park ∧ spillUp s ∧ (!(parkedTo s g k).isEmpty || !credit) then
    if !(s.group g).fallback.getLsbD k && decide (parkCells s g k + n ≤ m.parkCells) then parkCopy r x g k n seq
    else McRun.miss { r with st := enterFallback s g k m.tenant } k 2
  else if credit then queueCopy r x g m k e n
  else r.miss k 2

/-- A destination that is not live is missed; a blocked copy is an AER event of its own (Table 10.2). -/
def missDead (x : Staged) (m : McastRec) (r : McRun) (k : Nat) : McRun :=
  let c := deadCause r.st x m k
  if c = 0 then r
  else
    let r := r.miss k c
    let d := destAt m k
    if 16 ≤ c then { r with st := flowError r.st 0x0A 0x39 aerMcBlocked x.owner d.port (some d) (some x.tlp) } else r

/-- A copy that fails its gate is a miss with cause GATE, and a rejection (R146, R217). -/
def missGate (x : Staged) (m : McastRec) (r : McRun) (k : Nat) : McRun :=
  match copyGate r.st x m k with
  | .pass => r
  | .reject matched c bad n =>
    let p := (destAt m k).port
    let y : Denied := { gate := gateP2P p, tenant := x.owner, kind := .mwr, priv := isPriv x.tlp x.trusted, mcast := true,
                        rid := x.tlp.rid, start := x.tlp.addr.toNat }
    let s := gateReject r.st (stationOf x.src.port) x.src.port x.owner (some (destAt m k)) (some x.tlp) y matched c bad n
    McRun.miss { r with st := s } k 32

/-- A write is admitted and its replication starts (R146): its cells and its multicast entry are taken, and SEQ rises. -/
def startCopies (s : State) (x : Staged) (g : Nat) : State × McWait :=
  let n := tlpCells x.tlp
  let seq := (s.reg (offMcg g 0x20)).toNat + 1
  let w : McWait := { x := x, group := g, entry := s.nextId, since := s.clock, members := (s.group g).members, seq := seq, time := s.now }
  let s := ((unstage s x.id).setReg (offMcg g 0x20) (w32 seq)).bump (offMcg g 0x14)
  let ent : McEntry := { refs := 1, cells := n, banks := banksFor s n, owner := x.owner, cls := x.cls, group := g, seq := seq, time := w.time }
  let s := takeCells (takeBanks s n) x.owner x.cls egressMc n
  ({ s with nextId := s.nextId + 1, mcEntries := tset {} s.mcEntries w.entry ent }, w)

/-- The members of a write that are live (R147). -/
def liveOf (s : State) (w : McWait) (m : McastRec) : List Nat :=
  (mcTargets s w.x m w.members).filter (fun k => deadCause s w.x m k == 0)

/-- Its delivery (R146, R148). `timedOut` makes every live destination a miss. -/
def deliverCopies (s : State) (w : McWait) (m : McastRec) (timedOut : Bool) : State :=
  let g := w.group
  let x := w.x
  let n := tlpCells x.tlp
  let live := liveOf s w m
  let ok := live.filter (fun k => copyGate s x m k == .pass)
  let r := (mcTargets s x m w.members).foldl (missDead x m) (McRun.mk s 0 0 0)
  let r :=
    if timedOut then
      let late : McRun := { r with st := report (r.st.setEvt (offMcg g 0x24) 0) 0x0A (g % 256) 0x42 (some m.tenant) }
      live.foldl (fun a k => a.miss k 4) late
    else ok.foldl (deliverOne x g m n w.entry w.seq) (live.foldl (missGate x m) r)
  let t := noteEnded { r.st with mcWaits := r.st.mcWaits.filter (fun y => y.entry != w.entry) } (x.isOpen && r.copies == 0) x.id x.id x.ingress
  let ent := tget {} t.mcEntries w.entry
  let s := if r.copies = 0 then mcUnref t w.entry else { t with mcEntries := tset {} t.mcEntries w.entry { ent with refs := r.copies } }
  if r.missed = 0 then s else missCopies s g w.seq w.time r.cause (w64 r.missed)

/-- The write at the head of a port's posted staging queue, if it is a multicast write. -/
def mcHead (s : State) (p : PortId) : Option (Staged × Nat) :=
  match s.staging.find? (fun x => x.key == .port p 0) with
  | some x => match x.dest with
    | .group g => if x.red.isSome then none else some (x, g)
    | _ => none
  | none => none

/-- The write waits at the admit stage; it is counted once in TNT_BUFWAIT. -/
def countWait (s : State) (x : Staged) : State :=
  if x.waited then s
  else modStaged (s.bump (offTnt (0x50018 + 32 * x.owner))) x.id (fun y => { y with waited := true })

/-- R146: an entry is free, and R137 admits the write with e = mc. -/
def mcAdmissible (s : State) (x : Staged) : Bool :=
  decide (s.mcEntries.length < 8192) && mayAdmit s x.owner x.cls egressMc (tlpCells x.tlp)

/-- Every live destination has credit (R148). -/
def mcAllCredit (s : State) (w : McWait) (m : McastRec) : Bool :=
  (liveOf s w m).all (fun k => hasCredit s w.group m k (tlpCells w.x.tlp))

/-- A TLP waits at the admit stage behind an ATOMIC_ADMIT write of its ingress port, tenant and traffic class (R148). -/
def behindWait (s : State) (x : Staged) : Bool :=
  s.mcWaits.any (fun w => decide (w.x.id < x.id) && w.x.src == x.src && w.x.owner == x.owner && w.x.tlp.tc == x.tlp.tc)

/-- The write at the head of the queue starts, where it may: it is delivered at once unless ATOMIC_ADMIT makes it wait. -/
def mcStart (s : State) (p : PortId) : State :=
  match mcHead s p with
  | none => s
  | some (x, g) =>
    match mcastRec s g with
    | none => s
    | some m =>
      if behindWait s x ∨ !mcAdmissible s x then countWait s x
      else
        let (a, w) := startCopies s x g
        if m.policy = .atomicAdmit ∧ !mcAllCredit a w m then { a with mcWaits := a.mcWaits ++ [w] } else deliverCopies a w m false

/-- The writes of a port that wait. -/
def portWaits (s : State) (p : Nat) : List McWait := s.mcWaits.filter (fun w => w.x.ingress == p)

/-- A waiting write is delivered once every live destination has credit. -/
def mcRetry (s : State) (w : McWait) : State :=
  match mcastRec s w.group with
  | none => s
  | some m => if mcAllCredit s w m then deliverCopies s w m false else s

/-- MULTICAST_WRITE (R148): the port's waiting writes look at their credit again, and then its next write starts. -/
def execMulticastWrite (port : PortId) (s : State) : Host.Outcome State Fault Refusal :=
  .next (mcStart ((portWaits s port).foldl mcRetry s) port)

/-- The wait of `w` has reached ADMIT_TIMEOUT_US without credit. -/
def mcLate (s : State) (w : McWait) : Bool :=
  match mcastRec s w.group with
  | none => false
  | some m => decide (w.since + 1000 * m.admitTimeout ≤ s.clock) && !mcAllCredit s w m

/-- ATOMIC_ADMIT_TIMEOUT (R148), of the port's oldest write that has waited so long. -/
def execAtomicAdmitTimeout (port : PortId) (s : State) : Host.Outcome State Fault Refusal :=
  .next (match (portWaits s port).find? (mcLate s) with
    | none => s
    | some w => match mcastRec s w.group with | some m => deliverCopies s w m true | none => s)

/-! Re-delivery (R149 to R152). -/

/-- The oldest parked copy leaves the spill area; with the last one fallback clears (R151). -/
def unpark (s : State) (g k id : Nat) : State :=
  let s := s.modGroup g (fun y => { y with parked := y.parked.filter (fun z => z.id != id) })
  if (parkedTo s g k).isEmpty then s.modGroup g (fun y => { y with fallback := y.fallback &&& ~~~ w64 (2 ^ k) }) else s

/-- A parked copy that cannot be read back is lost (R152). -/
def loseParked (s : State) (g : Nat) (m : McastRec) (x : Parked) : State :=
  let s := (unpark s g x.dest x.id).setEvt (offMcg g 0x24) 3
  missCopies (report s 0x0A (g % 256) 0x44 (some m.tenant)) g x.seq x.time 8 (w64 (2 ^ x.dest))

/-- Destination `k` can take a parked copy: R147's conditions but for membership (R154). -/
def destLive (s : State) (m : McastRec) (k : Nat) : Bool :=
  let d := destAt m k
  (d.chip != s.chipId || portOpen s d.port) && !mcBlocked s m d

/-- The oldest parked copy of (g, k) is re-delivered from the reserve of 2,048 cells once credit holds (R149). -/
def redeliver (s : State) (g k : Nat) (m : McastRec) (x : Parked) : State :=
  match copyEgress s x.src x.owner x.tlp.tc.toNat x.trusted x.epoch (destAt m k) with
  | none => s
  | some p =>
    if x.isOpen || !destLive s m k || !hasCredit s g m k x.cells || decide (2048 < s.parkUsed + x.cells) then s
    else
      let s := touchSpill (unpark s g k x.id)
      let s := s.modGroup g (fun y => { y with pending := tset 0 y.pending k (tget 0 y.pending k + x.cells) })
      enqueue { takeBanks s x.cells with parkUsed := s.parkUsed + x.cells }
        { id := x.id, tlp := x.tlp, src := x.src, owner := x.owner, cls := 0, egress := p, origin := x.origin,
          bytes := tlpBytes x.tlp, cells := x.cells, banks := banksFor s x.cells, redeliv := some (g, k, x.seq, x.time), enq := replicaOf s (stationOf p),
          farug := if (destAt m k).chip = s.chipId then none
            else some (stampFarug x.src x.owner x.tlp.tc.toNat x.trusted x.epoch (destAt m k).chip (destAt m k).port) }

/-- In Safe, parked copies are not re-delivered (R332). -/
def execParkRedelivery (g : GroupId) (dest : Fin 64) (readError : Bool) (s : State) : Host.Outcome State Fault Refusal :=
  .next (
    match mcastRec s g, (parkedTo s g dest).head? with
    | some m, some x =>
      if s.mode = .safe then s
      else if readError then
        -- the read of the spill area met an uncorrectable error, a free or spill lot's (R247)
        let c := match s.cfg.pool with | some r => r.spillChannel | none => 0
        loseParked (countUe s c (Config.spillLine x.id).toNat none) g m x
      else redeliver s g dest m x
    | _, _ => s)

/-- Bitmap of the live members of a group, for GROUP_ADMIN (R157). -/
def liveBitmap (s : State) (g : Nat) (m : McastRec) : Nat :=
  bitmap m.dests.length (fun k =>
    isMember s g k &&
      (let d := destAt m k
       (if d.chip = s.chipId then portOpen s d.port
         else (copyEgress s { chip := s.chipId, port := 0x7F } ownerM 0 false s.fab.epoch d).isSome) && !mcBlocked s m d))

end Sys2Proof.Machine
end

