-- ==== Sys2Proof/Machine/Sched.lean ====
section
/-! DEFINITION. Egress selection, shapers, policers, time gates and monitors (R163 to R181, R189). -/

namespace Sys2Proof.Machine

/-! Transmit time (Table 6.3). -/

/-- Wire bytes W(b). -/
def wireBytes (flit : Bool) (b : Nat) : Nat := if flit then 256 * (ceilDiv b 236 + 1) else b + 8

/-- Lane byte rate in 10⁻⁵ bytes per ns; `rate` 1 to 6 is 2.5 to 64 GT/s. -/
def laneRate (flit : Bool) (rate : Nat) : Nat :=
  if flit then [0, 25000, 50000, 100000, 200000, 400000, 800000].getD rate 0
  else [0, 25000, 50000, 98462, 196923, 393846].getD rate 0

/-- The time that wire bytes take on a link at its active width, in ns. -/
def wireTime (l : Link) (w : Nat) : Nat := ceilDiv (w * 100000) (l.active * laneRate l.flit l.rate)

/-- tx(b). -/
def txTime (l : Link) (b : Nat) : Nat := wireTime l (wireBytes l.flit b)

/-- Allowance A. -/
def allowance (l : Link) : Nat := if l.rate ≤ 2 then 100 else 40

/-- The guard band G of R177. -/
def guardBand (s : State) (p : Nat) : Nat :=
  txTime (s.port p).link 4352 + allowance (s.port p).link + (schedRec s p).guardExtra

/-! Gate control lists (R175, R176). -/

/-- The position of time `t` within the list's cycle. -/
def cyclePos (g : GateList) (t : Nat) : Nat := (((t : Int) - g.base) % g.cycle).toNat

/-- The entry that holds position `pos`, counted from `i`. -/
def entryFrom (pos : Nat) : List GclEntry → Nat → Nat
  | [], i => i - 1
  | e :: r, i => if pos < 8 * e.interval then i else entryFrom (pos - 8 * e.interval) r (i + 1)

def entryAt (g : GateList) (t : Nat) : Nat := entryFrom (cyclePos g t) g.gcl 0

def maskAt (g : GateList) (i : Nat) : Byte := match g.gcl[i]? with | some e => e.mask | none => 0xFF

/-- Class `c` is open now: by the entry in force of the operating list. -/
def gateOpen (s : State) (p c : Nat) : Bool :=
  match (s.port p).sched.oper with
  | none => true
  | some g => (maskAt g (s.port p).sched.entry).getLsbD c

def closesClass (g : GateList) (c : Nat) : Bool := g.gcl.any (fun e => !e.mask.getLsbD c)

/-- Class `c` is gated: some entry of the operating or pending list closes it (R175). -/
def isGated (s : State) (p c : Nat) : Bool :=
  let q := (s.port p).sched
  (match q.oper with | some g => closesClass g c | none => false)
    || (match q.pend with | some d => (match d.list with | some g => closesClass g c | none => false) | none => false)

/-- Starts of the entries that close class `c`, counted from `at_`. -/
def closeStarts (c : Nat) : List GclEntry → Nat → List Nat
  | [], _ => []
  | e :: r, at_ => if e.mask.getLsbD c then closeStarts c r (at_ + 8 * e.interval) else at_ :: closeStarts c r (at_ + 8 * e.interval)

/-- The first moment after `t` at which a list closes class `c`. -/
def nextClose (g : GateList) (c t : Nat) : Option Nat :=
  let pos := cyclePos g t
  let l := closeStarts c g.gcl 0
  match l.find? (fun x => pos < x) with
  | some x => some (t + (x - pos))
  | none => match l.head? with | some x => some (t + (g.cycle + x - pos)) | none => none

/-- The first moment from `t` on at which a list has class `c` closed. -/
def closedFrom (g : GateList) (c t : Nat) : Option Nat :=
  if (maskAt g (entryAt g t)).getLsbD c then nextClose g c t else some t

/-- close(c, t) of R177 and R180; `t` itself where the class is closed then. -/
def closeTime (s : State) (p c t : Nat) : Option Nat :=
  let q := (s.port p).sched
  let a := q.oper.bind (fun g => closedFrom g c t)
  let b := match q.pend with
    | some d => match d.list with
      | some g => if (maskAt g 0).getLsbD c then none else some d.ts
      | none => none
    | none => none
  match a, b with | some x, some y => some (min x y) | some x, none => some x | none, y => y

/-- The guard check of R177 for `b` bytes of class `c` at time `t`. -/
def guardOk (s : State) (p c t b : Nat) : Bool :=
  if !isGated s p c then true
  else match closeTime s p c t with
    | none => true
    | some x => decide (t + txTime (s.port p).link b + allowance (s.port p).link + (schedRec s p).guardExtra ≤ x)

/-- The longest run of entries that leave class `c` open, over two cycles. -/
def longestOpen (c : Nat) : List GclEntry → Nat → Nat → Nat
  | [], cur, best => max cur best
  | e :: r, cur, best =>
    if e.mask.getLsbD c then longestOpen c r (cur + 8 * e.interval) best else longestOpen c r 0 (max cur best)

/-- Some gated class never stays open for G (R178). -/
def starved (s : State) (p : Nat) : Bool :=
  match (s.port p).sched.oper with
  | none => false
  | some g => (s.port p).link.dlUp && (List.range 8).any (fun c =>
      closesClass g c && decide (longestOpen c (g.gcl ++ g.gcl) 0 0 < guardBand s p))

/-- After a list change or a rate or width change: GUARD_STARVE where a gated class is starved (R178). -/
def checkStarve (s : State) (p : Nat) : State :=
  if starved s p then reportPort (s.setEvt (offSch p 0x20) 1) p 0x51 else s

/-! Shapers (R168 to R170). -/

def tokens (n : Nat) : Int := (65536 * n : Nat)

/-- The shapers of a port that cover class `c` and owner `o`. -/
def covering (s : State) (p c : Nat) (o : Owner) : List (Nat × Shaper) :=
  s.shapers.filter (fun e => e.2.port == p &&
    (e.2.scope == 0 || (e.2.tc == c && (e.2.scope == 1 || e.2.owner == o))))

/-- The PORT shaper and the CLASS shaper conform. -/
def classConforms (s : State) (p c : Nat) : Bool :=
  s.shapers.all (fun e => !(e.2.port == p && (e.2.scope == 0 || (e.2.scope == 1 && e.2.tc == c))) || decide (0 ≤ e.2.tok))

/-- The OWNER shaper conforms. -/
def ownerConforms (s : State) (p c : Nat) (o : Owner) : Bool :=
  s.shapers.all (fun e => !(e.2.port == p && e.2.scope == 2 && e.2.tc == c && e.2.owner == o) || decide (0 ≤ e.2.tok))

/-- A TLP that starts is debited from every shaper that covers it. -/
def debit (s : State) (p c : Nat) (o : Owner) (b : Nat) : State :=
  (covering s p c o).foldl (fun a e => { a with shapers := tset {} a.shapers e.1 { e.2 with tok := e.2.tok - tokens b } }) s

/-- Tokens that one 160 ns tick adds, in 2⁻¹⁶ bytes: RATE_KBPS × 0.00002 × 65,536. -/
def tickTokens (kbps : Nat) : Nat := kbps * 131072 / 100000

/-- One refill tick of a shaper; a new rate counts from here (R169, R170). -/
def refill (x : Shaper) : Shaper :=
  { x with rate := x.nextRate, tok := min (x.tok + tickTokens x.nextRate) (tokens x.burst) }

def execShaperRefill (s : State) : Host.Outcome State Fault Refusal :=
  .next { s with shapers := s.shapers.map (fun e => (e.1, refill e.2)) }

/-- THRESHOLD_TICK: every 256 ns the thresholds are set anew (R140). -/
def execThresholdTick (s : State) : Host.Outcome State Fault Refusal := .next (setThresholds s)

/-! Policers (R171, R172). -/

/-- The entries of the policers in index order: (tenant, entry number, entry). -/
def policerEntries (c : Cfg) : List (Nat × Nat × PolEntry) :=
  (c.tenants.map (fun t => (t.2.pol.zipIdx.map (fun x => (t.1, x.2, x.1))))).flatten

def policerEntry (s : State) (k : Nat) : Option (Nat × Nat × PolEntry) := (policerEntries s.cfg)[k]?

/-- The policer of a tenant's traffic class. -/
def policerOf (s : State) (t tc : Nat) : Option (Nat × PolEntry) :=
  match (policerEntries s.cfg).zipIdx.find? (fun x => x.1.1 == t && x.1.2.2.tcMask.getLsbD tc) with
  | some ((_, _, e), k) => some (k, e)
  | none => none

inductive Colour where
  | green | yellow | red
  deriving DecidableEq, Repr

/-- The colour that policer `k` gives to `b` bytes, and the state after the debit (R172). -/
def colour (s : State) (k b : Nat) : Colour × State :=
  let x := tget {} s.policers k
  let n := 65536 * b
  if x.p < n then (.red, s)
  else if x.c < n then (.yellow, { s with policers := tset {} s.policers k { x with p := x.p - n } })
  else (.green, { s with policers := tset {} s.policers k { x with p := x.p - n, c := x.c - n } })

def offPol (k x : Nat) : Nat := offSchA (0x60000 + 16 * k + x)

/-- The tick of the policers: refill, then each held red TLP is coloured again (R172). -/
def refillPolicer (s : State) (k : Nat) (x : Policer) : Policer :=
  match policerEntry s k with
  | none => x
  | some (_, _, e) => { x with p := min (x.p + tickTokens e.pir) (65536 * e.pbs), c := min (x.c + tickTokens e.cir) (65536 * e.cbs) }

def recolour (s : State) (x : Staged) : State :=
  match x.red with
  | none => s
  | some k =>
    match colour s k (tlpBytes x.tlp) with
    | (.red, s) => s
    | (.yellow, s) => modStaged (s.bump (offPol k 4)) x.id (fun y => { y with red := none })
    | (.green, s) => modStaged (s.bump (offPol k 0)) x.id (fun y => { y with red := none })

def execPolicerTick (s : State) : Host.Outcome State Fault Refusal :=
  let s := (List.range (policerEntries s.cfg).length).foldl
    (fun a k => { a with policers := tset {} a.policers k (refillPolicer a k (tget {} a.policers k)) }) s
  .next (s.staging.foldl recolour s)

/-! Gate boundaries and switches (R175, R180). -/

def stationTime (s : State) (p : Nat) : Nat := replicaOf s (stationOf p)

/-- The entry in force becomes that of the replica's time; a TLP refused in an open run that has ended may be counted
again. -/
def gateBoundary (s : State) (p : Nat) : State :=
  match (s.port p).sched.oper with
  | none => s.modSched p (fun q => { q with entry := 0 })
  | some g =>
    let i := entryAt g (stationTime s p)
    let shut (id : Nat) : Bool := match findDesc s id with | some d => !(maskAt g i).getLsbD d.tlp.tc.toNat | none => true
    s.modSched p (fun q => { q with entry := i, refused := q.refused.filter (fun id => !shut id) })

def execGateBoundary (port : PortId) (s : State) : Host.Outcome State Fault Refusal := .next (gateBoundary s port)

/-- T_s of a list with the given BASE (R180). -/
def switchTime (s : State) (p base : Nat) : Nat :=
  match (s.port p).sched.oper with
  | none => base
  | some g => if base ≤ g.base then g.base - (g.base - base) / g.cycle * g.cycle else g.base + ceilDiv (base - g.base) g.cycle * g.cycle

/-- The pending list becomes the operating list, once, at or after T_s (R180, Table 6.4). -/
def gateSwitch (s : State) (p : Nat) : State :=
  match (s.port p).sched.pend with
  | none => s
  | some d =>
    if stationTime s p < d.ts then s
    else
      let s := s.modSched p (fun q => { q with pend := none, oper := d.list.map (fun g => { g with base := d.ts }) })
      let s := (gateBoundary s p).setEvt (offSch p 0x20) 3
      let s := if d.stepped then s.setEvt (offSch p 0x20) 2 else s
      checkStarve (reportPort (s.bump (offSch p 0x2C)) p 0x52) p

def execGateListSwitch (port : PortId) (s : State) : Host.Outcome State Fault Refusal := .next (gateSwitch s port)

/-! Monitors (R189). -/

/-- The bin of a depth in cells, or of a delay in units of 64 ns: 0, then one bin for each power of two, at most 15. -/
def bin16 (n : Nat) : Nat := if n = 0 then 0 else min 15 (Nat.log2 n + 1)

def monScope (s : State) (p : Nat) (m : MonEntry) : List Desc :=
  s.descs.filter (fun d => isQueued s d && d.egress == p && d.tlp.tc.toNat == m.tc && (m.owner == 0x1FF || d.owner == m.owner))

def raiseMax (s : State) (off n : Nat) : State := if (s.reg off).toNat < n then s.setReg off (w32 (min n 0xFFFFFFFF)) else s

def offMon (m x : Nat) : Nat := offSchA (0x80000 + 256 * m + x)

def monitorOne (s : State) (p : Nat) (m : MonEntry) : State :=
  let l := monScope s p m
  let depth := (l.map (·.cells)).sum
  let oldest := l.foldl (fun a d => min a d.enq) (stationTime s p)
  let delay := stationTime s p - oldest
  let s := (s.bump (offMon m.id (4 * bin16 depth))).bump (offMon m.id (0x40 + 4 * bin16 (delay / 64)))
  (raiseMax (raiseMax s (offMon m.id 0x80) depth) (offMon m.id 0x84) delay).bump (offMon m.id 0x88)

def execMonitorSample (port : PortId) (s : State) : Host.Outcome State Fault Refusal :=
  .next ((schedRec s port).mons.foldl (fun a m => monitorOne a port m) s)

/-! Egress selection (R115, R116, R163 to R167). -/

/-- GT/s times ten, by rate code. -/
def gtRate (r : Nat) : Nat := [0, 25, 50, 80, 160, 320, 640].getD r 0

/-- The data rate of R115, scaled: width × rate × efficiency × 208,000. -/
def dataRate (l : Link) : Nat :=
  l.width * gtRate l.rate * (if l.flit then 19175 else if l.rate ≤ 2 then 16640 else 20480)

/-- The identity that ID-Based Ordering compares: the Requester ID, or a completion's Completer ID. -/
def orderId (t : Tlp) : W16 := if t.kind = .cpl then t.cid else t.rid

/-- `t` may pass the earlier posted `b` by its attributes: Relaxed Ordering of a TLP with data or a completion, or ID-Based Ordering where the
identities or the PASIDs differ (R112). PRESUMED, from the Base Specification's ordering table, whose permissions the device uses: log entry
85. -/
def attrPass (t b : Tlp) : Bool :=
  isPosted b.kind
    && ((t.relaxed && (t.kind == .mwr || t.kind == .cpl || t.kind == .atomic || t.kind == .dmwr))
      || (t.ido && (orderId t != orderId b || (match t.pasid, b.pasid with | some x, some y => x.value != y.value | _, _ => false))))

/-- The conditions of R115 at the present rates and widths. -/
def mayCut (s : State) (d : Desc) : Bool :=
  let e := (s.port d.egress).link
  let i := (s.port d.ingress).link
  (s.isFabric d.egress || (!e.flit && d.ingress < 80 && !i.flit)) && decide (d.ingress < 80)
    && decide (dataRate e ≤ dataRate i) && d.mc.isNone && d.redeliv.isNone

/-- R115: an open descriptor is cut through. The decision is made once, when it reaches the head of its queue. -/
def cutThrough (s : State) (d : Desc) : Bool := d.cut.getD (mayCut s d)

/-- The destination of a descriptor: a port of this chip, or a port of another one (R112). -/
def destOf (d : Desc) : Nat × Nat := match d.farug with | some f => (1 + f.dstChip, f.dstPort) | none => (0, d.egress)

/-- The domain of R112: source, destination, tenant and class. -/
def sameDomain (a b : Desc) : Bool := a.src == b.src && destOf a == destOf b && a.owner == b.owner && a.tlp.tc == b.tlp.tc

/-- A parked copy that precedes the descriptor in its domain (R150). -/
def parkHeld (s : State) (d : Desc) : Bool :=
  s.groups.any (fun e =>
    match mcastRec s e.1 with
    | none => false
    | some m => e.2.parked.any (fun x => decide (x.id < d.id) && x.src == d.src && x.owner == d.owner && x.tlp.tc == d.tlp.tc
        && (destAt m x.dest).port == (match d.farug with | some f => f.dstPort | none => d.egress)
        && (destAt m x.dest).chip == (match d.farug with | some f => f.dstChip | none => s.chipId)))

/-- A TLP of the present epoch toward a chip whose drain has not ended (R268). -/
def drainHeld (s : State) (d : Desc) : Bool :=
  match d.farug with
  | some f => s.isFabric d.egress && f.epoch == s.fab.epoch && f.srcChip == s.chipId && (tfind s.fab.drains f.dstChip).isSome
  | none => false

/-- The descriptor waits for a tracker entry, a device tag, or a credit of a type that `nc` says the link partner has none of (R113). -/
def waitsFor (nc : BitVec 3) (d : Desc) : Bool := d.needTrk || nc.getLsbD (creditOf d.tlp)

/-- The descriptor cannot start by itself, whatever stands before it. -/
def selfBlocked (s : State) (nc : BitVec 3) (d : Desc) : Bool :=
  let e := (s.port d.egress).link
  waitsFor nc d || parkHeld s d || drainHeld s d
    || (s.isFabric d.egress && (s.fabLink d.egress).st != 3)
    || (d.isOpen && !cutThrough s d && (d.released || !e.flit || s.isFabric d.egress))

/-- Whether `d` may pass an earlier descriptor `b` of its domain that cannot start: by its attributes, or by R113 where `b` waits for
credit or the tracker. -/
def mayPass (nc : BitVec 3) (d b : Desc) : Bool :=
  attrPass d.tlp b.tlp
    || (waitsFor nc b && !isNonPosted d.tlp.kind && (isNonPosted b.tlp.kind || (isPosted d.tlp.kind && b.tlp.kind == .cpl)))

/-- The head that a list of descriptors presents: the first that can start and need not wait behind a blocked one. -/
def headIn (s : State) (nc : BitVec 3) : List Desc → List Desc → Option Desc
  | [], _ => none
  | d :: r, blocked =>
    if selfBlocked s nc d || blocked.any (fun b => sameDomain d b && !mayPass nc d b) then headIn s nc r (d :: blocked) else some d

def insertById (d : Desc) : List Desc → List Desc
  | [] => [d]
  | x :: r => if d.id < x.id then d :: x :: r else x :: insertById d r

def sortById (l : List Desc) : List Desc := l.foldl (fun a d => insertById d a) []

/-- The owner list of class `c` in order of admission. -/
def ownerList (s : State) (p c : Nat) (o : Owner) : List Desc :=
  sortById (s.descs.filter (fun d => isQueued s d && d.egress == p && d.tlp.tc.toNat == c && d.owner == o))

/-- In Safe, an upstream port contained by QUENCH sends only what the device forms in answer there (R331). -/
def quenchExempt (p : Nat) (d : Desc) : Bool := d.tlp.kind == .cpl && (d.src.port == p || d.src.port == 0x7F)

/-- Before a rate or width of a port changes, the decision of R115 is noted for every open descriptor at the head of its queue
that the port brings in or sends out. -/
def decideCut (s : State) (p : Nat) : State :=
  (s.descs.filter (fun d => d.isOpen && d.cut.isNone && (d.egress == p || d.ingress == p)
      && (ownerList s d.egress d.tlp.tc.toNat d.owner).head? == some d)).foldl
    (fun a d => modDesc a d.id (fun y => { y with cut := some (mayCut s d) })) s

def headOf (s : State) (nc : BitVec 3) (p c : Nat) (o : Owner) : Option Desc :=
  let l := ownerList s p c o
  headIn s nc (if (s.port p).contain.phase == 1 || (s.port p).contain.phase == 2 then l.filter (quenchExempt p) else l) []

/-- The owners of a class queue in ascending order, starting after the owner that it last served. -/
def ownersAfter (s : State) (p c : Nat) : List Owner :=
  let next := tget 0 (s.port p).sched.lastOwner c
  let os := (List.range 257).filter (fun o => s.descs.any (fun d => d.egress == p && d.tlp.tc.toNat == c && d.owner == o))
  os.filter (fun o => decide (next ≤ o)) ++ os.filter (fun o => decide (o < next))

/-- The guard check is left until an open descriptor of a flit-mode egress closes (R177). -/
def guardNow (s : State) (p c : Nat) (d : Desc) : Bool :=
  (d.isOpen && !cutThrough s d) || guardOk s p c (stationTime s p) d.bytes

/-- The heads of a class that conform to their OWNER shaper, in the order of R165. -/
def classHeads (s : State) (nc : BitVec 3) (p c : Nat) : List Desc :=
  (ownersAfter s p c).filterMap (fun o => if ownerConforms s p c o then headOf s nc p c o else none)

/-- The head that a class would start, where it is eligible (R164). -/
def pickHead (s : State) (nc : BitVec 3) (p c : Nat) : Option Desc :=
  if gateOpen s p c && classConforms s p c then (classHeads s nc p c).find? (fun d => guardNow s p c d) else none

def countRefusedOne (s : State) (p id : Nat) : State :=
  if (s.port p).sched.refused.contains id then s
  else State.modSched (s.bump (offSch p 0x28)) p (fun q => { q with refused := q.refused ++ [id] })

/-- A head that R177 refuses, before one that it passes, is counted once in each open run of its class. -/
def countRefused (s : State) (nc : BitVec 3) (p c : Nat) : State :=
  if gateOpen s p c && classConforms s p c then
    ((classHeads s nc p c).takeWhile (fun d => !guardNow s p c d)).foldl (fun a d => countRefusedOne a p d.id) s
  else s

/-- quantum[c] of R166. -/
def quantum (s : State) (p c : Nat) : Nat := (schedRec s p).weight.getD c 8 * (schedRec s p).quantumScale

/-- The deficit round robin of R165: the class and head that start, with the scheduler after it; `k` bounds the visits. -/
def drr (s : State) (nc : BitVec 3) (p : Nat) : Nat → Sched → Option (Desc × Sched)
  | 0, _ => none
  | k + 1, q =>
    match q.ring with
    | [] => none
    | c :: r =>
      match pickHead s nc p c with
      | none => drr s nc p k { q with ring := r ++ [c] }
      | some x =>
        let q := if q.fresh.contains c then
            { q with deficit := tset 0 q.deficit c (tget 0 q.deficit c + quantum s p c), fresh := q.fresh.filter (· != c) }
          else q
        if x.bytes ≤ tget 0 q.deficit c then
          some (x, { q with deficit := tset 0 q.deficit c (tget 0 q.deficit c - x.bytes) })
        else drr s nc p k { q with fresh := q.fresh ++ [c], ring := r ++ [c] }

/-- The express class that starts, the highest first. -/
def expressPick (s : State) (nc : BitVec 3) (p : Nat) : Option Desc :=
  [7, 6, 5, 4, 3, 2, 1, 0].findSome? (fun c => if isExpress s p c then pickHead s nc p c else none)

/-- Refusals of the classes that a selection consults: express classes down to the one that starts, then the others. -/
def countRefusals (s : State) (nc : BitVec 3) (p : Nat) : State :=
  let x := expressPick s nc p
  let seen (c : Nat) : Bool :=
    match x with
    | some d => isExpress s p c && decide (d.tlp.tc.toNat ≤ c)
    | none => true
  (List.range 8).foldl (fun a c => if seen c then countRefused a nc p c else a) s

/-- The chip's tracked requests that still wait try for their entries and tags, in order of arrival; only the first of a domain may (R113,
R121, R124). -/
def allocWaiting (s : State) : State :=
  (sortById (s.descs.filter (·.needTrk))).foldl (fun a d =>
    let ahead := a.descs.any (fun b => b.needTrk && decide (b.id < d.id) && sameDomain b d)
    let r := if ahead then none else trackDesc a d
    match r with
    | some b => b
    | none =>
      if d.trkWait then a
      else modDesc (a.bump (offTnt (0x4000C + 16 * d.owner))) d.id (fun y => { y with trkWait := true })) s

/-- The banks of a descriptor's cells. -/
def cellBanks (s : State) (d : Desc) : List Nat := match d.mc with | some (_, _, e) => (tget {} s.mcEntries e).banks | none => d.banks

def isDouble (ecc : Option (Nat × Bool)) : Bool := match ecc with | some (_, b) => b | none => false

/-- What the read of cell `i`, counted modulo the cells, of a TLP found (R27): a single-bit error is corrected, counted per bank and
reported; a double-bit error is reported. -/
def eccSeen (s : State) (o : Owner) (p : Nat) (banks : List Nat) (ecc : Option (Nat × Bool)) (dest : Option (Nat × Nat) := none) : State :=
  match ecc with
  | none => s
  | some (i, double) =>
    let b := banks.getD (i % banks.length) 0
    if double then report s 0x0A b 0x3C (some o) p none dest
    else report { s with bankCe := tset 0 s.bankCe b (tget 0 s.bankCe b + 1) } 0x0A b 0x3B (some o) p none dest

/-- TLPs sent toward a chip in an epoch, counted as each starts on its first fabric egress (R260, R269). -/
def countSent (s : State) (d : Desc) : State × Option Farug :=
  match d.farug with
  | none => (s, none)
  | some f =>
    if s.isFabric d.egress then
      if f.srcChip = s.chipId then
        let k := 2 * f.dstChip + (if f.epoch then 1 else 0)
        let n := tget 0 s.fab.sent k + 1
        (s.modFab (fun b => { b with sent := tset 0 b.sent k n }), some { f with seq := n % 2 ^ 24 })
      else (s, some f)
    else (s, some f)

/-- The transmission is noted for the overruns of R178. -/
def noteTx (s : State) (d : Desc) : State :=
  let p := d.egress
  let l := (s.port p).link
  let t := stationTime s p
  s.modSched p (fun q => { q with last := some { start := t, end_ := t + txTime l d.bytes, wire := wireBytes l.flit d.bytes,
                                                 close := closeTime s p d.tlp.tc.toNat t } })

/-- start(x): what every TLP that starts does (R165, R168, R159). -/
def startTx (s : State) (d : Desc) : State :=
  let p := d.egress
  let c := d.tlp.tc.toNat
  let s := debit s p c d.owner d.bytes
  let s := s.modSched p (fun q => { q with lastOwner := tset 0 q.lastOwner c (d.owner + 1) })
  let s := sampleTaps (noteTx s d) p true d.owner d.tlp
  match d.trk with
  | some i => modTrk s i (fun e => { e with start := some s.clock })
  | none => s

/-- A complete TLP leaves the egress. -/
def sendWhole (s : State) (d : Desc) : State :=
  let (s, f) := countSent (startTx s d) d
  removeDesc (s.emit (.tlp d.egress d.tlp (if s.isFabric d.egress then f else none) false)) d

/-- A TLP closed bad, or whose cells hold a double-bit error, ends without a byte leaving (R118, R120). -/
def discardUnsent (s : State) (d : Desc) (lost : Bool) : State := endTrk (removeDesc s d) d lost

/-- The selected descriptor starts: sent whole, cut through, or pre-scheduled in a held slot (R115, R116). A class whose last descriptor
is cut through is empty from here on (R166). A double-bit error is found before framing begins (R118). -/
def startDesc (s : State) (d : Desc) (ecc : Option (Nat × Bool)) : State :=
  let s := eccSeen s d.owner d.egress (cellBanks s d) ecc (farDest d.farug)
  if isDouble ecc then discardUnsent s d true
  else if d.isOpen then
    if cutThrough s d then
      let (s, f) := countSent (startTx s d) d
      let s := modDesc (s.bump (offPrt d.egress 0x50)) d.id (fun y => { y with farug := f })
      leaveRing (s.modSched d.egress (fun q => { q with txing := some d.id, cutAt := s.clock })) d.egress d.tlp.tc.toNat
    else s.modSched d.egress (fun q => { q with held := some d.id, heldSince := s.clock })
  else sendWhole s d

/-- The egress may start a TLP: its link is in L0, it is not contained but for R331, no TLP is being sent and no slot is
held; a fabric port carries TLPs only in Run and Degraded (R258). -/
def mayStart (s : State) (p : Nat) : Bool :=
  let q := s.port p
  q.link.dlUp && q.link.ltssm == .l0 && q.sched.txing.isNone && q.sched.held.isNone
    && (q.contain.phase == 0 || q.contain.phase == 3 || (q.contain.cause == 9 && s.isUp p))
    && (!s.isFabric p || s.inRunModes)

/-- A list switch and a gate boundary that lie in the cycle of a selection come before it (R175, R181). -/
def gatesNow (s : State) (p : Nat) : State := gateBoundary (gateSwitch s p) p

/-- One selection on egress `p` (R165). `nc` names the credit types that its link partner has none of. -/
def selectOn (s : State) (p : Nat) (nc : BitVec 3) (ecc : Option (Nat × Bool)) : State :=
  let s := gatesNow s p
  if !mayStart s p then s
  else
    let s := countRefusals (allocWaiting s) nc p
    match expressPick s nc p with
    | some d => startDesc s d ecc
    | none =>
      match drr s nc p 700 (s.port p).sched with
      | none => s
      | some (d, q) =>
        let s := s.modSched p (fun y => { y with ring := q.ring, deficit := q.deficit, fresh := q.fresh })
        startDesc s d ecc

/-- EGRESS_SELECTION; `noCredit` names the credit types that the link partner lacks, `ecc` is what the read of the cells found. TLPs held by
drains are counted once (FAB_EPHOLDCNT). -/
def execEgressSelection (port : PortId) (m : Meets) (s : State) : Host.Outcome State Fault Refusal :=
  let l := (descsTo s port).filter (fun d => drainHeld s d && !s.fab.heldOnce.contains d.id)
  let s := (s.bump (offFab 0x40) l.length).modFab (fun f => { f with heldOnce := f.heldOnce ++ l.map (·.id) })
  .next (selectOn s port m.noCredit m.ecc)

/-- STALL_REL (R116): 2 µs pass before the held descriptor closes. -/
def releaseSlot (s : State) (p : Nat) (id : Nat) : State :=
  let s := (s.modSched p (fun q => { q with held := none })).bump (offPrt p 0x5C)
  modDesc s id (fun y => { y with released := true })

def execStallRel (port : PortId) (s : State) : Host.Outcome State Fault Refusal :=
  .next (match (s.port port).sched.held with
    | none => s
    | some id =>
      if s.clock < (s.port port).sched.heldSince + 2000 then s
      else reportPort ((releaseSlot s port id).setEvt (offPrt port 0x4C) 4) port 0x34)

/-- A fabric egress stalls: it sends hold flits, and the stall is counted (Table 4.5). -/
def holdFlits (s : State) (p : Nat) : State := (s.bump (offPrt p 0x58)).emit (.holdFlit p)

/-- FABRIC_STALL_STOMP (R118): the cell that the egress needs has been missing for `stallNs`, 2 µs or more, within the TLP's transmission.
The ingress delivers the request again (R120). -/
def execFabricStallStomp (x : PortFor) (s : State) : Host.Outcome State Fault Refusal :=
  .next (match (s.port x.port).sched.txing.bind (findDesc s) with
    | some d =>
      if s.isFabric x.port ∧ 2000 ≤ x.ns ∧ (s.port x.port).sched.cutAt + x.ns ≤ s.clock then cutShort (holdFlits s x.port) x.port d false else s
    | none => s)

/-- An overrun is counted and reported (R178). -/
def overrun (s : State) (p : Nat) : State := reportPort ((s.setEvt (offSch p 0x20) 0).bump (offSch p 0x24)) p 0x50

/-- A transmission ends `n` ns later than it was noted to: an overrun where that takes it past its close (R178). -/
def lateBy (s : State) (p n : Nat) : State :=
  match (s.port p).sched.last with
  | none => s
  | some x =>
    let late := match x.close with | some c => decide (c < x.end_ + n) | none => false
    let s := s.modSched p (fun q => { q with last := some { x with end_ := x.end_ + n, close := if late then none else x.close } })
    if late then overrun s p else s

/-! Closing of descriptors (R115, R118 to R120). -/

/-- The request will be delivered again, or its link is down, but not lost inside the device (R120). -/
def lostInside (r : CloseReason) : Bool := match r with | .doubleBit _ => true | _ => false

/-- A TLP whose trailer carries STOMP has ended bad at the chip before this one (R118). -/
def stomped (f : Option Farug) : Bool := match f with | some f => f.stomp | none => false

/-- A TLP still in staging closes. It has no cell yet that a read could find bad. -/
def closeStaged (s : State) (id : Nat) (r : CloseReason) : State :=
  if lostInside r then s
  else if r = .good ∧ !(s.staging.any (fun x => x.id == id && stomped x.farug)) then modStaged s id (fun x => { x with isOpen := false })
  else unstage s id

/-- The descriptor of a TLP in transmission closes good after a stall of `n` ns: sending resumes, unless the stall reached 2 µs, when the TLP
was stomped (R118, R119). -/
def endStall (s : State) (p : Nat) (d : Desc) (n : Nat) : State :=
  let n := if s.isFabric p then min n (s.clock - (s.port p).sched.cutAt) else 0
  let s := if n = 0 then s else holdFlits s p
  if 2000 ≤ n then cutShort s p d false
  else removeDesc ((lateBy s p n).emit (.tlp p d.tlp (if s.isFabric p then d.farug else none) false)) d

/-- The descriptor for which a slot is held closes good: it is sent at once if its gate is open and the guard check passes, else the slot is
released and counted (R116, R177). While the link is not in L0 no TLP starts (R178), and the slot is released. DEDUCED, log entry 88. -/
def endHold (s : State) (p : Nat) (d : Desc) : State :=
  let s := gatesNow (s.modSched p (fun y => { y with held := none })) p
  let c := d.tlp.tc.toNat
  if (s.port p).link.ltssm ≠ .l0 then s
  else if gateOpen s p c && guardOk s p c (stationTime s p) d.bytes then sendWhole s d
  else
    let s := s.bump (offPrt p 0x5C)
    if gateOpen s p c then countRefusedOne s p d.id else s

/-- A descriptor closes; its transmission, if it is under way on a fabric egress, stalled for `n` ns before. -/
def closeDesc (s : State) (d : Desc) (r : CloseReason) (n : Nat) : State :=
  let p := d.egress
  let q := (s.port p).sched
  if r = .good ∧ !stomped d.farug then
    let s := modDesc s d.id (fun y => { y with isOpen := false, released := false })
    let d := { d with isOpen := false, released := false }
    if q.txing = some d.id then endStall s p d n
    else if q.held = some d.id then endHold s p d
    else s
  else
    let s := match r with | .doubleBit i => eccSeen s d.owner p (cellBanks s d) (some (i, true)) (farDest d.farug) | _ => s
    if q.txing = some d.id then cutShort s p d (lostInside r) else discardUnsent s d (lostInside r)

/-- The parked copies of a write close with it; where none is left toward a destination, its fallback clears (R151). -/
def closeParked (s : State) (id : Nat) (good : Bool) : State :=
  let close (l : List Parked) : List Parked :=
    if good then l.map (fun x => if x.origin = id then { x with isOpen := false } else x)
    else l.filter (fun x => x.origin != id)
  let freed (g : Group) (l : List Parked) : W64 :=
    BitVec.ofNat 64 (bitmap 64 (fun k => g.parked.any (fun x => x.dest == k) && !l.any (fun x => x.dest == k)))
  { s with groups := s.groups.map (fun e =>
      let l := close e.2.parked
      (e.1, { e.2 with parked := l, fallback := e.2.fallback &&& ~~~ freed e.2 l })) }

/-- A waiting multicast write closes: one that ends bad is discarded. -/
def closeWaits (s : State) (id : Nat) (good : Bool) : State :=
  if good then { s with mcWaits := s.mcWaits.map (fun w => if w.x.id = id then { w with x := { w.x with isOpen := false } } else w) }
  else (s.mcWaits.filter (fun w => w.x.id == id)).foldl (fun a w => mcUnref a w.entry)
    { s with mcWaits := s.mcWaits.filter (fun w => w.x.id != id) }

/-- DESCRIPTOR_CLOSE: the TLP, or every copy of it, closes good or bad; a link's own error is reported by its rows of
Table 10.2 (R119). -/
def closeAll (s : State) (id : Nat) (r : CloseReason) (stallNs : Nat := 0) : State :=
  let s := { s with ended := s.ended.filter (fun x => x.id != id && x.origin != id) }
  if s.staging.any (fun x => x.id == id && x.isOpen) then closeStaged s id r
  else if s.mcWaits.any (fun w => w.x.id == id && w.x.isOpen) then closeWaits s id (r == .good)
  else
    let l := s.descs.filter (fun d => (d.id == id || d.origin == id) && d.isOpen)
    let s := l.foldl (fun a d => closeDesc a d r stallNs) (closeParked s id (r == .good))
    { s with ended := s.ended.filter (fun x => x.id != id && x.origin != id) }

def ingressOf (s : State) (id : Nat) : Nat :=
  match s.staging.find? (fun x => x.id == id) with
  | some x => x.ingress
  | none =>
    match s.mcWaits.find? (fun w => w.x.id == id), s.descs.find? (fun d => d.id == id || d.origin == id) with
    | some w, _ => w.x.ingress
    | none, some d => d.ingress
    | none, none => match s.ended.find? (fun x => x.id == id || x.origin == id) with | some x => x.ingress | none => 0x7F

/-- DESCRIPTOR_CLOSE; `stallNs` is for how long a fabric egress that is sending the TLP had waited for its cells. -/
def execDescriptorClose (id : Nat) (c : Closing) (s : State) : Host.Outcome State Fault Refusal :=
  let p := ingressOf s id
  let s := closeAll s id c.reason c.stallNs
  .next (match c.reason with
    | .lcrc => if p < 80 then linkError (s.bump (offPrt p 0x14)) p false aerBadTlp else s
    | _ => s)

end Sys2Proof.Machine
end

