-- ==== Sys2Proof/Machine/Route.lean ====
section
/-! DEFINITION. Classification, the address and ID maps of a VH, ACS and the route verdict (R104 to R114, R144, R197, R202,
R237, R238). -/

namespace Sys2Proof.Machine

/-! Classification (R105, R106). -/

/-- An entry of port `p` matches a Requester ID and PASID. -/
def clsMatches (p : Nat) (rid : W16) (pasid : Option Pasid) (e : ClsEntry) : Bool :=
  e.port == p && decide (e.ridLo ≤ rid.toNat) && decide (rid.toNat ≤ e.ridHi)
    && (match pasid with
      | none => e.nopasid
      | some q => !e.nopasid && decide (e.pasidLo ≤ q.value.toNat) && decide (q.value.toNat ≤ e.pasidHi))

/-- The classification table: every entry with its tenant, but for those that an eviction disabled (R203). -/
def clsTable (s : State) : List (Nat × ClsEntry) :=
  (s.cfg.tenants.map (fun t => if (tfind s.evict t.1).isSome then [] else t.2.cls.map (fun e => (t.1, e)))).flatten

/-- The tenant of a request, with the TRUSTED flag of its entry. -/
def classify (s : State) (p : Nat) (rid : W16) (pasid : Option Pasid) : Option (Nat × Bool) :=
  ((clsTable s).find? (fun e => clsMatches p rid pasid e.2)).map (fun e => (e.1, e.2.trusted))

/-- The tenant of an untracked completion toward upstream port `p` (Table 4.1): its NOPASID entry, else the matching entry
with the lowest PASID range. -/
def cplTenant (s : State) (p : Nat) (rid : W16) : Option Nat :=
  let l := (clsTable s).filter (fun e => e.2.port == p && decide (e.2.ridLo ≤ rid.toNat) && decide (rid.toNat ≤ e.2.ridHi))
  match l.find? (fun e => e.2.nopasid) with
  | some e => some e.1
  | none => (l.foldl (fun (b : Option (Nat × ClsEntry)) e => match b with
      | none => some e
      | some x => if e.2.pasidLo < x.2.pasidLo then some e else some x) none).map (·.1)

/-- Tenants whose entries name a port. -/
def portTenants (s : State) (p : Nat) : List Nat :=
  ((s.cfg.tenants.filter (fun t => t.2.cls.any (fun e => e.port == p))).map (·.1))

/-! Functions of the device in a VH (R197, R237, R238). -/

/-- WINDOW_LOG2 of the pool; the record's default without one. -/
def windowLog2 (s : State) : Nat := match s.cfg.pool with | some r => r.windowLog2 | none => 34

/-- Functions that the device presents on the primary bus. -/
def hasFunction (s : State) (vn f : Nat) : Bool :=
  f == 0 || (f == 1 && vn == s.device.managerVh) || (decide (2 ≤ f) && !(vhTenants s vn).isEmpty && decide (f < 3 + (vhTenants s vn).length))

/-! Address maps (R109, R144). -/

/-- What an address decodes to in a VH. -/
inductive Hit where
  | mf (bar off : Nat)
  | vf (t bar off : Nat)
  | ds (x : PortChip)
  | none
  deriving DecidableEq, Repr

def inWindow (l : List (Nat × Nat)) (a : Nat) : Bool := l.any (fun w => decide (w.1 ≤ a) && decide (a ≤ w.2))

def barOff (base : Option Nat) (size a : Nat) : Option Nat :=
  match base with | some b => if b ≤ a ∧ a < b + size then some (a - b) else none | none => none

/-- The MF's BARs: BAR0 of 16 MiB and BAR2 of 2 MiB. -/
def mfHit (s : State) (vn a : Nat) : Option (Nat × Nat) :=
  if vn ≠ s.device.managerVh then none
  else match barOff (s.vh vn).mfBar0 0x1000000 a with
    | some o => some (0, o)
    | none => (barOff (s.vh vn).mfBar2 0x200000 a).map (fun o => (2, o))

/-- The BARs of a tenant's VF, decoded while VF Memory Space Enable is set. -/
def vfHitOf (s : State) (t a : Nat) : Option (Nat × Nat × Nat) :=
  match barOff (s.vf t).bar0 0x20000 a with
  | some o => some (t, 0, o)
  | none => (barOff (s.vf t).bar2 (2 ^ windowLog2 s) a).map (fun o => (t, 2, o))

def vfHit (s : State) (vn a : Nat) : Option (Nat × Nat × Nat) :=
  if (s.vh vn).vfMem then (vhTenants s vn).findSome? (fun t => vfHitOf s t a) else none

/-- The downstream bridge whose window holds an address; from above only within the upstream bridge's own window. -/
def dsHit (s : State) (v : VhRec) (up io : Bool) (a : Nat) : Option PortChip :=
  let win (b : Bridge) := if io then b.ioWin else b.memWin
  let ok := !up || inWindow (win (s.bridge (bridgeKey s { port := v.upPort, chip := v.upChip }))) a
  if ok then v.ds.find? (fun x => inWindow (win (s.bridge (bridgeKey s x))) a) else none

def memHit (s : State) (vn : Nat) (v : VhRec) (up : Bool) (a : Nat) : Hit :=
  match mfHit s vn a with
  | some (b, o) => .mf b o
  | none =>
    match vfHit s vn a with
    | some (t, b, o) => .vf t b o
    | none => match dsHit s v up false a with | some x => .ds x | none => .none

/-- The VH index that an address selects: the standard window first, then the extended one (R144, R158). -/
def mcIndex (s : State) (vn a : Nat) : Option Nat :=
  let v := s.vh vn
  let b := v.mcBase.toNat
  let x := v.mcxBase.toNat
  if v.mcEnable ∧ b ≤ a ∧ a < b + (v.mcNumGroup + 1) * 2 ^ v.mcIndexPos then some ((a - b) / 2 ^ v.mcIndexPos)
  else if v.mcxEnable ∧ x ≤ a ∧ a < x + v.mcxCount * 2 ^ v.mcxIndexPos then some ((a - x) / 2 ^ v.mcxIndexPos)
  else none

/-- The group of a VH index. -/
def groupOf (s : State) (vn i : Nat) : Option (Nat × McastRec) := s.cfg.mcasts.find? (fun e => e.2.vh == vn && e.2.vhIndex == i)

/-! Bus numbers. -/

/-- What a bus number decodes to: the device's own functions, a bridge of the internal bus, or a port below. -/
inductive BusHit where
  | own | internal (i : Nat) | below (x : PortChip) (type0 : Bool) | none
  deriving DecidableEq, Repr

def inBusRange (b : Bridge) (n : Nat) : Bool := decide (b.secondary ≤ n) && decide (n ≤ b.subordinate)

/-- The downstream bridge whose range holds a bus number. -/
def busBelow (s : State) (v : VhRec) (n : Nat) : Option PortChip := v.ds.find? (fun x => inBusRange (s.bridge (bridgeKey s x)) n)

def busHit (s : State) (vn : Nat) (v : VhRec) (id : W16) : BusHit :=
  let n := id.toNat / 256
  let up := s.bridge (bridgeKey s { port := v.upPort, chip := v.upChip })
  if n = (s.vh vn).primaryBus then (if hasFunction s vn (id.toNat % 256) then .own else .none)
  else if !inBusRange up n then .none
  else if n = up.secondary then (if id.toNat / 8 % 32 < v.ds.length ∧ id.toNat % 8 = 0 then .internal (id.toNat / 8 % 32) else .none)
  else match busBelow s v n with
    | some x => .below x (n == (s.bridge (bridgeKey s x)).secondary)
    | none => .none

/-! The verdict. -/

/-- What the route stage decides for a classified request. -/
inductive Verdict where
  | goes (d : Dest) (type0 : Bool)          -- `type0`: a configuration request that becomes Type 0
  | many (l : List PortChip)              -- a message broadcast from the root complex
  | own                                   -- the device's own configuration space
  | consumed                              -- a message local to the receiver
  | drop                                  -- dropped without an error
  | ur (kind bit : Nat) (d : Option PortChip)
  | gate (x : PortChip) (matched : Bool) (cause firstBad region : Nat)
  | mfGate (gate off : Nat) (matched : Bool) (cause firstBad region : Nat)
  | vfBar (t off : Nat)
  | noGroup (i : Nat)
  | wrongTenant (g : Nat)
  deriving DecidableEq, Repr

def toPort (s : State) (x : PortChip) : Dest := if x.chip = s.chipId then .port x.port else .remote x.chip x.port

def toUp (s : State) (v : VhRec) : Dest := toPort s { port := v.upPort, chip := v.upChip }

/-- The P2P window gate of a target port of this chip (R114); a remote target is checked at its own chip (R111). -/
def p2pGate (s : State) (x : PortChip) (o : Owner) (trusted : Bool) (t : Tlp) : GateResult :=
  if x.chip = s.chipId ∧ o ≠ ownerM then p2pCheck s x.port o trusted t else .pass

/-- What a downstream bridge refuses on its way out: AtomicOps and End-End prefixes (Table 10.2). -/
def egressBlock (s : State) (x : PortChip) (t : Tlp) : Option Verdict :=
  let b := s.bridge (bridgeKey s x)
  if t.kind = .atomic ∧ b.atomicBlock then some (.ur 0x39 aerAtomic (some x))
  else if b.prefixBlock ∧ (t.pasid.isSome ∨ t.prefixes ≠ []) then some (.ur 0x39 aerPrefix (some x))
  else none

def toBridge (s : State) (x : PortChip) (t : Tlp) (type0 : Bool) : Verdict :=
  match egressBlock s x t with | some v => v | none => .goes (toPort s x) type0

def acsBit (s : State) (p i : Nat) : Bool := (s.bridge p).acsCtl.getLsbD i

/-- Source Validation is in force at a downstream port: enabled, or imposed by R201. -/
def sourceValidation (s : State) (p : Nat) : Bool := acsBit s p 0 || decide (1 < (portTenants s p).length)

/-- The index of a port in a VH's list. -/
def dsIndex (v : VhRec) (x : PortChip) : Nat := v.ds.idxOf x

/-- A request from downstream port `p` to peer `x` (Table 4.3, R114). -/
def peerVerdict (s : State) (v : VhRec) (p : Nat) (x : PortChip) (o : Owner) (trusted : Bool) (t : Tlp) : Verdict :=
  let rr := acsBit s p 2
  let ec := acsBit s p 5
  let hit := w32Bit (s.bridge p).egressVec (dsIndex v x)
  let direct := (t.addrType = 2 ∧ acsBit s p 6) ∨ (if ec then !hit else !rr)
  if direct then
    match p2pGate s x o trusted t with
    | .pass => toBridge s x t false
    | .reject m c b n => if rr then .goes (toUp s v) false else .gate x m c b n
  else if ec ∧ hit ∧ !rr then .ur 0x38 aerAcs (some x)
  else .goes (toUp s v) false

/-- The downstream port of the VH from below which a Requester ID comes. -/
def belowOf (s : State) (v : VhRec) (rid : W16) : Option PortChip := busBelow s v (rid.toNat / 256)

/-- A request that enters at the upstream port toward a downstream port: one that ACS redirected is forwarded only under
Upstream Forwarding, and meets the same gate (Table 4.3, R114). -/
def downVerdict (s : State) (v : VhRec) (x : PortChip) (o : Owner) (trusted : Bool) (t : Tlp) : Verdict :=
  match belowOf s v t.rid with
  | none => toBridge s x t false
  | some y =>
    if (s.bridge (bridgeKey s y)).acsCtl.getLsbD 4 then
      match p2pGate s x o trusted t with
      | .pass => toBridge s x t false
      | .reject m c b n => .gate x m c b n
    else .ur 0x38 aerAcs (some x)

/-- A request for downstream port `x`: from above, or from its peer port `p` (R109, R114). -/
def bridgeVerdict (s : State) (v : VhRec) (p : Nat) (up : Bool) (x : PortChip) (o : Owner) (trusted : Bool) (t : Tlp) : Verdict :=
  if up then downVerdict s v x o trusted t
  else if x.port = p ∧ x.chip = s.chipId then .ur 0x35 aerUr none
  else peerVerdict s v p x o trusted t

/-- A request to the MF's BARs meets gate 2 or 3, at the offset; M passes (R212, R213). -/
def mfVerdict (s : State) (o : Owner) (trusted : Bool) (t : Tlp) (bar off : Nat) : Verdict :=
  let g := if bar = 0 then 2 else 3
  if o = ownerM then .goes .housekeeping false
  else match gateCheck s g o (isPriv t trusted) (needOf t.kind (isExe t)) off (accessLen t) with
    | .pass => .goes .housekeeping false
    | .reject m c b n => .mfGate g off m c b n

/-- A request of owner `o` whose address selects index `i` of the VH's multicast windows (R144). -/
def mcVerdict (s : State) (vn i : Nat) (o : Owner) (t : Tlp) : Verdict :=
  if t.kind = .mwr then
    match groupOf s vn i with
    | some (g, m) => if m.tenant = o then .goes (.group g) false else .wrongTenant g
    | none => .noGroup i
  else .ur 0x35 aerUr none

/-- A write to an index that names no group is counted, dropped and reported (R144). -/
def noGroupDrop (s : State) (o : Owner) (p : Nat) : State := report (s.bump (offMcgA 0x10004)) 0x0A 0 0x40 (some o) p

/-- A write to another tenant's group is dropped and reported (R144). -/
def wrongTenantDrop (s : State) (g : Nat) (o : Owner) (p : Nat) : State :=
  report (s.setEvt (offMcg g 0x24) 2) 0x0A (g % 256) 0x41 (some o) p

/-- A memory or atomic request, or a message routed by address. -/
def addrVerdict (s : State) (vn : Nat) (v : VhRec) (p : Nat) (up : Bool) (o : Owner) (trusted : Bool) (t : Tlp) : Verdict :=
  let a := t.addr.toNat
  match mcIndex s vn a with
  | some i => mcVerdict s vn i o t
  | none =>
    match memHit s vn v up a with
    | .mf b off => mfVerdict s o trusted t b off
    | .vf u _ off => if u = o ∧ (tfind s.evict u).isNone then .goes .crucible false else .vfBar u off
    | .ds x => bridgeVerdict s v p up x o trusted t
    | .none => if up then .ur 0x35 aerUr none else .goes (toUp s v) false

def ioVerdict (s : State) (v : VhRec) (p : Nat) (up : Bool) (o : Owner) (trusted : Bool) (t : Tlp) : Verdict :=
  match dsHit s v up true t.addr.toNat with
  | some x => bridgeVerdict s v p up x o trusted t
  | none => if up then .ur 0x35 aerUr none else .goes (toUp s v) false

def cfgVerdict (s : State) (vn : Nat) (v : VhRec) (up : Bool) (t : Tlp) : Verdict :=
  if !up then .ur 0x35 aerUr none
  else match busHit s vn v t.cid with
    | .own => .own
    | .internal _ => .own
    | .below x b => toBridge s x t b
    | .none => .ur 0x35 aerUr none

/-- Messages (Table 4.2). ERR messages from below pass only where SERR# Enable allows them (R295). -/
def msgVerdict (s : State) (vn : Nat) (v : VhRec) (p : Nat) (up : Bool) (o : Owner) (trusted : Bool) (t : Tlp) : Verdict :=
  match t.route with
  | .toRoot =>
    if up then .ur 0x35 aerUr none
    else if t.msgCode ∈ [0x30, 0x31, 0x33] ∧ !(s.bridge p).brSerr then .drop
    else .goes (toUp s v) false
  | .broadcast => if up then .many v.ds else .ur 0x35 aerUr none
  | .local => .consumed
  | .byId =>
    match busHit s vn v t.cid with
    | .own => .consumed
    | .internal _ => .consumed
    | .below x _ => bridgeVerdict s v p up x o trusted t
    | .none => if up then .ur 0x35 aerUr none else .goes (toUp s v) false
  | .byAddr => addrVerdict s vn v p up o trusted t

/-- A request whose source or address type ACS refuses at a downstream port (Table 4.3, R201). -/
def acsRefuses (s : State) (p : Nat) (t : Tlp) : Bool :=
  (sourceValidation s p && !inBusRange (s.bridge p) (t.rid.toNat / 256)) || (acsBit s p 1 && isMem t.kind && t.addrType != 0)

/-- The route stage for a classified request that entered at port `p` (R109, R110, R114). -/
def routeVerdict (s : State) (p : Nat) (o : Owner) (trusted : Bool) (t : Tlp) : Verdict :=
  match vhOfPort s p with
  | none => .ur 0x35 aerUr none
  | some vn =>
    match s.vhRec vn with
    | none => .ur 0x35 aerUr none
    | some v =>
      let up := s.isUp p
      if !up ∧ acsRefuses s p t then .ur 0x38 aerAcs none
      else match t.kind with
        | .mrd | .mwr | .dmwr | .atomic => addrVerdict s vn v p up o trusted t
        | .iord | .iowr => ioVerdict s v p up o trusted t
        | .cfgrd0 | .cfgwr0 | .cfgrd1 | .cfgwr1 => cfgVerdict s vn v up t
        | .msg => msgVerdict s vn v p up o trusted t
        | .cpl => .drop

/-! Completions (R110, Table 4.3). -/

/-- Where a completion goes by its Requester ID within VH `v`; from downstream port `p` a peer's completion is redirected
unless its Relaxed Ordering bit is set. -/
def cplDest (s : State) (v : VhRec) (p : Nat) (up : Bool) (t : Tlp) : Option Dest :=
  match busBelow s v (t.rid.toNat / 256) with
  | some x =>
    if !up ∧ acsBit s p 3 ∧ !t.relaxed then some (toUp s v)
    else if x.port = p ∧ x.chip = s.chipId then none else some (toPort s x)
  | none => if up then none else some (toUp s v)

/-- The engine's host requests are routed in the tenant's VH (R241), with its multicast windows and the gate of its target: where a request of
crossbar port 10 goes. -/
def engineDest (s : State) (t : Nat) (q : Tlp) : Verdict :=
  match s.tenantRec t with
  | none => .ur 0x35 aerUr none
  | some r =>
    match s.vhRec r.vh with
    | none => .ur 0x35 aerUr none
    | some v =>
      match mcIndex s r.vh q.addr.toNat with
      | some i => mcVerdict s r.vh i t q
      | none =>
        match memHit s r.vh v false q.addr.toNat with
        | .mf b off => mfVerdict s t false q b off
        | .vf u _ off => if u = t ∧ (tfind s.evict u).isNone then .goes .crucible false else .vfBar u off
        | .ds x =>
          match p2pGate s x t false q with
          | .pass => toBridge s x q false
          | .reject m c b n => .gate x m c b n
        | .none => .goes (toUp s v) false

end Sys2Proof.Machine
end

