-- ==== Sys2Proof/Machine/Crucible.lean ====
section
/-! DEFINITION. The Crucible memory pool: channels, lots, windows, the descriptor engine and notifications (R225 to R251). -/

namespace Sys2Proof.Machine

/-! Window accesses (R230, R231). -/

/-- What R230 finds for an access. -/
inductive Access where
  | ok (c a : Nat)
  | window (cause : Nat)
  | gate (c a : Nat) (matched : Bool) (cause firstBad region : Nat)
  deriving DecidableEq, Repr

/-- Translation and checks of an access of tenant `t` at window offset `o`, `n` bytes (R230). -/
def translate (s : State) (t o n : Nat) (k : TlpKind) (priv exe : Bool) : Access :=
  match windowLot s t (o / 2 ^ 26) with
  | none => .window 1
  | some l =>
    if chanLost s (l / 4096) then .window 4
    else if lotState s l ≠ 3 then .window 2
    else if k ≠ .mrd ∧ (s.lot l).owner ≠ t then .window 3
    else
      let a := l % 4096 * 2 ^ 26 + o % 2 ^ 26
      match gateCheck s (l / 4096) t priv (needOf k exe) a n with
      | .pass => .ok (l / 4096) a
      | .reject m c b r => .gate (l / 4096) a m c b r

/-- A window rejection's effects on the control page, and its report (R231). -/
def windowReject (s : State) (t o cause : Nat) (hdr : Option Tlp) : State :=
  let s := s.modVf t (fun v => { v with winRej := w32 (sat32 v.winRej.toNat 1), winLast := o, winCause := cause })
  flowError (raiseVf s t 4) 0x0B 0x4A (if cause = 4 then aerCa else aerUr) t 0x7F none hdr

/-- A rejection by R230, for an access of `t` with Requester ID `rid`. -/
def denyAccess (s : State) (t o : Nat) (k : TlpKind) (priv exe : Bool) (rid : W16) (hdr : Option Tlp) (r : Access) : State :=
  match r with
  | .ok _ _ => s
  | .window c => windowReject s t o c hdr
  | .gate g a m c b n =>
    gateReject s 0x0B 0x7F t none hdr { gate := g, tenant := t, kind := k, priv := priv, exe := exe, rid := rid, start := a } m c b n

/-- The completion status that a rejection gives (Table 8.1, Table 7.6). -/
def denyStatus (r : Access) : CplStatus :=
  match r with
  | .ok _ _ => .sc
  | .window c => if c = 4 then .ca else .ur
  | .gate _ _ m _ _ _ => if m then .ca else .ur

/-! Pool memory. -/

/-- A byte of a memory write is enabled. -/
def byteEnabled (t : Tlp) (n i : Nat) : Bool :=
  if i < 4 then t.firstBe.getLsbD i else if n ≤ i + 4 then t.lastBe.getLsbD (i + 4 - n) else true

/-- Writes enabled bytes from pool address `x` on. -/
def poolPut (m : List Host.Cell) : Nat → List (Option Byte) → List Host.Cell
  | _, [] => m
  | x, none :: r => poolPut m (x + 1) r
  | x, some b :: r => poolPut (tset 0 m x b) (x + 1) r

/-- The poisoned lines of a range. -/
def poisonedIn (s : State) (c a n : Nat) : List Nat :=
  s.poison.filter (fun k => decide (poolAddr c a < k + 64) && decide (k < poolAddr c a + n))

/-- A line poisoned earlier is read: it is uncorrectable again. -/
def countPoison (s : State) (k : Nat) : State :=
  countUe s (poolChan k) (k % 2 ^ 38 / 64) (ownerOpt s (4096 * poolChan k + k % 2 ^ 38 / 2 ^ 26))

/-- The part of a write in one line: a shorter write into a poisoned line is dropped and counted (R247). -/
def writeLine (s : State) (x : Nat) (l : List (Option Byte)) : State :=
  let k := x / 64 * 64
  if s.poison.contains k then
    if l.length = 64 ∧ l.all (·.isSome) then { s with poison := s.poison.filter (· != k), poolMem := poolPut s.poolMem x l }
    else countPoison s k
  else { s with poolMem := poolPut s.poolMem x l }

/-- A write of enabled bytes, line by line. -/
def writeLines (s : State) (x : Nat) (l : List (Option Byte)) : Nat → State
  | 0 => s
  | k + 1 =>
    if l = [] then s
    else
      let n := 64 - x % 64
      writeLines (writeLine s x (l.take n)) (x + n) (l.drop n) k

def poolWrite (s : State) (c a : Nat) (l : List (Option Byte)) : State :=
  writeLines (touchChan s c) (poolAddr c a) l (l.length / 64 + 2)

/-- A read of a range: what it meets there, its data, and whether that is uncorrectable. -/
def poolRead (s : State) (c a n : Nat) (err : Option LineError) : State × List Byte × Bool :=
  let s := touchChan s c
  let inRange (k : Nat) : Bool := decide (a < 64 * k + 64) && decide (64 * k < a + n)
  let s := match err with
    | some (.correctable k) => if inRange k then countCe s c else s
    | some (.uncorrectable k) => if inRange k then poisonLine s c k else s
    | none => s
  let fresh : Nat → Bool := fun k => match err with | some (.uncorrectable e) => k == poolAddr c (64 * e) | _ => false
  let bad := poisonedIn s c a n
  let s := (bad.filter (fun k => !fresh k)).foldl countPoison s
  (s, memRead s.poolMem (poolAddr c a) n, !bad.isEmpty)

/-! Completions and atomics. -/

/-- The MPS that the host of tenant `t`'s VH has programmed. -/
def mpsOf (s : State) (t : Nat) : Nat := match s.tenantRec t with | some r => (s.vh r.vh).mps | none => 128

/-- The completions of a read, cut at MPS boundaries. -/
def readCpls (q : Tlp) (cid : W16) (mps a : Nat) (data : List Byte) (bad : Bool) : Nat → List Tlp
  | 0 => []
  | k + 1 =>
    if data = [] then []
    else
      let n := mps - a % mps
      { mkCpl q q.tag cid .sc data.length with data := data.take n, len := min n data.length, addr := w64 (a % 128), poisoned := bad }
        :: readCpls q cid mps (a + n) (data.drop n) bad k

/-- The result of an atomic over the old value; a CAS carries the compare operand first. -/
def atomicNew (op : AtomicOp) (w old : Nat) (arg : List Byte) : Nat :=
  match op with
  | .fetchAdd => (old + leAt arg 0 w) % 2 ^ (8 * w)
  | .swap => leAt arg 0 w
  | .cas => if old = leAt arg 0 w then leAt arg w w else old

/-- A completion that the Crucible controller forms for a request from `src`. -/
def cruAnswer (s : State) (src : Src) (t : Nat) (c : Tlp) : State := answer s 10 0x7E src t c

/-- An access that passed its checks is served (R230, R247). -/
def serveOk (s : State) (t : Nat) (src : Src) (q : Tlp) (err : Option LineError) (c a : Nat) : State :=
  let cid := vfRid s t
  match q.kind with
  | .mwr => poolWrite s c a (q.data.zipIdx.map (fun x => if byteEnabled q q.data.length x.2 then some x.1 else none))
  | .atomic =>
    let w := atomicWidth q
    let (s, old, bad) := poolRead s c a w err
    if bad then flowError (cruAnswer s src t (mkCpl q q.tag cid .ca w)) 0x0B 0x36 aerCa t 0x7F none (some q)
    else
      let s := poolWrite s c a ((leBytes w (atomicNew q.atomicOp w (leNat old) q.data)).map some)
      cruAnswer s src t { mkCpl q q.tag cid .sc w with data := old, len := w }
  | _ =>
    let (s, data, bad) := poolRead s c a q.len err
    (readCpls q cid (mpsOf s t) a data bad (q.len / mpsOf s t + 2)).foldl (fun s x => cruAnswer s src t x) s

/-- An access of tenant `t` at offset `o` of its window, from `src` (R230). The VF completes no deferrable memory write: UR (log entry 85). -/
def serveWindow (s : State) (t o : Nat) (src : Src) (trusted : Bool) (q : Tlp) (err : Option LineError) : State :=
  let priv := isPriv q trusted
  if q.kind = .dmwr then flowError (cruAnswer s src t (mkCpl q q.tag (vfRid s t) .ur 4)) 0x0B 0x35 aerUr t 0x7F none (some q)
  else match translate s t o (accessLen q) q.kind priv (isExe q) with
  | .ok c a => serveOk s t src q err c a
  | r =>
    let s := denyAccess s t o q.kind priv (isExe q) q.rid (some q) r
    if q.kind = .mwr then s else cruAnswer s src t (mkCpl q q.tag (vfRid s t) (denyStatus r) (accessLen q))

/-- The request of a window access. -/
def winTlp (a : WinAccess) : Tlp :=
  { kind := a.kind, tc := a.tc, rid := a.rid, tag := a.tag, addr := w64 a.offset, len := a.len, data := a.data,
    atomicOp := a.op, pasid := if a.exe then some { value := 0, priv := a.priv, exe := true } else none }

/-- POOL_WINDOW_ACCESS: the access of tenant `t`'s requester at a port reaches the controller. -/
def execPoolWindowAccess (t : TenantId) (a : WinAccess) (s : State) : Host.Outcome State Fault Refusal :=
  .next (if s.inRunModes ∧ (s.tenantRec t).isSome ∧ (tfind s.evict t).isNone ∧ isMem a.kind then
      serveWindow s t a.offset { chip := s.chipId, port := a.port } a.priv (winTlp a) a.err
    else s)

/-! The descriptor engine (R240 to R245). -/

/-- A field of ring entry `e`: `n` bytes from byte `o`. -/
def descField (v : Vf) (e o n : Nat) : Nat :=
  leAt (((List.range 8).map (fun i => leBytes 4 (tget 0 v.ring (8 * e + i)).toNat)).flatten) o n

def descOp (v : Vf) (e : Nat) : Nat := descField v e 0 1
def descFence (v : Vf) (e : Nat) : Bool := bitN (descField v e 1 1) 0
def descIrq (v : Vf) (e : Nat) : Bool := bitN (descField v e 1 1) 1
def descLen (v : Vf) (e : Nat) : Nat := descField v e 4 4
def descSrc (v : Vf) (e : Nat) : Nat := descField v e 8 8
def descDst (v : Vf) (e : Nat) : Nat := descField v e 16 8
def descTag (v : Vf) (e : Nat) : Nat := descField v e 24 4 % 2 ^ 20
def descList (v : Vf) (e : Nat) : Nat := descSrc v e % 16

/-- The source and destination of a P2P copy meet. -/
def overlaps (v : Vf) (e : Nat) : Bool :=
  decide (descSrc v e < descDst v e + descLen v e) && decide (descDst v e < descSrc v e + descLen v e)

/-- The status with which a descriptor fails before it does anything, 0 for none (Table 8.6). -/
def descFault (s : State) (t e : Nat) : Nat :=
  let v := s.vf t
  let op := descOp v e
  let copies := op = 1 ∨ op = 2 ∨ op = 3
  if 4 < op ∨ descField v e 1 1 / 4 ≠ 0 ∨ descField v e 3 1 ≠ 0 ∨ descField v e 28 4 ≠ 0
      ∨ (copies ∧ (descLen v e = 0 ∨ 67108864 < descLen v e)) ∨ (op = 3 ∧ overlaps v e) then 6
  else if op = 4 then
    match (poolRec s).fanout[descList v e]? with
    | some f => if f.producer = t then 0 else 7
    | none => 7
  else 0

def modJob (s : State) (t e : Nat) (f : Job → Job) : State :=
  s.modVf t (fun v => { v with jobs := v.jobs.map (fun j => if j.entry = e then f j else j) })

/-- The first failure of a descriptor stands. -/
def failJob (s : State) (t e st : Nat) : State := modJob s t e (fun j => if j.fail = 0 then { j with fail := st } else j)

/-- A request of tenant `t` to another tenant's VF, or an evicted one's (R202): a write is counted, logged and reported as a gate
rejection; a read or atomic is an Unsupported Request. -/
def rejectVfBar (s : State) (src p t : Nat) (trusted : Bool) (q : Tlp) (off : Nat) : State :=
  if q.kind = .mwr then
    rejectAt s src { gate := Config.vfBarGate.toNat, tenant := t, kind := q.kind, priv := isPriv q trusted, exe := isExe q, vfBar := true,
                     rid := q.rid, start := off }
      6 off 0xFF (fun a => flowError a src 0x49 aerUr t p none (some q))
  else flowError s src 0x35 aerUr t p none (some q)

/-- A host request of the engine: staged at crossbar port 10, or refused (R241). It answers whether it was sent. -/
def hostRequest (s : State) (t : Nat) (q : Tlp) : State × Bool :=
  let src : Src := { chip := s.chipId, port := 0x7E }
  match engineDest s t q with
  | .goes d _ => (present s 10 src t d q, true)
  | .gate x m c b n =>
    (gateReject s 0x0B 0x7F t (some x) (some q)
      { gate := gateP2P x.port, tenant := t, kind := q.kind, rid := q.rid, start := q.addr.toNat } m c b n, false)
  | .ur k bit d => (flowError s 0x0B k bit t 0x7F d (some q), false)
  | .mfGate g off m c b n =>
    (gateReject s 0x0B 0x7F t none (some q) { gate := g, tenant := t, kind := q.kind, rid := q.rid, start := off } m c b n, false)
  | .noGroup _ => (noGroupDrop s t 0x7F, false)
  | .wrongTenant g => (wrongTenantDrop s g t 0x7F, false)
  | .vfBar _ off => (rejectVfBar s 0x0B 0x7F t false q off, false)
  | _ => (s, false)

/-- The first descriptor with host reads left to issue. -/
def nextReadJob (v : Vf) : Option Job :=
  v.jobs.find? (fun j => descOp v j.entry == 1 && j.fail == 0 && decide (j.issued < descLen v j.entry))

/-- A tag that no outstanding read of the VF uses. -/
def freeReadTag (v : Vf) : Nat := ((List.range 65).find? (fun g => v.reads.all (fun r => r.tag != g))).getD 64

/-- One host read is issued, cut at Max_Read_Request_Size. -/
def issueOne (s : State) (t : Nat) (j : Job) : State :=
  let v := s.vf t
  let a := descSrc v j.entry + j.issued
  let n := min (descLen v j.entry - j.issued) (v.mrrs - a % v.mrrs)
  let g := freeReadTag v
  let (s, ok) := hostRequest s t { kind := .mrd, rid := vfRid s t, tag := BitVec.ofNat 14 g, addr := w64 a, len := n,
                                   hdr4 := decide (2 ^ 32 ≤ a) }
  if ok then
    (modJob s t j.entry (fun x => { x with issued := x.issued + n })).modVf t (fun v =>
      { v with reads := v.reads ++ [{ tag := g, entry := j.entry, off := descDst v j.entry + j.issued, len := n }] })
  else failJob s t j.entry 3

/-- Host reads are issued while fewer than 64 are outstanding (R241). -/
def issueReads (s : State) (t : Nat) : Nat → State
  | 0 => s
  | k + 1 =>
    let v := s.vf t
    if vfHalted s t ∨ v.flr.isSome ∨ 64 ≤ v.reads.length then s
    else match nextReadJob v with
      | none => s
      | some j => issueReads (issueOne s t j) t k

/-- The next descriptor may start: the engine runs, fewer than four are in progress, and a FENCE or a NOTIFY waits for every
earlier status (R240). -/
def mayStartDesc (s : State) (t : Nat) : Bool :=
  let v := s.vf t
  let e := (v.head.toNat + v.jobs.length) % 64
  s.inRunModes && !vfHalted s t && v.flr.isNone && decide (v.jobs.length < 4) && (e != v.tail.toNat)
    && (v.jobs.isEmpty || !(descFence v e || descOp v e == 4))

def execEngineDescriptorStart (t : TenantId) (s : State) : Host.Outcome State Fault Refusal :=
  .next (if mayStartDesc s t then
      let v := s.vf t
      let e := (v.head.toNat + v.jobs.length) % 64
      issueReads (s.modVf t (fun v => { v with jobs := v.jobs ++ [{ entry := e, fail := descFault s t e }] })) t 64
    else s)

/-- The status of a descriptor is written and HEAD advances past it; with IRQ set, vector 0 (R240). -/
def writeStatus (s : State) (t e st : Nat) : State :=
  let irq := descIrq (s.vf t) e
  let s := s.modVf t (fun v =>
    let w := tget 0 v.ring (8 * e)
    { v with ring := tset 0 v.ring (8 * e) ((w &&& 0xFF00FFFF) ||| w32 (fld st 16 8)), head := BitVec.ofNat 6 (e + 1),
             jobs := v.jobs.filter (fun j => j.entry != e),
             reads := v.reads.map (fun r => if r.entry = e then { r with dead := true } else r) })
  if irq then sendVf s t 0 else s

/-- Bytes of one chunk of at most 4 KiB that lies within one 4 KiB block of the source and of the destination. -/
def chunkLen (a b left : Nat) : Nat := min left (min (4096 - a % 4096) (4096 - b % 4096))

/-- One chunk's pool read, with its status. -/
def engineRead (s : State) (t o n : Nat) (err : Option LineError) : State × List Byte × Nat :=
  match translate s t o n .mrd false false with
  | .ok c a => let (s, data, bad) := poolRead s c a n err; (s, data, if bad then 5 else 0)
  | r => (denyAccess s t o .mrd false false (vfRid s t) none r, [], 4)

/-- One chunk's pool write, with its status. -/
def engineWrite (s : State) (t o : Nat) (data : List Byte) : State × Nat :=
  match translate s t o data.length .mwr false false with
  | .ok c a => (poolWrite s c a (data.map some), 0)
  | r => (denyAccess s t o .mwr false false (vfRid s t) none r, 4)

/-- Host writes of a chunk, cut at Max_Payload_Size (R241). -/
def hostWrites (s : State) (t a : Nat) (data : List Byte) : Nat → State × Nat
  | 0 => (s, 0)
  | k + 1 =>
    if data = [] then (s, 0)
    else
      let n := mpsOf s t - a % mpsOf s t
      let part := data.take n
      let (s, ok) := hostRequest s t { kind := .mwr, rid := vfRid s t, addr := w64 a, len := part.length, data := part,
                                       hdr4 := decide (2 ^ 32 ≤ a) }
      if ok then hostWrites s t (a + n) (data.drop n) k else (s, 3)

/-- A P2H or P2P copy, chunk by chunk, up to its first failure (R242). -/
def copyChunks (s : State) (t : Nat) (toHost : Bool) (err : Option LineError) (a b left : Nat) : Nat → State × Nat
  | 0 => (s, 1)
  | k + 1 =>
    if left = 0 then (s, 1)
    else
      let n := chunkLen a b left
      let (s, data, st) := engineRead s t a n err
      if st ≠ 0 then (s, st)
      else
        let (s, st) := if toHost then hostWrites s t b data (n / mpsOf s t + 2) else engineWrite s t b data
        if st ≠ 0 then (s, st) else copyChunks s t toHost err (a + n) (b + n) (left - n) k

/-- The status with which the first descriptor in progress ends; none while it has work outstanding. -/
def finishJob (s : State) (t : Nat) (j : Job) (err : Option LineError) : State × Option Nat :=
  let v := s.vf t
  let op := descOp v j.entry
  if j.fail ≠ 0 then (s, some j.fail)
  else if op = 1 then
    (s, if j.issued = descLen v j.entry ∧ v.reads.all (fun r => r.dead || r.entry != j.entry) then some 1 else none)
  else if op = 2 ∨ op = 3 then
    let (s, st) := copyChunks s t (op == 2) err (descSrc v j.entry) (descDst v j.entry) (descLen v j.entry)
      (descLen v j.entry / 2048 + 4)
    (s, some st)
  else if op = 4 then (s, if j.told then some 1 else none)
  else (s, some 1)

/-- ENGINE_DESCRIPTOR_DONE: the first descriptor in progress ends. -/
def execEngineDescriptorDone (t : TenantId) (err : Option LineError) (s : State) : Host.Outcome State Fault Refusal :=
  .next (if vfHalted s t then s
    else match (s.vf t).jobs with
      | [] => s
      | j :: _ =>
        match finishJob s t j err with
        | (s, some st) => issueReads (writeStatus s t j.entry st) t 64
        | (s, none) => s)

/-- Data of a host read goes to the pool, cut at 4 KiB; a rejection ends the descriptor. -/
def landData (s : State) (t o : Nat) (data : List Byte) : Nat → State × Nat
  | 0 => (s, 0)
  | k + 1 =>
    if data = [] then (s, 0)
    else
      let n := 4096 - o % 4096
      let (s, st) := engineWrite s t o (data.take n)
      if st ≠ 0 then (s, st) else landData s t (o + n) (data.drop n) k

/-- A completion reaches the engine of tenant `t` (R241, R242, R245). -/
def engineCpl (s : State) (t : Nat) (c : Tlp) : State :=
  match (s.vf t).reads.find? (fun r => r.tag == c.tag.toNat) with
  | none => s
  | some r =>
    let ended := c.status != .sc || decide (r.len ≤ r.got + c.data.length)
    let s := s.modVf t (fun v =>
      { v with reads := if ended then v.reads.filter (fun x => x.tag != r.tag)
                        else v.reads.map (fun x => if x.tag = r.tag then { x with got := x.got + c.data.length } else x) })
    let failed := (s.vf t).jobs.any (fun j => j.entry == r.entry && j.fail != 0)
    let s :=
      if r.dead || failed then s
      else if c.status ≠ .sc ∨ c.poisoned then failJob s t r.entry 3
      else
        let (s, st) := landData s t (r.off + r.got) (c.data.take (r.len - r.got)) (c.data.length / 4096 + 2)
        if st = 0 then s else failJob s t r.entry st
    issueReads s t 64

/-! Notifications (R243, R244). -/

/-- The consumers of a fan-out list: every other tenant in the region's bitmap that has a VF here. -/
def consumers (s : State) (f : Fanout) : List Nat :=
  match tfind s.cfg.regions f.region with
  | some r => (s.cfg.tenants.map (·.1)).filter (fun u => u != f.producer && decide (u < 256) && r.tenants.getLsbD u)
  | none => []

/-- One delivery: queued with vector 1, or lost from a full queue. -/
def deliverTo (s : State) (l tag u : Nat) : State :=
  if (tfind s.evict u).isSome ∨ (s.vf u).flr.isSome then s
  else if (s.vf u).ntfy.length < 64 then
    let s := s.modVf u (fun v => { v with ntfy := v.ntfy ++ [w32 (2 ^ 31 + fld l 24 4 + fld tag 0 20)] })
    (sendVf s u 1).bump (offCru (0x480 + 4 * l))
  else report (raiseVf s u 5) 0x0B 0 0x4B (some u)

/-- NOTIFY: the first descriptor in progress, a NOTIFY, is delivered to every consumer. -/
def execNotify (t : TenantId) (s : State) : Host.Outcome State Fault Refusal :=
  .next (match (s.vf t).jobs with
    | j :: _ =>
      let v := s.vf t
      if vfHalted s t ∨ descOp v j.entry ≠ 4 ∨ j.fail ≠ 0 ∨ j.told then s
      else match (poolRec s).fanout[descList v j.entry]? with
        | some f =>
          (consumers s f).foldl (fun a u => deliverTo a (descList v j.entry) (descTag v j.entry) u)
            (modJob s t j.entry (fun x => { x with told := true }))
        | none => s
    | [] => s)

/-- The entry that a read of VF_NTFYPOP returns, and the queue after it (Table 8.3). -/
def popNtfy (s : State) (t : Nat) : State × W32 :=
  match (s.vf t).ntfy with
  | [] => (s, 0)
  | w :: r => (s.modVf t (fun v => { v with ntfy := r }), w)

/-! Bus Master Enable and FLR (R245, R246). -/

/-- The engine aborts: ABORT_BME into every descriptor in progress, in ring order; a delivered NOTIFY completes. -/
def abortJobs (s : State) (t : Nat) : State :=
  (s.vf t).jobs.foldl (fun a j => writeStatus a t j.entry (if j.told then 1 else 2)) s

def clearBme (s : State) (t : Nat) : State := abortJobs (s.modVf t (fun v => { v with bme := false })) t

def execVfBmeClear (t : TenantId) (s : State) : Host.Outcome State Fault Refusal :=
  .next (if (s.tenantRec t).isSome ∧ s.inRunModes then clearBme s t else s)

/-- The engine starts pending descriptors again, and pending messages leave. -/
def setBme (s : State) (t : Nat) : State := flushMsix (s.modVf t (fun v => { v with bme := true })) t

def execVfBmeSet (t : TenantId) (s : State) : Host.Outcome State Fault Refusal :=
  .next (if (s.tenantRec t).isSome ∧ s.inRunModes then setBme s t else s)

/-- The actions of an FLR; one that is running is not restarted. -/
def startFlr (s : State) (t : Nat) : State :=
  if (s.vf t).flr.isSome then s
  else
    let s := clearBme s t
    s.modVf t (fun v => { v with evt := 0, evtMask := 0, tail := 0, head := 0, ring := [], ntfy := [], msix := [], pba := 0,
                                 viewPage := 0, mrrs := 512, flr := some s.clock })

def execVfFlr (t : TenantId) (s : State) : Host.Outcome State Fault Refusal :=
  .next (if (s.tenantRec t).isSome ∧ s.inRunModes then startFlr s t else s)

/-- Open tracker entries of a VF. -/
def vfOpen (s : State) (t : Nat) : List Trk :=
  s.tracker.filter (fun e => e.owner == t && !e.retired && e.src == { chip := s.chipId, port := 0x7E })

/-- VF_FLR_COMPLETE: no open entry is left, or 90 ms have passed and the entries retire with Completer Abort. -/
def execVfFlrComplete (t : TenantId) (s : State) : Host.Outcome State Fault Refusal :=
  .next (match (s.vf t).flr with
    | none => s
    | some t0 =>
      if (vfOpen s t).isEmpty ∨ t0 + 90000000 ≤ s.clock then
        ((vfOpen s t).foldl (fun a e => retire a e .ca) s).modVf t (fun v => { v with flr := none })
      else s)

/-! Channels and lots (R226 to R235, R247 to R250). -/

/-- The spill lots of a channel begin at this lot index. -/
def spillFrom (s : State) (c : Nat) : Nat :=
  let r := poolRec s
  if r.spillChannel = c then (s.chan c).lots - r.spillLots else (s.chan c).lots

/-- The owner and slot that the runs give a lot. -/
def runOwner (s : State) (l : Nat) : Nat × Nat :=
  match (poolRec s).runs.find? (fun r => decide (r.firstLot ≤ l) && decide (l < r.firstLot + r.count)) with
  | some r => (r.tenant, r.firstSlot + (l - r.firstLot))
  | none => (0x1FF, 0)

/-- A lot as a channel comes up: SPILL, or SCRUBBING under its owner (R234). -/
def freshLot (s : State) (c i : Nat) : Lot :=
  if spillFrom s c ≤ i then { st := 4 }
  else let o := runOwner s (4096 * c + i); { st := 2, owner := o.1, slot := o.2 }

/-- The lots of channel `c` are made, in ascending order; a channel has at most 4,096. -/
def makeLots (s : State) (c : Nat) : State :=
  let mine := (List.range (min (s.chan c).lots 4096)).map (fun i => (4096 * c + i, freshLot s c i))
  { s with lots := s.lots.filter (fun e => e.1 < 4096 * c) ++ mine ++ s.lots.filter (fun e => 4096 * c + 4096 ≤ e.1) }

/-- Parked copies that stand on a lost channel are lost (R152). -/
def loseSpill (s : State) : State :=
  s.groups.foldl (fun a e =>
    match mcastRec s e.1 with
    | some m => e.2.parked.foldl (fun b x => loseParked b e.1 m x) a
    | none => a) s

/-- Tenants that own or see a lot of channel `c`. -/
def chanTenants (s : State) (c : Nat) : List Nat :=
  (s.cfg.tenants.map (·.1)).filter (fun t => (poolRec s).runs.any (fun r =>
    r.firstLot / 4096 == c && (r.tenant == t || (runLots r).any (fun l => sharedFor s t l))))

/-- A channel is lost until chip reset (R249); one that CH_MASK does not name is never lost (R226). -/
def loseChannel (s : State) (c cause : Nat) : State :=
  if (s.chan c).st = 3 ∨ !bitN (poolRec s).chMask c then s
  else
    let s := s.modChan c (fun x => { x with st := 3, cause := cause, selfRef := false })
    let s := report (s.setEvt (offChan c 0x04) 3) 0x0B c 0x63
    let s := (chanTenants s c).foldl (fun a t => report (raiseVf a t 2) 0x0B c 0x63 (some t)) s
    degrade (if (poolRec s).spillChannel = c then loseSpill s else s)

/-- The cause with which bring-up fails, 0 for none (R225, R226). -/
def bringupCause (s : State) (c : Nat) (p : ChannelProbe) : Nat :=
  let r := poolRec s
  if !p.spdOk ∨ p.modules = 0 ∨ 2 < p.modules then 2
  else if p.capGib ≠ (if c = 0 then r.capGib0 else r.capGib1) then 3
  else if !p.trained then 4 else 0

/-- CHANNEL_BRINGUP during internal initialisation. -/
def execChannelBringup (c : ChanId) (probe : ChannelProbe) (s : State) : Host.Outcome State Fault Refusal :=
  .next (match s.cfg.pool with
    | none => s
    | some r =>
      if s.mode ≠ .assay ∨ 2 ≤ (s.chan c).st ∨ !bitN r.chMask c then s
      else
        let s := s.modChan c (fun x => { x with st := 1, modules := min probe.modules 2 })
        let k := bringupCause s c probe
        if k ≠ 0 then loseChannel s c k
        else makeLots (s.modChan c (fun x => { x with st := 2, lots := 16 * probe.capGib, lastUse := s.clock })) c)

/-- A channel has lots awaiting or in zero-fill. -/
def fillPending (s : State) (c : Nat) : Nat := s.lots.countP (fun e => e.1 / 4096 == c && e.2.st == 2)

/-- SELF_REFRESH_ENTRY: nothing has been queued to the channel for SR_IDLE_US (R227). -/
def execSelfRefreshEntry (c : ChanId) (s : State) : Host.Outcome State Fault Refusal :=
  .next (if (s.chan c).st = 2 ∧ fillPending s c = 0 ∧ (s.chan c).lastUse + 1000 * (poolRec s).srIdleUs ≤ s.clock then
      s.modChan c (fun x => { x with selfRef := true })
    else s)

/-- The lot whose fill is next on a channel: assigned lots first during the initial fill (R234). -/
def fillTurn (s : State) (l : Nat) : Bool :=
  let mine := s.lots.filter (fun e => e.1 / 4096 == l / 4096 && e.2.st == 2)
  (s.chan (l / 4096)).initFill || (s.lot l).owner != 0x1FF && mine.all (fun e => e.2.owner == 0x1FF || decide (l ≤ e.1))
    || (s.lot l).owner == 0x1FF && mine.all (fun e => e.2.owner == 0x1FF)

/-- LOT_FILL_DONE: every line of the lot is zero with fresh ECC, and the lot is READY or FREE (R232 to R235). -/
def execLotFillDone (lot : Fin 8192) (s : State) : Host.Outcome State Fault Refusal :=
  let l := lot.val
  let c := l / 4096
  .next (if (s.lot l).st ≠ 2 ∨ (s.chan c).st ≠ 2 ∨ !fillTurn s l then s
    else
      let a := poolAddr c (l % 4096 * 2 ^ 26)
      let s := touchChan { s with poolMem := memZero s.poolMem a (2 ^ 26),
                                  poison := s.poison.filter (fun k => decide (k < a) || decide (a + 2 ^ 26 ≤ k)) } c
      let s := s.modLot l (fun x => { x with st := if x.owner = 0x1FF then 1 else 3 })
      let s := (lotViewers s l).foldl (fun a t => raiseVf a t 0) s
      if fillPending s c = 0 then s.modChan c (fun x => { x with initFill := true }) else s)

/-- PATROL_BURST: one second's share of lines is read; a pass takes PATROL_HOURS (R248). -/
def execPatrolBurst (c : ChanId) (errors : List LineError) (s : State) : Host.Outcome State Fault Refusal :=
  .next (if (s.chan c).st ≠ 2 ∨ !(s.chan c).initFill then s
    else
      let s := errors.foldl (fun a e => meetError a c e) (touchChan s c)
      s.modChan c (fun x =>
        if 3600 * (poolRec s).patrolHours ≤ x.progress + 1 then { x with progress := 0, passes := (x.passes + 1) % 65536 }
        else { x with progress := x.progress + 1 }))

/-- DDR_ALERT: each retry is counted; the channel is lost where three do not clear it (R249). -/
def execDdrAlert (c : ChanId) (retries : Nat) (cleared : Bool) (s : State) : Host.Outcome State Fault Refusal :=
  .next (if (s.chan c).st ≠ 2 then s
    else
      let s := report (((touchChan s c).bump (offChan c 0x10) (min retries 3)).setEvt (offChan c 0x04) 0) 0x0B c 0x62
      if !cleared ∧ 3 ≤ retries then loseChannel s c 6 else s)

/-- CHANNEL_LOST: by an alert that three retries did not clear, or by more uncorrectable errors than UE_LIMIT in a second. -/
def execChannelLost (c : ChanId) (byAlert : Bool) (s : State) : Host.Outcome State Fault Refusal :=
  .next (if (s.chan c).st ≠ 2 then s
    else if byAlert then loseChannel s c 6
    else if (poolRec s).ueLimit < (s.chan c).ueSecond then loseChannel s c 7 else s)

/-- VF_NTFYPOP is read: an entry leaves the queue only when the read has all four byte enables (R102, Table 8.3). -/
def execVfNtfypopRead (t : TenantId) (be : BitVec 4) (s : State) : Host.Outcome State Fault Refusal :=
  .next (if (s.tenantRec t).isNone ∨ (tfind s.evict t).isSome ∨ (s.vf t).flr.isSome ∨ !s.inRunModes then s
    else
      let r := popNtfy s t
      (if be = 15 then r.1 else s).emit (.vfRead t r.2))

/-- VF_SQTAIL is written: descriptors become visible to the engine (R240). -/
def execVfSqtailWrite (t : TenantId) (tail : BitVec 6) (s : State) : Host.Outcome State Fault Refusal :=
  .next (if (s.tenantRec t).isNone ∨ (tfind s.evict t).isSome ∨ (s.vf t).flr.isSome ∨ !s.inRunModes then s
    else s.modVf t (fun v => { v with tail := tail }))

end Sys2Proof.Machine
end

