-- ==== Sys2Proof/Machine/Mbx.lean ====
section
/-! DEFINITION. The mailbox itself: claim, ownership, the order of checks and the response (R64 to R67). -/

namespace Sys2Proof.Machine

/-! The status codes, in the order of R66: the manual names them and gives no numbers, so each number is a free value
(DESIGN CHOICE, log entry 25). -/

def stOk : Nat := Config.statusCode 0
def stBadCommand : Nat := Config.statusCode 1
def stBadArgument : Nat := Config.statusCode 2
def stStateConflict : Nat := Config.statusCode 3
def stDenied : Nat := Config.statusCode 4
def stAuthFail : Nat := Config.statusCode 5
def stBusy : Nat := Config.statusCode 6
def stTimeout : Nat := Config.statusCode 7

def pathNum (p : Path) : Nat := match p with | .mf => 1 | .i3c => 2

/-- The words of a payload, from MBX_DATA[i] on. -/
def dataWords (t : Tbl W32) : Nat → List Byte → Tbl W32
  | _, [] => t
  | i, b0 :: b1 :: b2 :: b3 :: r => dataWords (tset 0 t i (w32 (leNat [b0, b1, b2, b3]))) (i + 1) r
  | i, l => tset 0 t i (w32 (leNat l))

/-- The first `n` bytes that MBX_DATA holds. -/
def payloadOf (m : Mailbox) (n : Nat) : List Byte :=
  ((List.range (ceilDiv n 4)).map (fun i => leBytes 4 (tget 0 m.data i).toNat)).flatten.take n

/-- Where the MF's MSI-X table and its pending bits stand in BAR0 (R415). -/
def offMsix (x : Nat) : Nat := 0x21000 + x

/-- A word of the MF's MSI-X table; each vector's Mask bit resets to 1 as in the Base Specification. -/
def mfMsixWord (s : State) (i : Nat) : W32 := s.reg (offMsix (4 * i)) ^^^ (if i % 4 = 3 then 1 else 0)

def mfMasked (s : State) (v : Nat) : Bool := bitN (mfMsixWord s (4 * v + 3)).toNat 0

/-- The message of vector `v` leaves through the manager VH, traffic of M. -/
def sendMf (s : State) (v : Nat) : State :=
  let w (i : Nat) : W32 := mfMsixWord s (4 * v + i)
  sendMsix s 11 0x7F ownerM s.device.managerVh (funcRid s s.device.managerVh 1) (w 0) (w 1) (w 2)

/-- The MF sends vector `v`, or sets its pending bit. -/
def mfInterrupt (s : State) (v : Nat) : State := if mfMasked s v then s.setEvt (offMsix 0x800) v else sendMf s v

/-- Pending vectors that are no longer masked are sent. -/
def flushMf (s : State) : State :=
  [0, 1].foldl (fun a v =>
    if bitN (a.reg (offMsix 0x800)).toNat v && !mfMasked a v then
      sendMf (a.setReg (offMsix 0x800) (clearBit32 (a.reg (offMsix 0x800)) v)) v
    else a) s

/-- The response is formed: MBX_RSP and its payload, DONE set, BUSY clear, and the interrupt of R415. -/
def respondTo (s : State) (path : Path) (seq : Byte) (status : Nat) (payload : List Byte) : State :=
  let rsp := w32 (fld seq.toNat 24 8 + fld (modeNum s.mode) 21 3 + fld payload.length 8 11 + fld status 0 8)
  let s := s.modMbx (fun m => { m with busy := false, done := true, rsp := rsp, data := dataWords m.data 0 payload,
                                       active := none, lastUse := s.clock })
  match path with | .mf => mfInterrupt s 0 | .i3c => s.emit (.ibi 1)

/-- A mailbox access by its holder restarts the idle time of R64. -/
def touchMbx (s : State) : State := s.modMbx (fun m => { m with lastUse := s.clock })

/-- A release: FREE returns to 1, DONE clears, the response and any staging are discarded (R64, R74). -/
def releaseMbx (s : State) : State :=
  s.modMbx (fun m => { m with owner := none, done := false, rsp := 0, data := [], staging := none })

/-- The windows of the two paths: the MF answers in Run, Degraded and Safe (R331, Table 2.12), and in Maintenance and
Factory; the I3C target in every mode but Reset (R414). -/
def pathOpen (s : State) (p : Path) : Bool :=
  match p with
  | .mf => s.mode != .reset && s.mode != .load && s.mode != .assay
  | .i3c => s.mode != .reset

/-- A command is issued: its path holds the mailbox, which is not busy. -/
def mayIssue (s : State) (p : Path) : Bool := pathOpen s p && s.mbx.owner == some p && !s.mbx.busy

/-- The command word of a command with its payload. -/
def cmdWord (seq : Byte) (code len : Nat) : W32 := w32 (fld seq.toNat 24 8 + fld len 8 11 + fld code 0 8)

/-- The holder writes the payload and the command, and GO: the mailbox is busy. -/
def loadCmd (s : State) (p : Path) (seq : Byte) (code : Nat) (payload : List Byte) : State :=
  s.modMbx (fun m => { m with busy := true, cmd := cmdWord seq code payload.length, data := dataWords m.data 0 payload,
                              active := some { path := p, seq := seq, code := code, since := s.clock }, lastUse := s.clock })

/-- Reads of MBX_CLAIM (R64): a free mailbox is granted; the bit that the read returns. In Load and Assay too. -/
def claim (s : State) (p : Path) : State × Nat :=
  if s.mbx.owner.isNone then (s.modMbx (fun m => { m with owner := some p, lastUse := s.clock }), 1)
  else (if s.mbx.owner = some p then touchMbx s else s, 0)

def execMbxClaimRead (path : Path) (s : State) : Host.Outcome State Fault Refusal :=
  .next (if pathOpen s path then (let r := claim s path; r.1.emit (.regRead path (w32 r.2))) else s)

/-- RELEASE by the holder; ignored while BUSY is 1 (R64). -/
def execMbxRelease (path : Path) (s : State) : Host.Outcome State Fault Refusal :=
  .next (if pathOpen s path ∧ s.mbx.owner = some path ∧ !s.mbx.busy then releaseMbx s else s)

/-- The idle release: MBX_RELEASE_MS without an access while BUSY is 0 (R64). -/
def execMbxIdleRelease (s : State) : Host.Outcome State Fault Refusal :=
  .next (if s.mbx.owner.isSome ∧ !s.mbx.busy ∧ s.mbx.lastUse + 1000000 * s.device.mbxReleaseMs ≤ s.clock then releaseMbx s
    else s)

/-- A grant of the AMEND record covers an instance of a class (R65, R71). -/
def granted (s : State) (c : Grant) (i : Nat) : Bool :=
  match s.cfg.amend with
  | some r => r.grants.any (fun g => g.cls == c && decide (g.instLo ≤ i) && decide (i ≤ g.instHi))
  | none => false

/-- The modes in which a command code is legal (Table 2.17), none for an unknown code. -/
def legalModes (code : Nat) : Option (List Mode) :=
  let rd := [Mode.run, Mode.degraded]
  if code = 0x01 then some [.load, .assay, .run, .degraded, .safe, .maintenance, .factory]
  else if code = 0x02 then some (rd ++ [.safe, .maintenance, .factory])
  else if code = 0x05 ∨ code = 0x07 then some (rd ++ [.maintenance, .factory])
  else if code = 0x0A ∨ code = 0x0B then some (rd ++ [.safe, .maintenance])
  else if code = 0x0C then some (rd ++ [.maintenance])
  else if code = 0x0D then some [.factory]
  else if code = 0x10 then some [.safe]
  else if code = 0x11 then some (rd ++ [.safe])
  else if code ∈ [0x03, 0x04, 0x06, 0x08, 0x09, 0x0E, 0x0F] then some rd
  else none

end Sys2Proof.Machine
end

