-- ==== Sys2Proof/Machine/TimeBase.lean ====
section
/-! DEFINITION. The Mandrel counter: its tick, steps, servo and replicas (R30, R31, R182 to R187). -/

namespace Sys2Proof.Machine

def timeRec (s : State) : TimeRec := s.cfg.time.getD {}

/-- What 1 ns adds to the counter, in 2⁻³² ns: 1 ns corrected by the rate (R182). -/
def tickStep (t : TimeBase) : Int := 2 ^ 32 + t.rate * 65536 / 1000000000

/-- The clock of the island that keeps replica `i`, in MHz (Table 13.1): 1,600 for a station core; a quarter of the data rate for the Crucible
controller. -/
def replicaMhz (s : State) (i : Nat) : Nat := if i < 10 then 1600 else ((s.cfg.pool.map (·.speedMts)).getD 6400) / 4

/-- The cycles of a clock of `mhz` MHz that end in the nanosecond that ends at clock `t`. -/
def cyclesIn (mhz t : Nat) : Nat := t * mhz / 1000 - (t - 1) * mhz / 1000

/-- What replica `i` gains in the nanosecond that ends at clock `t`: its island's period for each cycle, with a 16-bit fraction (R30). -/
def replicaGain (s : State) (i t : Nat) : Nat := cyclesIn (replicaMhz s i) t * (65536000 / replicaMhz s i)

/-- 1 ns of time base time: the clock, the counter and the replicas advance. -/
def tick (s : State) : State :=
  let t := { s with clock := s.clock + 1 }
  if s.mode = .reset then t
  else t.modTime (fun x => { x with ctr := x.ctr + BitVec.ofInt 96 (tickStep x),
                                    replicas := (List.range 11).foldl (fun r i => tset 0 r i (tget 0 r i + replicaGain s i t.clock)) x.replicas })

/-- The counter takes a new value, in whole ns with its fraction kept (R31): the last valid edge moves with it, LOCKED is left
(Table 6.6), and a pending list switch that the step moves into the past is marked. -/
def stepTo (s : State) (ns : Int) : State :=
  let old := s.now
  let d := ns - (old : Int)
  let s := s.modTime (fun t => { t with ctr := BitVec.ofInt 96 (t.ctr.toNat + d * 2 ^ 32), lastEdge := t.lastEdge.map (· + d),
                                        st := if t.st = 2 then 1 else t.st, good := 0 })
  let late (q : Sched) : Sched :=
    { q with pend := q.pend.map (fun x => { x with stepped := x.stepped || (decide (old < x.ts) && decide ((x.ts : Int) ≤ ns)) }) }
  let s := { s with ports := s.ports.map (fun (e : Nat × Port) => (e.1, { e.2 with sched := late e.2.sched })) }
  report ((s.setEvt (offTim 0x1C) 1).bump (offTim 0x28)) 0x0D 0 0x54

def clampInt (x lo hi : Int) : Int := if x < lo then lo else if hi < x then hi else x

/-- R184 for an offset of `o` ns: a phase step beyond 1 µs, else the integrator and the rate. LOCKED needs four consecutive
offsets of at most `lim` ns: 4 on edges, 8 on SYNCs (R274). -/
def servo (s : State) (o : Int) (lim : Nat := 4) : State :=
  if 1000 < o.natAbs then
    (stepTo s (s.now - o)).modTime (fun t => { t with st := 1, good := 0, offset := o })
  else
    let r := timeRec s
    let integ := s.time.integ + o * 65536 / 2 ^ r.kiShift
    let raw := -(integ + o * 65536 / 2 ^ r.kpShift)
    let rate := clampInt raw (-500000 * 65536) (500000 * 65536)
    let good := if o.natAbs ≤ lim then s.time.good + 1 else 0
    let st := if 4 ≤ good then 2 else 1
    let newly := decide (st = 2) && s.time.st != 2
    let s := s.modTime (fun t => { t with integ := integ, rate := rate, good := min good 4, st := st, offset := o })
    let s := if raw = rate then s else report (s.setEvt (offTim 0x1C) 5) 0x0D 0 0x57
    if newly then report (s.setEvt (offTim 0x1C) 4) 0x0D 0 0x56 else s

/-- The nearest whole second to `x`, in ns. -/
def nearestSecond (x : Int) : Int := (x + 500000000) / 1000000000 * 1000000000

/-- HOLDOVER ends with an edge or a SYNC (R186, R275). -/
def leaveHoldover (s : State) : State :=
  if s.time.st = 3 then report ((s.modTime (fun t => { t with st := 1, good := 0 })).setEvt (offTim 0x1C) 3) 0x0D 0 0x56 else s

def enterHoldover (s : State) : State :=
  report ((s.modTime (fun t => { t with st := 3, accept := true, good := 0 })).setEvt (offTim 0x1C) 2) 0x0D 0 0x55

/-- An edge is captured: PPS_EN is set and the TIME record applied (R182, R183). -/
def ppsOn (s : State) : Bool := s.mode != .reset && (match s.cfg.time with | some r => r.ppsEn | none => false)

/-- The edge is valid (R183). -/
def edgeValid (s : State) : Bool :=
  match s.time.accept, s.time.lastEdge with
  | true, _ => true
  | false, none => true
  | false, some e => decide (((s.now : Int) - e - 1000000000).natAbs ≤ 1000 * (timeRec s).ppsWindowUs)

/-- The response of a SET_TIME: the counter value just after the step. -/
def setTimeDone (s : State) (path : Path) (seq : Byte) : State := respondTo s path seq stOk (leBytes 8 s.now)

/-- A valid edge: SET_TIME AT_NEXT_PPS takes it, else the servo does (R184, R187). -/
def validEdge (s : State) : State :=
  let c := s.now
  let s := (s.bump (offTim 0x20)).modTime (fun t =>
    { t with lastEdge := some c, lastC := w64 c, edgeAt := s.clock, accept := false })
  let s := leaveHoldover s
  let x : Int := c - (timeRec s).ppsDelayNs
  let o := x - nearestSecond x
  match s.time.setAt with
  | some sec =>
    let s := stepTo s (1000000000 * (sec.toNat : Int) + (timeRec s).ppsDelayNs)
    let s := s.modTime (fun t => { t with setAt := none, st := 1, good := 0, offset := o })
    match s.mbx.active with
    | some a => setTimeDone s a.path a.seq
    | none => s
  | none => servo s o

/-- An invalid edge is counted and reported, and otherwise ignored (R183). -/
def badEdge (s : State) : State := report ((s.bump (offTim 0x24)).setEvt (offTim 0x1C) 0) 0x0D 0 0x53

/-- Each replica takes the counter's value, with 16 bits of its fraction. -/
def syncReplicas (s : State) : State :=
  s.modTime (fun t => { t with replicas := (List.range 11).foldl (fun r i => tset 0 r i (s.time.ctr.toNat / 2 ^ 16)) t.replicas })

/-- REPLICA_SYNC, every 1 µs (R30). List switches and gate boundaries that the new time has passed take effect at once (R31, Table 6.4). -/
def execReplicaSync (s : State) : Host.Outcome State Fault Refusal :=
  .next (if s.mode = .reset then s else s.portNums.foldl gatesNow (syncReplicas s))

/-- TIM_NOWLO is read: the rest of the counter is latched (R194). -/
def latchTime (s : State) : State :=
  s.modTime (fun t => { t with nowHi := w32 (s.now / 2 ^ 32), nowFrac := BitVec.ofNat 16 (t.ctr.toNat / 2 ^ 16) })

def execTimNowloRead (path : Path) (s : State) : Host.Outcome State Fault Refusal :=
  .next (if pathOpen s path && (s.mode != .load && s.mode != .assay) then
      (latchTime s).emit (.regRead path (w32 s.now)) else s)

/-- PTM_REQUEST (R188): a PTM Response with the receive stamp and the time it leaves, in every mode and time state in which the port receives
one. -/
def execPtmRequest (port : PortId) (rxStamp : W64) (s : State) : Host.Outcome State Fault Refusal :=
  .next (if (timeRec s).ptmEn ∧ !s.isFabric port ∧ (s.portRec port).isSome ∧ (s.port port).link.dlUp ∧ !deaf s port then
      (s.bump (offTim 0x2C)).emit (.ptm port rxStamp (w64 s.now))
    else s)

end Sys2Proof.Machine
end

