-- ==== Sys2Proof/Machine/Fabric.lean ====
section
/-! DEFINITION. Fabric mode: links, epochs and drains, fabric time, presence, global operations and the fault ring
(R254 to R288). -/

namespace Sys2Proof.Machine

/-! Shared operations. -/

/-- A link carries control messages other than HELLO: QUIESCED or ACTIVE (Table 9.1). -/
def linkAccepted (s : State) (p : Nat) : Bool := (s.fabLink p).st == 2 || (s.fabLink p).st == 3

def isRoot (s : State) : Bool := s.chipId == (fabricRec s).rootChip

def treeParent (s : State) : Nat := (fabricRec s).treeParent

/-- The chip's tree neighbours on links that are accepted: the parent, and the peers known as children. -/
def treePorts (s : State) : List Nat :=
  ((fabricRec s).peers.map (·.port)).filter (fun p =>
    linkAccepted s p && ((!isRoot s && p == treeParent s) || (s.fabLink p).child))

/-- A GOP message goes to every tree neighbour but the one that it came from. -/
def treeFlood (s : State) (from_ : Nat) (b : GopBody) : State :=
  ((treePorts s).filter (· != from_)).foldl (fun a p => a.emit (.gop p b)) s

def present_ (s : State) (c : Nat) : Bool := s.fab.present.getLsbD c

def selfBit (s : State) : BitVec 16 := BitVec.ofNat 16 (2 ^ s.chipId)

/-- T of R278, in ns; on a chip not in fabric mode 1 µs (R282). -/
def propTime (s : State) : Nat :=
  if s.fabricMode then 300 + 200 * max 1 (min 4 (max s.fab.depth Config.treeDepth)) else 1000

/-! Routes that fail, and TLPs that change port (R257, R263, R264). -/

/-- A TLP without a route is counted and reported (R264). -/
def countNoRoute (s : State) (src : Nat) (o : Owner) (p : Nat := 0x7F) (dest : Option (Nat × Nat) := none) : State :=
  report (countFabLoss (s.bump (offFab 0x4C)) o) src 0 0x74 (some o) p none dest

/-- A descriptor moves to another egress, with its cells; its tracker entry is that of the port on which it leaves (R125). -/
def moveDesc (s : State) (d : Desc) (q : Nat) : State :=
  let s := match d.trk with
    | some i => modTrk s i (fun e => { e with egress := q, timeout := cplTimeout s q })
    | none => s
  let s := leaveRing { s with descs := s.descs.filter (fun x => x.id != d.id) } d.egress d.tlp.tc.toNat
  let s := if d.mc.isSome || d.redeliv.isSome then s
    else takeCells (freeCells s d.owner d.cls d.egress d.cells) d.owner d.cls q d.cells
  enqueue s { d with egress := q }

/-- UR for a queued request that finds no route (R264), under the tag that its requester gave it; its tracker entry is free. -/
def answerUr (s : State) (d : Desc) : State :=
  match d.trk.bind (findTrk s) with
  | some e => answerStatus (freeTrk s e.id) 12 d.egress d.src d.owner { d.tlp with tag := e.origTag } .ur
  | none => answerStatus s 12 d.egress d.src d.owner d.tlp .ur

/-- A queued TLP whose member is no longer pending is routed again (R263). -/
def rerouteOne (s : State) (d : Desc) : State :=
  match d.farug with
  | none => s
  | some f =>
    if (s.fabLink d.egress).st = 3 ∨ isPending s d.egress then s
    else match fabRoute s f with
      | .send q => if q = d.egress then s else moveDesc s d q
      | .hold _ => s
      | .none =>
        let s := countNoRoute (removeDesc s d) 0x0A d.owner 0x7F (farDest d.farug)
        if isNonPosted d.tlp.kind ∧ f.srcChip = s.chipId then answerUr s d else s

def reroute (s : State) : State :=
  (sortById (s.descs.filter (fun d => s.isFabric d.egress && d.farug.isSome && isQueued s d))).foldl rerouteOne s

/-! Links and admission (R254 to R258). -/

/-- The cause for which a HELLO is refused, 0 for none (R255, Table 9.8). -/
def helloCause (s : State) (p : Nat) (b : HelloBody) : Nat :=
  let r := fabricRec s
  let peerBad := r.peers.any (fun x => x.port == p &&
    ((x.chip != 0xFF && x.chip != b.chip) || (x.peerPort != 0xFF && x.peerPort != b.port)))
  if b.fabricId ≠ r.fabricId then 2
  else if 16 ≤ b.chip ∨ !r.chipMask.getLsbD b.chip then 4
  else if peerBad then 3
  else if b.rootChip ≠ r.rootChip then 6
  else if !isRoot s ∧ p = r.treeParent ∧ 4 < b.depth + 1 then 5
  else 0

/-- A refused link carries HELLO only; the refusal is reported when it begins or its cause changes. -/
def refuseLink (s : State) (p c : Nat) (b : HelloBody) : State :=
  let x := s.fabLink p
  let new := x.st ≠ 4 ∨ x.cause ≠ c
  let s := s.modFabLink p (fun y => { y with st := 4, cause := c, peerChip := b.chip, peerPort := b.port })
  if new then reportPort (s.setEvt (offFab 0x08) (if c = 5 then 1 else 3)) p 0x71 none (some c) else s

/-- An accepted link: ACTIVE at once where both sides are within their join windows and it has not been ACTIVE before, else
QUIESCED until a flip (R257, R258). -/
def acceptLink (s : State) (p : Nat) (b : HelloBody) : State :=
  let x := s.fabLink p
  let cold := inJoinWindow s && b.coldStart && s.inRunModes && !x.wasActive && x.clashAt.isNone
    && (s.port p).contain.phase == 0
  let st := if x.st = 3 ∨ cold then 3 else 2
  let s := s.modFabLink p (fun y => { y with st := st, cause := 0, peerChip := b.chip, peerPort := b.port,
                                             parent := !isRoot s && p == treeParent s, wasActive := y.wasActive || st == 3 })
  s.modFab (fun f => { f with
    depth := if !isRoot s && p == treeParent s then b.depth + 1 else f.depth
    epoch := if f.takeEpoch then b.epoch else f.epoch
    newSeen := if f.takeEpoch then 0 else f.newSeen
    takeEpoch := false })

def execHello (port : PortId) (body : HelloBody) (s : State) : Host.Outcome State Fault Refusal :=
  .next (if !s.isFabric port ∨ !(s.port port).link.dlUp ∨ !s.fabricMode then s
    else
      let c := helloCause s port body
      if c = 0 then acceptLink s port body else refuseLink s port c body)

/-- The HELLO that this chip sends (Table 9.3). -/
def ownHello (s : State) (p : Nat) : HelloBody :=
  { chip := s.chipId, fabricId := (fabricRec s).fabricId, port := p, rootChip := (fabricRec s).rootChip,
    depth := if isRoot s then 0 else s.fab.depth, epoch := s.fab.epoch, coldStart := inJoinWindow s, mode := modeNum s.mode }

def execHelloSend (port : PortId) (s : State) : Host.Outcome State Fault Refusal :=
  .next (if s.isFabric port ∧ (s.port port).link.dlUp ∧ s.fabricMode then s.emit (.hello port (ownHello s port)) else s)

/-- JOIN_WINDOW_END: no fabric port is pending from here on (R257). -/
def execJoinWindowEnd (s : State) : Host.Outcome State Fault Refusal :=
  .next (match s.fab.runSince with
    | some t =>
      if s.fab.joinOver ∨ s.clock < t + 1000000 * (fabricRec s).joinWindowMs then s
      else reroute (s.modFab (fun f => { f with joinOver := true }))
    | none => s)

/-- A hold flit carries no TLP byte and is discarded; the interrupted TLP stays open (R262). -/
def execHold (_port : PortId) (s : State) : Host.Outcome State Fault Refusal := .next s

/-- CHIPID_CLASH (R254): the port returns to Detect.Quiet for a second. -/
def execChipidClash (port : PortId) (s : State) : Host.Outcome State Fault Refusal :=
  .next (if s.isFabric port ∧ s.fabricMode ∧ !(s.port port).link.dlUp then
      let s := s.modFabLink port (fun x => { x with st := 0, cause := 1, clashAt := some s.clock })
      reportPort ((s.modLink port (fun l => { l with ltssm := .detect })).setEvt (offFab 0x08) 2) port 0x70 none none
    else s)

def execChipidClashRetry (port : PortId) (s : State) : Host.Outcome State Fault Refusal :=
  .next (match (s.fabLink port).clashAt with
    | some t =>
      if s.clock < t + 1000000000 then s
      else beginTraining (s.modFabLink port (fun x => { x with cause := 0, clashAt := none })) port
    | none => s)

/-- TLPs from a port whose reception was partial end bad. -/
def dropPartial (s : State) (p : Nat) (r : CloseReason) : State :=
  let ids := ((s.staging.filter (fun x => x.isOpen && x.ingress == p)).map (·.id)
    ++ ((s.mcWaits.filter (fun w => w.x.isOpen && w.x.ingress == p)).map (·.x.id))
    ++ ((s.descs.filter (fun d => d.isOpen && d.ingress == p)).map (·.id)))
  ids.foldl (fun a i => closeAll a i r) s

/-- The link's state after DL_DOWN. -/
def linkCleared (l : Link) : Link :=
  { l with rate := 0, width := 0, active := 0, flit := false, reversed := false, retimers := 0, dlUp := false, excused := false,
           rateHeld := false, peerRate := 0, peerFlit := false, peerBypass := false, prevRate := 0, downRole := false, pmeOff := false,
           ltssm := if l.ltssm = .disabled then .disabled else .detect }

/-- A fabric link goes down (R265). -/
def fabricDown (s : State) (p : Nat) : State :=
  let active := (s.fabLink p).st == 3
  let s := fabDiscard (dropTx (dropPartial s p .linkDown) p) p
  let s := (s.modLink p linkCleared).setEvt (offPrt p 0x04) 4
  let s := s.modFabLink p (fun x => { x with st := 0, cause := 0, child := false })
  let s := if active then degrade { s with peerLost := true } else s
  reroute s

def execFabricLinkDown (port : PortId) (s : State) : Host.Outcome State Fault Refusal :=
  .next (if s.isFabric port ∧ (s.port port).link.dlUp then fabricDown s port else s)

/-! Epochs and drains (R266 to R272). -/

/-- The key of a chip's count in an epoch. -/
def epochKey (c : Nat) (e : Bool) : Nat := 2 * c + (if e then 1 else 0)

/-- The header that a staged TLP for another chip carries, or takes at admission. -/
def stagedFarug (x : Staged) : Option Farug :=
  match x.farug, x.dest with
  | some f, _ => some f
  | none, .remote c q => some (stampFarug x.src x.owner x.tlp.tc.toNat x.trusted x.epoch c q)
  | none, _ => none

/-- Some TLP of an epoch toward a chip has not started yet on this chip. -/
def unsentOf (s : State) (c : Nat) (e : Bool) : Bool :=
  s.descs.any (fun d => match d.farug with
      | some f => f.srcChip == s.chipId && f.dstChip == c && f.epoch == e && s.isFabric d.egress
          && (s.port d.egress).sched.txing != some d.id
      | none => false)
    || s.staging.any (fun x => match stagedFarug x with
      | some f => f.srcChip == s.chipId && f.dstChip == c && f.epoch == e
      | none => false)

/-- The member by which a routed message leaves under the epoch of its header: the first in the order of R263 whose link is accepted (R261). -/
def ctlRoute (s : State) (f : Farug) : Option Nat :=
  let ms := routeMembers s f.epoch f.dstChip
  ((List.range ms.length).map (fun k => ms.getD ((farugHash f + k) % ms.length) 0)).find? (linkAccepted s)

/-- The header of this chip's EACK to source chip `c`. Its port fields are 0: DESIGN CHOICE, log entry 90. -/
def eackHdr (s : State) (c : Nat) : Farug :=
  { dstChip := c, dstPort := 0, srcChip := s.chipId, srcPort := 0, tenant := 0, ownerM := true, epoch := s.fab.epoch }

/-- A routed message goes out; without a route it is dropped. -/
def forwardEack (s : State) (f : Farug) (epoch : Bool) (count : Nat) : State :=
  match ctlRoute s f with | some p => s.emit (.eack p f epoch count) | none => s

/-- An EACK for the old epoch goes to source chip `c` (R269). -/
def sendEack (s : State) (c : Nat) : State :=
  let e := !s.fab.epoch
  let n := tget 0 s.fab.rcvd (epochKey c e)
  forwardEack (s.modFab (fun f => { f with eacked := tset 0 f.eacked c n })) (eackHdr s c) e n

/-- A flip is scheduled. Counts of the epoch that it begins start at 0, and no TLP of that epoch has come yet (R269, R270). -/
def openFlip (s : State) (x : Flip) : State :=
  let e := if s.fab.epoch then 0 else 1
  s.modFab (fun f => { f with flip := some x, newSeen := 0, sent := f.sent.filter (fun y => y.1 % 2 != e),
                              rcvd := f.rcvd.filter (fun y => y.1 % 2 != e) })

/-- The chips of the fabric but this one. -/
def otherChips (s : State) : List Nat := (List.range 16).filter (fun c => c != s.chipId && (fabricRec s).chipMask.getLsbD c)

/-- The flip at AT (R268). -/
def flipNow (s : State) : State :=
  let e := !s.fab.epoch
  let named := (List.range 80).filter (fun p => bankNames s e p)
  let s := s.modFab (fun f => { f with
    epoch := e, flip := none, flippedAt := some s.clock, eacked := [] })
  let s := named.foldl (fun a p =>
    if (a.fabLink p).st = 2 ∧ (a.port p).contain.phase = 0 then a.modFabLink p (fun x => { x with st := 3, wasActive := true }) else a) s
  let s := s.modFab (fun f => { f with
    drains := ((otherChips s).filter (present_ s)).foldl (fun t c => tput t c { since := s.clock }) f.drains })
  let s := (otherChips s).foldl (fun a c => if present_ a c then sendEack a c else a) s
  let s := report ((s.bump (offFab 0x5C)).setEvt (offFab 0x08) 10) 0x0A 0 0x7A
  let bad := named.any (fun p => (s.fabLink p).st == 0 || (s.fabLink p).st == 4)
  if bad then s else recoverMode { s with peerLost := false }

def execEpochFlip (s : State) : Host.Outcome State Fault Refusal :=
  .next (match s.fab.flip with
    | some f => if s.now < f.at_ ∨ !s.inRunModes then s else flipNow s
    | none => s)

def endDrain (s : State) (c : Nat) : State := s.modFab (fun f => { f with drains := terase f.drains c })

/-- An EACK for this chip (R269): the drain toward its sender ends once its count is the whole of what was sent. -/
def takeEack (s : State) (src : Nat) (epoch : Bool) (count : Nat) : State :=
  match tfind s.fab.drains src with
  | some d =>
    if epoch = s.fab.epoch then s
    else if count = tget 0 s.fab.sent (epochKey src epoch) ∧ !unsentOf s src epoch then endDrain s src
    else s.modFab (fun f => { f with drains := tput f.drains src { d with acked := count } })
  | none => s

/-- EACK, a routed message: taken at its destination, and passed on by every other chip with HOPS one lower (R259, R261). -/
def execEack (x : FabricIn) (epoch : Bool) (count : Nat) (s : State) : Host.Outcome State Fault Refusal :=
  .next (if !s.isFabric x.port ∨ !linkAccepted s x.port then s
    else if x.hdr.dstChip = s.chipId then takeEack s x.hdr.srcChip epoch count
    else if x.hdr.hops = 0 then s.bump (offFab 0x50)
    else forwardEack s { x.hdr with hops := x.hdr.hops - 1 } epoch count)

/-- EACK_SEND: at each 1 µs tick of a drain, an EACK to each source chip whose count has changed (R269). -/
def execEackSend (s : State) : Host.Outcome State Fault Refusal :=
  .next (match s.fab.flippedAt with
    | some t =>
      if t + 1000 * (fabricRec s).epochDrainUs < s.clock then s
      else (otherChips s).foldl (fun a c =>
        if tget 0 a.fab.rcvd (epochKey c (!a.fab.epoch)) = tget 0 a.fab.eacked c then a else sendEack a c) s
    | none => s)

/-- DRAIN_TIMEOUT: the drain expires and the held TLPs are released (R270). -/
def execDrainTimeout (chip : ChipId) (s : State) : Host.Outcome State Fault Refusal :=
  .next (match tfind s.fab.drains chip with
    | some d =>
      if s.clock < d.since + 1000 * (fabricRec s).epochDrainUs then s
      else
        let short := tget 0 s.fab.sent (epochKey chip (!s.fab.epoch)) - d.acked
        let s := (endDrain s chip).modFab (fun f => { f with lastExpiry := some s.clock })
        report ((s.bump (offFab 0x44)).setEvt (offFab 0x08) 5) 0x0A chip 0x73 none 0x7F (some short)
    | none => s)

/-! Fabric time (R273 to R276). -/

def asymOf (s : State) (p : Nat) : Int := match (fabricRec s).peers.find? (fun x => x.port == p) with | some x => x.asymNs | none => 0

/-- This chip follows its tree parent. -/
def isFollower (s : State) : Bool := s.fabricMode && !isRoot s

/-- SYNC from the parent (R274): the servo runs on o = rx − (tx + delay). -/
def execSync (port : PortId) (tx rx : W64) (s : State) : Host.Outcome State Fault Refusal :=
  .next (if !isFollower s ∨ port.val ≠ treeParent s ∨ !linkAccepted s port then s
    else
      let o : Int := rx.toNat - (tx.toNat + ((s.fabLink port).delay : Int))
      let s := (s.modFab (fun f => { f with toffset := o })).modTime (fun t => { t with edgeAt := s.clock })
      servo (leaveHoldover s) o 8)

/-- SYNC_SEND: a parent sends SYNC to each child (R274). -/
def execSyncSend (s : State) : Host.Outcome State Fault Refusal :=
  .next (if !s.fabricMode then s
    else ((treePorts s).filter (fun p => (s.fabLink p).child)).foldl (fun a p => a.emit (.sync p (w64 a.now))) s)

/-- DELAY_MEASURE: the child asks for the link delay (R274). -/
def execDelayMeasure (s : State) : Host.Outcome State Fault Refusal :=
  let p := treeParent s
  .next (if isFollower s ∧ linkAccepted s p then
      (s.modFabLink p (fun x => { x with t1 := w64 s.now })).emit (.delayReq p (w64 s.now))
    else s)

/-- A DELAY_REQ is answered with its stamps; a DELAY_RESP gives the delay (R274). -/
def execDelayReq (port : PortId) (m : DelayMsg) (s : State) : Host.Outcome State Fault Refusal :=
  .next (if !s.fabricMode ∨ !linkAccepted s port then s
    else match m with
      | .req rx => s.emit (.delayResp port rx (w64 s.now))
      | .resp t1 t2 t3 t4 =>
        let d : Int := ((t4.toNat - t1.toNat : Int) - (t3.toNat - t2.toNat)) / 2 + asymOf s port
        s.modFabLink port (fun x => { x with delay := d.toNat }))

/-- FOLLOWER_HOLDOVER: no SYNC for 100 µs (R275). -/
def execFollowerHoldover (s : State) : Host.Outcome State Fault Refusal :=
  .next (if isFollower s ∧ (s.time.st = 1 ∨ s.time.st = 2) ∧ s.time.edgeAt + 100000 ≤ s.clock then enterHoldover s else s)

/-! Barriers and presence (R277, R279). -/

/-- A barrier that every present chip has entered completes here (R279). -/
def checkBarrier (s : State) (id : Nat) : State :=
  let set := tget 0 s.fab.barriers id
  let all := s.fab.present ||| selfBit s
  if set = 0 ∨ set &&& all ≠ all then s
  else
    let s := s.modFab (fun f => { f with
      barriers := terase f.barriers id
      gopBusy := if f.entered = some id then false else f.gopBusy
      entered := if f.entered = some id then none else f.entered })
    report ((s.setEvt (offFab 0x24) 1).setEvt (offFab 0x08) 11) 0x0A 0 0x7A

def checkBarriers (s : State) : State := (s.fab.barriers.map (·.1)).foldl checkBarrier s

def enterBarrier (s : State) (id : Nat) (chips : BitVec 16) : State :=
  checkBarrier (s.modFab (fun f => { f with barriers := tset 0 f.barriers id (tget 0 f.barriers id ||| chips) })) id

def leaveBarrier (s : State) (id c : Nat) : State :=
  s.modFab (fun f => { f with barriers := tset 0 f.barriers id (tget 0 f.barriers id &&& ~~~ BitVec.ofNat 16 (2 ^ c)) })

/-- Chips whose bit arrives are present (R277). -/
def hearPresence (s : State) (b : BitVec 16) : State :=
  s.modFab (fun f => { f with
    heard := b, present := f.present ||| b, lost := f.lost &&& ~~~ b,
    miss := f.miss.filter (fun x => !b.getLsbD x.1) })

/-- A chip becomes LOST: its drain ends, and it drops out of barriers (R268, R277, R279). -/
def loseChip (s : State) (c : Nat) : State :=
  let bit := BitVec.ofNat 16 (2 ^ c)
  let s := s.modFab (fun f => { f with present := f.present &&& ~~~ bit, lost := f.lost ||| bit, drains := terase f.drains c,
                                       miss := terase f.miss c })
  checkBarriers (report (s.setEvt (offFab 0x08) 6) 0x0A c 0x72)

/-- A round ends: a present chip whose bit has been absent for PRESENCE_MISS rounds is LOST. -/
def endRound (s : State) : State :=
  let s := (otherChips s).foldl (fun a c =>
    if !present_ a c ∨ s.fab.heard.getLsbD c then a
    else
      let n := tget 0 a.fab.miss c + 1
      if (fabricRec a).presenceMiss ≤ n then loseChip a c else a.modFab (fun f => { f with miss := tset 0 f.miss c n })) s
  s.modFab (fun f => { f with heard := 0, subtree := 0 })

def childPorts (s : State) : List Nat := (treePorts s).filter (fun p => (s.fabLink p).child)

/-- PRESENCE received: from a child it joins the subtree, from the parent it is the combined bitmap (R277). -/
def execPresence (port : PortId) (dir : TreeDir) (bitmap : BitVec 16) (s : State) : Host.Outcome State Fault Refusal :=
  .next (if !s.fabricMode ∨ !linkAccepted s port then s
    else match dir with
      | .up =>
        if !isRoot s ∧ port.val = treeParent s then s
        else (s.modFabLink port (fun x => { x with child := true })).modFab (fun f => { f with subtree := f.subtree ||| bitmap })
      | .down =>
        if isRoot s ∨ port.val ≠ treeParent s then s
        else (childPorts s).foldl (fun a p => a.emit (.presence p bitmap)) (hearPresence s bitmap))

/-- PRESENCE_SEND, every 10 µs: up to the parent, and from the root the combined bitmap down (R277). -/
def execPresenceSend (s : State) : Host.Outcome State Fault Refusal :=
  .next (if !s.fabricMode then s
    else
      let b := s.fab.subtree ||| selfBit s
      let s :=
        if isRoot s then (childPorts s).foldl (fun a p => a.emit (.presence p b)) (hearPresence s b)
        else if linkAccepted s (treeParent s) then s.emit (.presence (treeParent s) b) else s
      endRound s)

/-! Route epochs over the tree (R267). -/

/-- A drain is in progress on this chip, or one expired within the last 10 ms. -/
def drainRecent (s : State) : Bool :=
  !s.fab.drains.isEmpty || (match s.fab.lastExpiry with | some t => decide (s.clock < t + 10000000) | none => false)

/-- BANK_TAG of the idle bank. -/
def idleTag (s : State) : W32 := if s.fab.epoch then (fabricRec s).bankTag0 else (fabricRec s).bankTag1

/-- Every participant is ready: the commit goes to all of them, and the command returns OK (R267). -/
def commitEpoch (s : State) (p : Prepare) : State :=
  let a := s.mbx.active
  let s := treeFlood s 0xFF (.commit (w64 p.at_))
  let s := openFlip (s.modFab (fun f => { f with prep := none })) { at_ := p.at_, cmd := a.map (fun x => (x.path, x.seq)) }
  match a with
  | some x => respondTo s x.path x.seq stOk (leBytes 1 (if s.fab.epoch then 0 else 1) ++ [0] ++ leBytes 2 p.parts.toNat)
  | none => s

/-- A refusal carries REFUSE_MASK and nothing is committed. -/
def refuseEpoch (s : State) (p : Prepare) (status : Nat) : State :=
  let s' := s.modFab (fun f => { f with prep := none })
  match s.mbx.active with
  | some x => respondTo s' x.path x.seq status (leBytes 4 p.refused.toNat)
  | none => s'

/-- The prepare answers are judged: BUSY, then BAD_ARGUMENT, then TIMEOUT where some are not in. -/
def judgeAnswers (s : State) (p : Prepare) : State :=
  if p.drains then refuseEpoch s p stBusy
  else if p.tags then refuseEpoch s p stBadArgument
  else if p.waiting ≠ 0 then refuseEpoch s p stTimeout
  else commitEpoch s p

def judgePrepare (s : State) : State :=
  match s.fab.prep with
  | none => s
  | some p => if p.waiting ≠ 0 then s else judgeAnswers s p

/-- One chip's answer. -/
def takeReply (s : State) (c : Nat) (part draining differs : Bool) : State :=
  match s.fab.prep with
  | none => s
  | some p =>
    let bit := BitVec.ofNat 16 (2 ^ c)
    if p.waiting &&& bit = 0 then s
    else
      let bad := part && (draining || differs)
      judgePrepare (s.modFab (fun f => { f with prep := some { p with
        waiting := p.waiting &&& ~~~ bit, refused := if bad then p.refused ||| bit else p.refused,
        drains := p.drains || (part && draining), tags := p.tags || (part && differs),
        parts := if part then p.parts ||| bit else p.parts } }))

/-- ROUTE_EPOCH_PREPARE_TIMEOUT: the answers are not all in after 4T. -/
def execRouteEpochPrepareTimeout (s : State) : Host.Outcome State Fault Refusal :=
  .next (match s.fab.prep with
    | some p => if s.clock < p.since + 4 * propTime s then s else judgeAnswers s p
    | none => s)

/-! Global operations (R279, R280). -/

/-- A broadcast value is held (R279). -/
def takeBroadcast (s : State) (d : W64) (src : Nat) : State :=
  let s := s.setRegs (offFab 0x30) [d.toNat % 2 ^ 32, d.toNat / 2 ^ 32, 2 ^ 31 + src]
  report (s.setEvt (offFab 0x08) 0) 0x0A 0 0x7A

/-- A fabric reset message: the chip reset starts 1 µs later; Factory ignores it (R280). -/
def takeReset (s : State) : State :=
  if s.mode = .factory then s else s.modFab (fun f => { f with resetAt := some (f.resetAt.getD (s.clock + 1000)) })

/-- What a GOP message does on this chip. -/
def takeGop (s : State) (b : GopBody) : State :=
  match b with
  | .barrierEnter id chips => enterBarrier s id chips
  | .barrierLeave id c => leaveBarrier s id c
  | .barrierDone id => enterBarrier s id (s.fab.present ||| selfBit s)
  | .broadcast d src => takeBroadcast s d src
  | .fabricReset => takeReset s
  | .prepare _ tag =>
    treeFlood s 0xFF (.prepareReply (Fin.ofNat 16 s.chipId) s.inRunModes (drainRecent s) (idleTag s != tag))
  | .prepareReply c part d t => takeReply s c part d t
  | .commit at_ => if s.inRunModes then openFlip s { at_ := at_.toNat } else s
  | .snapshot at_ id => if s.inRunModes then s.modFab (fun f => { f with snap := some { at_ := at_.toNat, id := id } }) else s

/-- GOP: the message goes on over the tree, and acts here. -/
def execGop (port : PortId) (_dir : TreeDir) (body : GopBody) (s : State) : Host.Outcome State Fault Refusal :=
  .next (if !s.fabricMode ∨ !linkAccepted s port ∨ (s.mode = .factory ∧ body = .fabricReset) then s
    else takeGop (treeFlood s port body) body)

/-- FAB_GOPCTL is written with GO: its RW fields take the write. -/
def gopWrite (s : State) (id op : Nat) : State := s.setReg (offFab 0x20) (w32 (fld id 16 8 + fld op 0 3))

def gopOpen (s : State) (path : Path) : Bool :=
  pathOpen s path && s.fabricMode && s.mode != .load && s.mode != .assay

def startBarrier (s : State) (id : Nat) : State :=
  let s := s.modFab (fun f => { f with gopBusy := true, entered := some id })
  enterBarrier (treeFlood s 0xFF (.barrierEnter id (selfBit s))) id (selfBit s)

def execFabGopBarrier (path : Path) (barrierId : Byte) (s : State) : Host.Outcome State Fault Refusal :=
  .next (if !gopOpen s path then s
    else
      let s := gopWrite s barrierId.toNat 0
      if s.fab.gopBusy then s else startBarrier s barrierId.toNat)

def startBroadcast (s : State) : State :=
  let d := w64 ((s.reg (offFab 0x28)).toNat + 2 ^ 32 * (s.reg (offFab 0x2C)).toNat)
  (takeBroadcast (treeFlood s 0xFF (.broadcast d (Fin.ofNat 16 s.chipId))) d s.chipId).setEvt (offFab 0x24) 1

def execFabGopBroadcast (path : Path) (s : State) : Host.Outcome State Fault Refusal :=
  .next (if !gopOpen s path then s
    else
      let s := gopWrite s (bitsN (s.reg (offFab 0x20)).toNat 16 8) 1
      if s.fab.gopBusy then s else startBroadcast s)

/-- CANCEL withdraws this chip's entry; it is the one operation taken while a barrier is in progress (R279). -/
def cancelBarrier (s : State) : State :=
  match s.fab.entered with
  | some id =>
    let s := treeFlood s 0xFF (.barrierLeave id (Fin.ofNat 16 s.chipId))
    (leaveBarrier s id s.chipId).modFab (fun f => { f with entered := none, gopBusy := false })
  | none => s

def execFabGopCancel (path : Path) (s : State) : Host.Outcome State Fault Refusal :=
  .next (if !gopOpen s path then s else cancelBarrier (gopWrite s (bitsN (s.reg (offFab 0x20)).toNat 16 8) 2))

/-- A fabric reset starts only with CONFIRM 0xA5 in the same write (R280). -/
def startFabricReset (s : State) : State :=
  if s.mode = .factory then s else takeReset (treeFlood s 0xFF .fabricReset)

def execFabGopFabricReset (path : Path) (confirm : Byte) (s : State) : Host.Outcome State Fault Refusal :=
  .next (if !gopOpen s path then s
    else
      let s := gopWrite s (bitsN (s.reg (offFab 0x20)).toNat 16 8) 3
      if confirm = 0xA5 ∧ !s.fab.gopBusy then startFabricReset s else s)

/-! Faults of other chips and the ring (R285 to R288, R327). -/

/-- The 16 bytes of a Cupel message (Table 11.1). -/
def msgBytes (m : Msg) : List Byte :=
  let ctx := fld m.tenant 40 8 + flag m.ownerValid 39 + flag m.ownerM 38 + fld m.port 31 7 + fld m.detail 0 31
  leBytes 16 (fld m.time 0 21 + fld ctx 21 48 + fld m.severity 69 3 + fld m.kind 72 8 + fld m.inst 80 8 + fld m.source 88 8)

/-- FAULT (R285, R327): passed on over the tree, and raised here as REMOTE_S3 or REMOTE_S4. -/
def execFault (port : PortId) (origin : ChipId) (level : Nat) (msg : Msg) (s : State) : Host.Outcome State Fault Refusal :=
  .next (if !s.fabricMode ∨ !linkAccepted s port then s
    else
      let s := ((treePorts s).filter (· != port.val)).foldl (fun a p => a.emit (.fault p origin level msg)) s
      sendMsg s 13 { source := 0x20, inst := origin, kind := if 4 ≤ level then 0x79 else 0x78,
                     detail := fld msg.source 16 8 + fld msg.inst 8 8 + fld msg.kind 0 8, time := s.now % 2 ^ 21,
                     orig := msgBytes msg })

/-- The ring is wired in and the outputs are driven. -/
def ringOn (s : State) : Bool :=
  s.fabricMode && (fabricRec s).ringEn && s.mode != .reset && s.mode != .load && s.mode != .assay

/-- RING_INPUT_CHANGE (R287, R288). -/
def ringChange (s : State) (st : RingIn) : State :=
  let s := s.modFab (fun f => { f with ringIn := some st, ringSince := s.clock })
  if !ringOn s then s
  else match st with
    | .healthy => s
    | .alarm => report ((s.modFab (fun f => { f with ringOut := 1 })).setEvt (offFab 0x08) 7) 0x0D 0 0x77
    | .broken =>
      if s.fab.ringArmed then report (s.setEvt (offFab 0x08) 8) 0x0D 0 0x76
      else if s.fab.ringOpened then s
      else report ((s.modFab (fun f => { f with ringOpened := true })).setEvt (offFab 0x08) 9) 0x0D 0 0x75

def execRingInputChange (st : RingIn) (s : State) : Host.Outcome State Fault Refusal := .next (ringChange s st)

/-- RING_ARM: the input has read HEALTHY for 1 ms in Run or Degraded (R288). -/
def execRingArm (s : State) : Host.Outcome State Fault Refusal :=
  .next (if ringOn s ∧ s.inRunModes ∧ s.fab.ringIn = some .healthy ∧ s.fab.ringSince + 1000000 ≤ s.clock then
      s.modFab (fun f => { f with ringArmed := true })
    else s)

end Sys2Proof.Machine
end

