-- ==== Sys2Proof/Machine/Links.lean ====
section
/-! DEFINITION. Lanes and links: training, rate and width, detectors, the burnish loop, power states and link control
(R75 to R98, R303, R308). -/

namespace Sys2Proof.Machine

/-! Bifurcation (R76 to R78, Table 3.2). -/

/-- Widths of port slots 0..7 of a bifurcation entry; 0 is unused. -/
def bifWidths (code : Nat) : List Nat :=
  [[16, 0, 0, 0, 0, 0, 0, 0], [8, 0, 0, 0, 8, 0, 0, 0], [8, 0, 0, 0, 4, 0, 4, 0], [4, 0, 4, 0, 8, 0, 0, 0],
   [4, 0, 4, 0, 4, 0, 4, 0], [8, 0, 0, 0, 2, 2, 2, 2], [2, 2, 2, 2, 8, 0, 0, 0], [4, 0, 4, 0, 2, 2, 2, 2],
   [2, 2, 2, 2, 4, 0, 4, 0], [2, 2, 2, 2, 2, 2, 2, 2], [8, 0, 0, 0, 1, 1, 1, 1], [2, 2, 2, 2, 1, 1, 1, 1],
   [1, 1, 1, 1, 1, 1, 1, 1]].getD code []

/-- The configured width of port slot `k` of station `i`; 0 where unused. -/
def slotWidth (s : State) (i k : Nat) : Nat :=
  match tfind s.cfg.stations i with | some r => (bifWidths r.bifurcation).getD k 0 | none => 0

/-- A port's configured width (R78). -/
def cfgWidth (s : State) (p : Nat) : Nat := slotWidth s (stationOf p) (p % 8)

/-- The port slot that owns lane `j` of a station. -/
def laneSlot (s : State) (i j : Nat) : Option Nat :=
  (List.range 8).find? (fun k => decide (2 * k ≤ j) && decide (j < 2 * k + slotWidth s i k))

/-- The port that owns a lane, where it has a PORT record. -/
def lanePort (s : State) (i j : Nat) : Option Nat :=
  match laneSlot s i j with
  | some k => if (s.portRec (8 * i + k)).isSome then some (8 * i + k) else none
  | none => none

/-- The station lanes of a port. -/
def portLanes (s : State) (p : Nat) : List Nat := (List.range (cfgWidth s p)).map (fun n => 2 * (p % 8) + n)

/-- A lane's logical number within its port; under lane reversal it counts down from the configured width, whatever width was negotiated.
DESIGN CHOICE, log entry 91. -/
def logicalLane (s : State) (p j : Nat) : Nat :=
  let n := j - 2 * (p % 8)
  if (s.port p).link.reversed then cfgWidth s p - 1 - n else n

/-- The ports of a station that have a lane in quad `q`. -/
def quadPorts (s : State) (i q : Nat) : List Nat :=
  s.portNums.filter (fun p => stationOf p == i && (portLanes s p).any (fun j => j / 4 == q))

def modLanesOf (s : State) (p : Nat) (f : Lane → Lane) : State :=
  (portLanes s p).foldl (fun a j => a.modLane (stationOf p) j f) s

/-! Rates and widths (R80 to R84). -/

/-- A port's own side may use flit mode. -/
def ownFlit (s : State) (p : Nat) : Bool :=
  s.isFabric p || (match s.portRec p with | some r => !r.avoidFlit | none => false)

/-- The highest common rate (R82). -/
def commonRate (s : State) (p : Nat) : Nat :=
  let l := (s.port p).link
  min l.peerRate (if ownFlit s p && l.peerFlit then 6 else 5)

def targetRateOf (s : State) (p : Nat) : Nat := match s.portRec p with | some r => r.targetRate | none => 6

/-- The lower of TARGET_RATE and the highest common rate. -/
def wantedRate (s : State) (p : Nat) : Nat := min (targetRateOf s p) (commonRate s p)

/-- The rate that training goes for: no higher than a Target Link Speed that was written (R98). -/
def goalRate (s : State) (p : Nat) : Nat :=
  let t := (s.port p).link.targetRate
  if t = 0 then wantedRate s p else min t (wantedRate s p)

/-- Equalisation is bypassed below the highest rate that both sides share (R80). -/
def bypasses (s : State) (p : Nat) : Bool := (s.port p).link.peerBypass && (match s.portRec p with | some r => r.eqBypass | none => false)

/-- The next rate on the way up, where the hold of R81 allows one. -/
def nextRate (s : State) (p : Nat) : Option Nat :=
  let l := (s.port p).link
  if l.rateHeld ∨ goalRate s p ≤ l.rate then none else some (l.rate + 1)

/-- A rise to `rate` that needs no equalisation: to 5 GT/s, or one that bypass passes over (R80). -/
def risesPlain (s : State) (p rate : Nat) : Bool := nextRate s p == some rate && (decide (rate ≤ 2) || (bypasses s p && decide (rate < wantedRate s p)))

/-- Equalisation at `rate` is due: at the next rate on the way up, with bypass at the highest shared rate from any lower one, or again at the
present rate (R80, R95). -/
def equalises (s : State) (p rate : Nat) : Bool :=
  let l := (s.port p).link
  decide (3 ≤ rate)
    && (decide (rate = l.rate)
      || (if bypasses s p then (nextRate s p).isSome && decide (rate = wantedRate s p) && decide (rate ≤ goalRate s p) else nextRate s p == some rate))

/-- WIDTH_SHORT becomes 1. -/
def setWidthShort (s : State) (p : Nat) : State :=
  if (s.port p).link.widthShort then s
  else reportPort ((s.modLink p (fun l => { l with widthShort := true })).setEvt (offPrt p 0x04) 5) p 0x23

def setSpeedShort (s : State) (p : Nat) : State :=
  if (s.port p).link.speedShort then s
  else reportPort ((s.modLink p (fun l => { l with speedShort := true })).setEvt (offPrt p 0x04) 6) p 0x23

/-- A change from rate `old` that is a step of R80 on the way up: the first L0 at 2.5 GT/s, or a rise. DEDUCED from Table 3.3,
log entry 80. -/
def stepsUp (old rate : Nat) : Bool := decide (old < rate) && (old != 0 || rate == 1)

/-- Both flags clear where a training reaches the configured width and the wanted rate; else each shortfall is flagged
(R82). `old` is the rate before; a step on the way up is no shortfall of rate. -/
def judgeShort (s : State) (p old : Nat) : State :=
  let l := (s.port p).link
  let w := decide (l.width < cfgWidth s p)
  let r := decide (l.rate < wantedRate s p)
  if !w ∧ !r then s.modLink p (fun l => { l with widthShort := false, speedShort := false })
  else
    let s := if w then setWidthShort s p else s
    if r && !stepsUp old l.rate then setSpeedShort s p else s

/-- The end of a transmission in progress under a link's new rate and width. -/
def newEnd (x : LastTx) (l : Link) (t : Nat) : Nat :=
  let at_ := x.paused.getD t
  t + wireTime l (ceilDiv (x.wire * (x.end_ - at_)) (max 1 (x.end_ - x.start)))

/-- A transmission that a change of rate or width takes past its close is an overrun (R178). -/
def checkOverrun (s : State) (p : Nat) (l : Link) : State :=
  let t := stationTime s p
  match (s.port p).sched.last with
  | none => s
  | some x =>
    if x.end_ ≤ x.paused.getD t then s
    else
      let e := newEnd x l t
      let late := match x.close with | some c => decide (c < e) | none => false
      let s := s.modSched p (fun q => { q with last := some { x with end_ := e, paused := none,
                                                                     close := if late then none else x.close } })
      if late then overrun s p else s

/-- New rate and width take effect and go to the egress scheduler (R84). -/
def applyRate (s : State) (p rate width active : Nat) : State :=
  let old := (s.port p).link
  let s := if old.rate = rate ∧ old.width = width then s else decideCut s p
  let l := { old with rate := rate, width := width, active := active, ltssm := .l0, prevRate := if old.rate < rate then old.rate else old.prevRate }
  let s := s.modLink p (fun _ => l)
  let s := checkOverrun s p l
  let s := if old.rate = rate then s
    else modLanesOf s p (fun x => { x with eyeValid := false, aligned := rate == 6, lowCount := 0 })
  if old.rate = rate ∧ old.active = active ∧ old.width = width then s else checkStarve s p

/-- The port enters Recovery from L0 or L0p (R101). -/
def goRecovery (s : State) (p : Nat) : State :=
  if (s.port p).link.ltssm ≠ .l0 then s
  else
    let s := s.modLink p (fun l => { l with ltssm := .recovery })
    let s := s.modSched p (fun q => { q with last := q.last.map (fun x => { x with paused := some (x.paused.getD (stationTime s p)) }) })
    (reportPort ((s.bump (offPrt p 0x30)).setEvt (offPrt p 0x04) 3) p 0x26).emit (.linkRecovery p)

/-- A link-layer event is counted, and raises its AER error (R86, R102, R296). FEC and the flit CRC work in flit mode; a flit that fails is
asked for again by a selective NAK. -/
def linkErr (s : State) (p : Nat) (e : LinkErr) : State :=
  let flit := (s.port p).link.flit
  match e with
  | .receiver => linkError (s.bump (offPrt p 0x10)) p false aerReceiver
  | .badDllp => linkError (s.bump (offPrt p 0x18)) p false aerBadDllp
  | .replay n => s.bump (offPrt p 0x1C) n
  | .replayTimeout => linkError (s.bump (offPrt p 0x20)) p false aerReplayTo
  | .replayRollover => linkError (s.bump (offPrt p 0x24)) p false aerRollover
  | .fec n => if flit then s.bump (offPrt p 0x28) n else s
  | .flitCrc n k =>
    if !flit then s
    else
      let s := (s.bump (offPrt p 0x2C) n).emit (.flitNak p)
      if k = 0 then s else linkError (s.bump (offPrt p 0x14) k) p false aerBadTlp
  | .dlProtocol => linkError s p true aerDlp
  | .fcProtocol => linkError s p true aerFcp

/-- Where RATE_OR_WIDTH_CHANGE may take the rate: it stays, it falls, or it rises without equalisation. -/
def rateAllowed (s : State) (p rate : Nat) : Bool := decide (1 ≤ rate) && (decide (rate ≤ (s.port p).link.rate) || risesPlain s p rate)

/-- RATE_OR_WIDTH_CHANGE: at the end of Recovery or of L1, or by the partner's L0p request (R80, R84, R97). -/
def execRateOrWidthChange (port : PortId) (rate width active : Nat) (byL0p : Bool) (s : State) :
    Host.Outcome State Fault Refusal :=
  let l := (s.port port).link
  .next (if !l.dlUp ∨ width = 0 ∨ active = 0 ∨ width < active ∨ cfgWidth s port < width ∨ !rateAllowed s port rate then s
    else if byL0p then
      if l.flit ∧ l.ltssm = .l0 ∧ rate = l.rate ∧ width = l.width then
        (applyRate s port rate width active).bump (offPrt port 0x34)
      else s
    else if l.ltssm = .recovery ∨ (l.ltssm = .l1 ∧ rate = l.rate ∧ width = l.width) then judgeShort (applyRate s port rate width active) port l.rate
    else s)

/-- The floor for a rate (R81). -/
def floorOf (s : State) (p rate : Nat) : Nat :=
  let r := s.stationRec (stationOf p)
  if rate = 6 then r.floorPam4 else r.floorNrz

/-- The lanes of a link at its negotiated width. -/
def linkLanes (s : State) (p : Nat) : List Nat := (portLanes s p).filter (fun j => decide (logicalLane s p j < (s.port p).link.width))

def recordEyes (s : State) (p : Nat) (eyes : List Eye) : State :=
  ((linkLanes s p).zip eyes).foldl (fun a x =>
    a.modLane (stationOf p) x.1 (fun v => { v with eyeValid := true, eyeHeight := x.2.height, eyeWidth := x.2.width })) s

/-- A failed rate: the link returns to the previous one, and is held there (R81). -/
def failRate (s : State) (p old : Nat) : State :=
  let l := (s.port p).link
  setSpeedShort ((applyRate s p old l.width l.active).modLink p (fun l => { l with rateHeld := true })) p

/-- RATE_EQ_COMPLETE (R81), out of Recovery, with the eyes of the link's lanes in lane order: a lane below the floor fails the rate. The eyes
of a failed rate stand in the registers with VALID 0, since the return is a rate change (Table 3.13). DEDUCED, log entry 100. -/
def execRateEqComplete (port : PortId) (rate : Nat) (eyes : List Eye) (s : State) : Host.Outcome State Fault Refusal :=
  let l := (s.port port).link
  .next (if !l.dlUp ∨ l.ltssm ≠ .recovery ∨ !equalises s port rate ∨ eyes.length ≠ (linkLanes s port).length then s
    else
      let t := recordEyes (applyRate s port rate l.width l.active) port eyes
      if eyes.any (fun e => decide (e.height < floorOf s port rate)) then failRate t port (if rate = l.rate then l.prevRate else l.rate)
      else judgeShort t port l.rate)

/-! Link up (R57, R83, R123, R303, R363). -/

/-- Every quad that a port uses is locked. -/
def quadsLocked (s : State) (p : Nat) : Bool := (portLanes s p).all (fun j => (s.station (stationOf p)).pllLock.getLsbD (j / 4))

/-- A port may be trained in the present mode: upstream from its station's Assay on, the others in Run and Degraded. -/
def trainOpen (s : State) (p : Nat) : Bool :=
  (s.portRec p).isSome && quadsLocked s p && (s.station (stationOf p)).passed && !s.unusable.getLsbD (stationOf p)
    && (if s.isUp p then s.mode != .reset && s.mode != .load else s.inRunModes)
    && mayTrain s p && (s.fabLink p).clashAt.isNone

def retimersOk (s : State) (p n : Nat) : Bool :=
  match s.portRec p with | some r => r.retimers == 3 || r.retimers == n | none => false

/-- A link that may not come up as it trained: WIDTH_SHORT with width 0 (R85, Table 3.7). -/
def holdDown (s : State) (p : Nat) (st : Ltssm) : State :=
  setWidthShort (s.modLink p (fun l => { l with ltssm := st, width := 0, active := 0, rate := 0 })) p

/-- The slot's cartridge has a CART record, so its port is quarantined at every DL_UP (R363). -/
def hasCart (s : State) (p : Nat) : Bool :=
  match slotOfPort s p with | some n => (tfind s.cfg.carts n).isSome | none => false

/-- The side that takes the downstream role: a downstream port, and on a fabric link the port of the chip with the lower Chip ID (R83). -/
def takesDown (s : State) (p peerChip : Nat) : Bool := s.isDown p || (s.isFabric p && decide (s.chipId < peerChip))

/-- A link comes up, at 2.5 GT/s (R80); flit mode is used where both sides agree it (R85). -/
def linkUp (s : State) (p width retimers : Nat) (reversed : Bool) (peerRate : Nat) (peerFlit peerBypass tag10 : Bool) (peerChip : Nat) : State :=
  let s := s.modPort p (fun q => { q with
    link := { q.link with ltssm := .l0, rate := 1, width := width, active := width, flit := ownFlit s p && peerFlit, reversed := reversed,
                          retimers := retimers, dlUp := true, quadFail := false, rateHeld := false, pmeOff := false, prevRate := 0, peerRate := peerRate,
                          peerFlit := peerFlit, peerBypass := peerBypass, downRole := takesDown s p peerChip, excused := false }
    tagRead := s.isUp p, tag10 := s.isUp p && tag10, tag14 := false, quarantine := hasCart s p })
  let s := (portLanes s p).foldl (fun a j => a.modLane (stationOf p) j (fun x =>
    { x with los := false, cdrLock := true, aligned := false, eyeValid := false, lowCount := 0,
             polarity := Config.lanePolarity (stationOf p) j a.clock })) s
  let s := match slotOfPort s p with | some n => s.modSlot n (fun x => { x with authSince := s.clock }) | none => s
  let s := checkStarve (judgeShort s p 0) p
  let s := if s.isFabric p ∧ s.fabricMode then (s.modFabLink p (fun x => { x with st := 1, cause := 0 })).emit (.hello p (ownHello s p)) else s
  if s.isUp p ∧ (s.port p).contain.cause = 6 then
    releasePort (if (s.port p).contain.phase = 1 then containFinish s p else s) p
  else s

/-- LINK_DL_UP. A fabric partner with this chip's own Chip ID leaves the link in Detect (R83, R254). -/
def execLinkDlUp (port : PortId) (width retimers : Nat) (reversed : Bool) (peerRate : Nat) (peerFlit peerBypass tag10 : Bool)
    (peerChip : ChipId) (s : State) : Host.Outcome State Fault Refusal :=
  .next (if !trainOpen s port ∨ (s.port port).link.dlUp ∨ peerRate = 0 ∨ 6 < peerRate ∨ width = 0 ∨ cfgWidth s port < width
        ∨ (s.isFabric port ∧ peerChip.val = s.chipId) ∨ ((s.port port).contain.phase ≠ 0 ∧ (s.port port).link.ltssm = .disabled) then s
    else if !retimersOk s port retimers then holdDown s port .detect
    else if s.isFabric port ∧ !peerFlit then holdDown s port .configuration
    else linkUp s port width retimers reversed peerRate peerFlit peerBypass tag10 peerChip)

/-- TAG_CAPABILITY_READ: the completer's tag capabilities set the port's tag form (R123, R124). While the housekeeping controller is stalled
it completes no read (R28). -/
def execTagCapabilityRead (port : PortId) (tag10 tag14 : Bool) (s : State) : Host.Outcome State Fault Refusal :=
  .next (if s.isDown port ∧ (s.port port).link.dlUp ∧ s.hkRunning then
      s.modPort port (fun q => { q with tagRead := true, tag10 := tag10, tag14 := tag14 })
    else s)

/-! Link down (R92, R118 to R120, R303, R308). -/

/-- What a bridge keeps over a reset of its VH: the sticky bits of R63. -/
def stickyBridge (b : Bridge) : Bridge :=
  { uncStatus := b.uncStatus, corStatus := b.corStatus, firstErr := b.firstErr, hdrLog := b.hdrLog }

/-- A hot reset goes out on a downstream port; the DL_DOWN that follows is excused (R303, R308). -/
def sendHotReset (s : State) (p : Nat) : State :=
  (s.modLink p (fun l => { l with ltssm := .hotReset, excused := true })).emit (.hotReset p)

/-- The reset of a VH whose upstream port has gone down (R303). A downstream port on another chip is told to take its hot reset there, which
is that chip's HOT_RESET by the VH's host; the manual names no message that tells it (log entry 96). -/
def resetVh (s : State) (vn : Nat) : State :=
  match s.vhRec vn with
  | none => s
  | some v =>
    let keys := bridgeKey s { port := v.upPort, chip := v.upChip } :: v.ds.map (bridgeKey s)
    let s := keys.foldl (fun a k => a.setBridge k (stickyBridge (a.bridge k))) s
    let s := s.modVh vn (fun x => { mfBar0 := x.mfBar0, mfBar2 := x.mfBar2, vfMem := x.vfMem, mps := x.mps })
    let s := v.ds.foldl (fun a d =>
      if d.chip ≠ a.chipId then a.emit (.remoteReset d.chip d.port)
      else if (a.port d.port).link.dlUp ∧ !dpcHeld a d.port then sendHotReset a d.port else a) s
    (vhTenants s vn).foldl startFlr s

/-- A surprise removal (R308): Surprise Down at the bridge, and containment. -/
def surpriseDown (s : State) (p : Nat) : State := linkError (contain s p 3) p true aerSurprise

/-- The link was directed to Disabled by a REACT containment, raised to QUENCH or not: its DL_DOWN resets no VH (R303). -/
def reactDown (s : State) (p : Nat) : Bool :=
  let q := s.port p
  q.link.ltssm == .disabled && dpcHeld s p && (q.contain.cause == 7 || q.contain.cause == 9)

/-- DL_DOWN of an upstream or downstream port. -/
def portDown (s : State) (p : Nat) : State :=
  let own := reactDown s p
  let excused := (s.port p).link.excused || (s.port p).contain.phase == 1 || (s.port p).contain.phase == 2
  let s := dropTx (dropPartial s p .linkDown) p
  let s := (s.modPort p (fun q => { q with link := linkCleared q.link, tagRead := false, tag10 := false, tag14 := false,
                                           quarantine := hasCart s p })).setEvt (offPrt p 0x04) 4
  let s := modLanesOf s p (fun x => { x with aligned := false, eyeValid := false, cdrLock := false })
  let s := match slotOfPort s p with | some n => s.modSlot n (fun x => { x with hallmark := 0 }) | none => s
  if s.isUp p then
    if own then s
    else
    let s := contain s p 6
    match vhOfPort s p with | some v => resetVh s v | none => s
  else if excused then
    let s := reportPort s p 0x27
    if dpcHeld s p then s else beginTraining s p
  else surpriseDown s p

/-- The station core clock stops when all its ports are in L1, L2 or down, and nothing is queued toward it. -/
def checkClock (s : State) (i : Nat) : State :=
  let quiet := (s.portNums.filter (fun p => stationOf p == i)).all (fun p =>
    let l := (s.port p).link
    (!l.dlUp || l.ltssm == .l1 || l.ltssm == .l2) && (descsTo s p).isEmpty)
  if quiet then s.modStation i (fun v => { v with clockOff := true }) else s

/-- DL_DOWN of any port (R91, R265, R303, R308). -/
def dlDown (s : State) (p : Nat) : State :=
  if !(s.port p).link.dlUp then s
  else checkClock (if s.isFabric p then fabricDown s p else portDown s p) (stationOf p)

def execLinkDlDown (port : PortId) (s : State) : Host.Outcome State Fault Refusal := .next (dlDown s port)

/-- The link leaves L0, or L1 on its way back, for Recovery; or it follows the partner through Recovery into Loopback, and its data link
layer goes down (Table 3.1). -/
def enterRecovery (s : State) (p : Nat) (goes : RecoveryTo) : State :=
  match goes with
  | .stay => s
  | .recovery => if (s.port p).link.ltssm = .l1 then s.modLink p (fun l => { l with ltssm := .recovery }) else goRecovery s p
  | .loopback => (dlDown (goRecovery s p) p).modLink p (fun l => { l with ltssm := if l.ltssm = .disabled then .disabled else .loopback })

/-- RECOVERY (R101), with the link-layer events that came before it. The table has no row for such events alone: log entry 78. -/
def execRecovery (r : LinkRecovery) (s : State) : Host.Outcome State Fault Refusal :=
  .next (if (s.port r.port).link.dlUp then enterRecovery (r.errs.foldl (fun a e => linkErr a r.port e) s) r.port r.goes else s)

/-! Detectors and alignment (R87 to R90). -/

/-- One block time of the hunt: the run lengths of the 130 offsets. -/
def huntStep (b : HuntBlock) (runs : List Nat) : List Nat :=
  runs.zipIdx.map (fun x =>
    if (match b.eieos with | some e => e.val == x.2 | none => false) then 64
    else if b.valid.getLsbD x.2 then x.1 + 1 else 0)

/-- The hunt over received blocks: the offset it accepts (R87). -/
def huntFrom : List HuntBlock → List Nat → Option Nat
  | [], _ => none
  | b :: r, runs =>
    let n := huntStep b runs
    match n.findIdx? (fun x => 64 ≤ x) with
    | some o => some o
    | none => huntFrom r n

/-- ALIGNMENT_HUNT. At 64 GT/s a lane aligns at an ordered set (R88). -/
def execAlignmentHunt (i : StationId) (j : LaneId) (blocks : List HuntBlock) (s : State) : Host.Outcome State Fault Refusal :=
  .next (match lanePort s i j with
    | none => s
    | some p =>
      let rate := (s.port p).link.rate
      if rate < 3 ∨ (s.lane i j).aligned then s
      else if rate = 6 then
        (if blocks.any (fun b => b.eieos.isSome) then s.modLane i j (fun v => { v with aligned := true }) else s)
      else match huntFrom blocks (List.replicate 130 0) with
        | some o => s.modLane i j (fun v => { v with aligned := true, offset := o })
        | none => s)

/-- A lane is active at its link's present width. -/
def laneActive (s : State) (p j : Nat) : Bool :=
  decide (logicalLane s p j < (s.port p).link.active)

/-- The lane is expected to carry data (R89); `idle` says that the present substate is electrical idle. A lane beyond the negotiated width
carries none once the width is agreed. -/
def expectsData (s : State) (p j : Nat) (idle : Bool) : Bool :=
  let l := (s.port p).link
  (l.ltssm == .l0 && laneActive s p j) || (l.ltssm == .recovery && !idle && decide (logicalLane s p j < l.width))
    || (l.ltssm == .configuration && !idle)

/-- A signal event of Table 3.9, bit `b`: reported, and in L0 the link is directed to Recovery (R89, R90). -/
def signalEvent (s : State) (p j b : Nat) (idle : Bool) : State :=
  if expectsData s p j idle then
    goRecovery (reportPort (s.setEvt (offPrt p 0x04) b) p 0x22 none (some (2 ^ b))) p
  else s

/-- ALIGN_LOST (R88): `bad` of the last 64 sync headers were invalid, or of the last 64 flits were beyond FEC. -/
def execAlignLost (i : StationId) (x : LaneBad) (s : State) : Host.Outcome State Fault Refusal :=
  .next (match lanePort s i x.lane with
    | some p =>
      if (s.lane i x.lane).aligned ∧ 3 ≤ (s.port p).link.rate ∧ (s.stationRec i).alignBadMax ≤ x.bad then
        reportPort ((s.modLane i x.lane (fun v => { v with aligned := false })).setEvt (offPrt p 0x04) 2) p 0x22 none (some 4)
      else s
    | none => s)

/-- LOS (R89): the input has stayed at `mv` peak-to-peak for 1 µs. -/
def execLos (i : StationId) (x : LaneLevel) (s : State) : Host.Outcome State Fault Refusal :=
  .next (if (s.stationRec i).losMv ≤ x.mv then s
    else
      let s := s.modLane i x.lane (fun v => { v with los := true })
      match lanePort s i x.lane with | some p => signalEvent s p x.lane 0 x.idle | none => s)

/-- The two checks of R90: the recovered clock off by more than LOCK_PPM in two windows in a row, or the phase-lock indicator low for 1 µs. -/
def lockGone (s : State) (i ppm0 ppm1 phaseLowNs : Nat) : Bool :=
  (decide ((s.stationRec i).lockPpm < ppm0) && decide ((s.stationRec i).lockPpm < ppm1)) || decide (1000 ≤ phaseLowNs)

def execLockLost (i : StationId) (x : LaneLock) (s : State) : Host.Outcome State Fault Refusal :=
  .next (if !lockGone s i x.ppm0 x.ppm1 x.phaseLowNs then s
    else
      let s := s.modLane i x.lane (fun v => { v with cdrLock := false })
      match lanePort s i x.lane with | some p => signalEvent s p x.lane 1 x.idle | none => s)

/-- LOS_DEASSERT (R89): the input has stayed at `mv`, above LOS_MV + 20 mV, for 1 µs. -/
def execLosDeassert (i : StationId) (x : LaneMv) (s : State) : Host.Outcome State Fault Refusal :=
  .next (if x.mv ≤ (s.stationRec i).losMv + 20 then s else s.modLane i x.lane (fun v => { v with los := false }))

def execCdrLock (i : StationId) (j : LaneId) (s : State) : Host.Outcome State Fault Refusal :=
  .next (s.modLane i j (fun v => { v with cdrLock := true }))

/-! Quad PLLs and lane-group resets (R91, R92). -/

def quadBit (q : Nat) : BitVec 4 := BitVec.ofNat 4 (2 ^ q)

/-- A port of an unlocked quad: link down, a training given up, and the event QUAD_PLL. -/
def quadDown (s : State) (p : Nat) : State :=
  let s := (dlDown s p).modLink p (fun l => { l with ltssm := if l.ltssm = .disabled then .disabled else .detect })
  reportPort (s.setEvt (offPrt p 0x04) 9) p 0x25

/-- The lanes of a quad enter or leave electrical idle. -/
def idleQuad (v : Station) (q : Nat) (on : Bool) : Station :=
  { v with lanes := (List.range 4).foldl (fun t k => tset {} t (4 * q + k) { tget {} t (4 * q + k) with idle := on }) v.lanes }

/-- QUAD_PLL (R91): the PLL has differed from REFCLK by `ppm` over 1 µs. -/
def execQuadPll (i : StationId) (x : QuadRead) (s : State) : Host.Outcome State Fault Refusal :=
  .next (if x.ppm ≤ 200 ∨ !(s.station i).pllLock.getLsbD x.quad then s
    else
      let s := s.modStation i (fun v => { idleQuad v x.quad true with pllLock := v.pllLock &&& ~~~ quadBit x.quad, pllLostAt := tset 0 v.pllLostAt x.quad s.clock })
      (quadPorts s i x.quad).foldl quadDown s)

/-- A port restarts from Detect once every quad it uses is locked. -/
def restartPort (s : State) (p : Nat) : State :=
  if quadsLocked s p then
    let s := s.modLink p (fun l => { l with quadFail := false })
    if !(s.port p).link.dlUp ∧ (s.port p).link.ltssm ≠ .disabled ∧ trainOpen s p then beginTraining s p else s
  else s

def relock (s : State) (i q : Nat) : State :=
  let s := s.modStation i (fun v => { idleQuad v q false with pllLock := v.pllLock ||| quadBit q, pllFail := v.pllFail &&& ~~~ quadBit q })
  (quadPorts s i q).foldl restartPort s

def execQuadPllRelock (i : StationId) (q : QuadId) (s : State) : Host.Outcome State Fault Refusal :=
  .next (if s.mode = .reset then s else relock s i q)

/-- QUAD_FAIL: no relock after 1 ms; the ports stay down. -/
def execQuadFail (i : StationId) (q : QuadId) (s : State) : Host.Outcome State Fault Refusal :=
  let v := s.station i
  .next (if s.mode = .reset ∨ v.pllLock.getLsbD q ∨ v.pllFail.getLsbD q ∨ s.clock < tget 0 v.pllLostAt q + 1000000 then s
    else
      let s := s.modStation i (fun v => { v with pllFail := v.pllFail ||| quadBit q, pllTryAt := tset 0 v.pllTryAt q s.clock })
      (quadPorts s i q).foldl (fun a p => a.modLink p (fun l => { l with quadFail := true })) s)

/-- QUAD_RELOCK_RETRY: 100 ms after the last attempt on a failed quad, with its result. -/
def execQuadRelockRetry (i : StationId) (q : QuadId) (relocked : Bool) (s : State) : Host.Outcome State Fault Refusal :=
  let v := s.station i
  .next (if !v.pllFail.getLsbD q ∨ s.mode = .reset ∨ s.clock < tget 0 v.pllTryAt q + 100000000 then s
    else if relocked then relock s i q
    else s.modStation i (fun v => { v with pllTryAt := tset 0 v.pllTryAt q s.clock }))

/-- A TLP is in transmission on a port: cut through, or sent whole and not yet at its end. -/
def inTransmission (s : State) (p : Nat) : Bool :=
  let q := (s.port p).sched
  q.txing.isSome || (match q.last with | some x => decide (stationTime s p < x.end_) | none => false)

/-- A TLP in transmission is ended by a station core reset: nullified in non-flit mode; in flit mode the link enters Recovery. -/
def coreResetTx (s : State) (p : Nat) : State :=
  if (s.port p).link.flit then (if inTransmission s p then goRecovery s p else s)
  else match (s.port p).sched.txing.bind (findDesc s) with
    | some d => cutShort s p d true
    | none => s

/-- LANE_GROUP_RESET: of one quad toward the station core, or of the core toward every lane group (R92). -/
def execLaneGroupReset (i : StationId) (q : Option QuadId) (s : State) : Host.Outcome State Fault Refusal :=
  .next (match q with
    | some q => (quadPorts s i q).foldl (fun a p => dropPartial a p .partialRx) s
    | none => (s.portNums.filter (fun p => stationOf p == i.val)).foldl coreResetTx s)

/-! The burnish loop (R93 to R95). -/

/-- The value and range of a knob: ctle, vga, dfe1..dfe5. -/
def knobVal (v : Lane) (k : Nat) : Int := if k = 0 then v.ctle else if k = 1 then v.vga else v.dfe.getD (k - 2) 0
def knobOk (k : Nat) (x : Int) : Bool := if k < 2 then decide (0 ≤ x) && decide (x ≤ 31) else decide (-8 ≤ x) && decide (x ≤ 7)
def setKnob (v : Lane) (k : Nat) (x : Int) : Lane :=
  if k = 0 then { v with ctle := x.toNat } else if k = 1 then { v with vga := x.toNat } else { v with dfe := v.dfe.set (k - 2) x }

/-- The loop is frozen on a lane (R94). An L0p width change is a command of its own, between two steps. -/
def burnishFrozen (s : State) (p i j : Nat) : Bool :=
  (s.port p).link.ltssm != .l0 || decide (s.clock < (s.lane i j).marginEnd) || w32Bit (s.reg (offStn i 0x8000)) j || !(s.stationRec i).burnishEn

/-- A measurement: the eye register, and MARGIN_LOW at the sixteenth in a row below the floor (R95). A run that goes on raises it again at every
further sixteenth. DESIGN CHOICE, log entry 91. -/
def measureEye (s : State) (p i j : Nat) (e : Eye) : State :=
  let low := decide (e.height < floorOf s p (s.port p).link.rate)
  let n := if low then (s.lane i j).lowCount + 1 else 0
  let s := s.modLane i j (fun v => { v with eyeValid := true, eyeHeight := e.height, eyeWidth := e.width, lowCount := n % 16 })
  if n < 16 then s
  else
    let s := reportPort (s.setEvt (offPrt p 0x04) 8) p 0x24
    let reeq : Bool := match s.portRec p with | some r => r.reeqEn | none => false
    if reeq ∧ (schedRec s p).gcl = [] ∧ (s.port p).sched.oper.isNone then goRecovery s p else s

def burnishLimit (s : State) (p : Nat) : State := reportPort (s.setEvt (offPrt p 0x04) 7) p 0x26

/-- One step of R93: the main setting moves by one where a trial gains 2 mV. -/
def burnishMove (s : State) (p i j : Nat) (base up down : Eye) : State :=
  let v := s.lane i j
  let k := v.knob
  let next (s : State) : State := s.modLane i j (fun x => { x with knob := (k + 1) % 7 })
  let move (d : Int) (e : Eye) (s : State) : State :=
    measureEye (next (s.modLane i j (fun x => setKnob x k (knobVal x k + d)))) p i j e
  let okUp := knobOk k (knobVal v k + 1)
  let okDown := knobOk k (knobVal v k - 1)
  if okUp ∧ base.height + 2 ≤ up.height then move 1 up s
  else
    let s := if okUp then s else burnishLimit s p
    if okDown ∧ base.height + 2 ≤ down.height then move (-1) down s
    else
      let s := if okDown then s else burnishLimit s p
      measureEye (next s) p i j base

/-- The next step is due: BURNISH_PERIOD has passed since the last one (R93). -/
def burnishDue (s : State) (i j : Nat) : Bool :=
  match (s.lane i j).burnAt with | some t => decide (t + 1000 * (s.stationRec i).burnishPeriod ≤ s.clock) | none => true

/-- BURNISH_STEP; `base`, `up` and `down` are the eyes at the main setting and with the knob moved. While the loop is frozen, in Recovery too,
only the eye is measured; during margining not even that. The 100 µs after a margining command's last step are no margining: the eye is
measured then (R94). DEDUCED, log entry 100. -/
def execBurnishStep (i : StationId) (j : LaneId) (base up down : Eye) (s : State) : Host.Outcome State Fault Refusal :=
  .next (match lanePort s i j with
    | none => s
    | some p =>
      let l := (s.port p).link
      if (l.ltssm ≠ .l0 ∧ (l.ltssm ≠ .recovery ∨ !l.dlUp)) ∨ !laneActive s p j ∨ s.clock + 100000 < (s.lane i j).marginEnd ∨ !burnishDue s i j then s
      else
        let t := s.modLane i j (fun v => { v with burnAt := some s.clock })
        if burnishFrozen s p i j then measureEye t p i j base else burnishMove t p i j base up down)

/-- LANE_MARGINING_COMMAND: the loop freezes until 100 µs after the command's last step (R94). -/
def execLaneMarginingCommand (i : StationId) (j : LaneId) (lastStepNs : Nat) (s : State) : Host.Outcome State Fault Refusal :=
  .next (match lanePort s i j with
    | some p => if (s.port p).link.dlUp then s.modLane i j (fun v => { v with marginEnd := s.clock + lastStepNs + 100000 }) else s
    | none => s)

/-! Power states and L0p (R96, R97). -/

def hasGateList (s : State) (p : Nat) : Bool := (schedRec s p).gcl != [] || (s.port p).sched.oper.isSome

/-- The port has been idle for L1_IDLE_US: nothing is queued toward it, and it neither received nor sent for `idleNs` (R96). -/
def idleFor (s : State) (p idleNs : Nat) : Bool :=
  (descsTo s p).isEmpty && decide ((match s.portRec p with | some r => 1000 * r.l1IdleUs | none => 0) ≤ idleNs)
    && (match (s.port p).sched.last with | some x => decide (x.end_ + idleNs ≤ stationTime s p) | none => true)

/-- ASPM_L1_ENTRY (R96): the partner's entry is accepted; the device's own needs its flag, the Link Control bits, idleness and
no gate list. An upstream link that PME_Turn_Off has prepared enters L2 instead, once nothing is queued toward it: log entry 92. -/
def execAspmL1Entry (e : PortFor) (byPartner : Bool) (s : State) : Host.Outcome State Fault Refusal :=
  let l := (s.port e.port).link
  let flag : Bool := match s.portRec e.port with | some r => r.aspmL1 | none => false
  .next (if !l.dlUp ∨ l.ltssm ≠ .l0 then s
    else if l.pmeOff then
      (if (descsTo s e.port).isEmpty then checkClock (s.modLink e.port (fun x => { x with ltssm := .l2 })) (stationOf e.port) else s)
    else if byPartner ∨ (flag ∧ (s.bridge e.port).aspm.getLsbD 1 ∧ !hasGateList s e.port ∧ idleFor s e.port e.ns) then
      checkClock (s.modLink e.port (fun x => { x with ltssm := .l1 })) (stationOf e.port)
    else s)

def execStationClockWake (i : StationId) (s : State) : Host.Outcome State Fault Refusal :=
  .next (s.modStation i (fun v => { v with clockOff := false }))

def l0pFlag (s : State) (p : Nat) : Bool := match s.portRec p with | some r => r.l0p | none => false

/-- L0P_NARROW: one step, after 100 µs of transmit use at `usePercent` of the narrower width's capacity; never below L0P_MIN_WIDTH, never on a
port with a gate list (R97), nor under Hardware Autonomous Width Disable (R98). -/
def execL0pNarrow (x : PortUse) (width : Nat) (s : State) : Host.Outcome State Fault Refusal :=
  let l := (s.port x.port).link
  let minW := match s.portRec x.port with | some r => r.l0pMinWidth | none => 1
  .next (if l.dlUp ∧ l.ltssm = .l0 ∧ l.flit ∧ l0pFlag s x.port ∧ !hasGateList s x.port ∧ !(s.bridge x.port).hawDisable ∧
        x.usePercent < 40 ∧ 2 * width = l.active ∧ minW ≤ width ∧ 0 < width then
      (applyRate s x.port l.rate l.width width).bump (offPrt x.port 0x34)
    else s)

/-- Cells queued toward a port. -/
def cellsTo (s : State) (p : Nat) : Nat := ((descsTo s p).map (·.cells)).sum

/-- L0P_WIDEN: to the configured width, as far as it was negotiated, where more than 16 cells are queued or use was above 80 % for 10 µs. -/
def execL0pWiden (x : PortUse) (s : State) : Host.Outcome State Fault Refusal :=
  let l := (s.port x.port).link
  .next (if l.dlUp ∧ l.ltssm = .l0 ∧ l.flit ∧ l0pFlag s x.port ∧ l.active < l.width ∧ (16 < cellsTo s x.port ∨ 80 < x.usePercent) then
      (applyRate s x.port l.rate l.width l.width).bump (offPrt x.port 0x34)
    else s)

/-! Link control from hosts (R98). -/

/-- A link control write takes effect: through the VH named by the port's VH field, or through the MF. -/
def mayControl (s : State) (p : Nat) (w : Writer) : Bool :=
  s.isDown p && s.inRunModes && (match w with
    | .mf => true
    | .host v => match s.portRec p with | some r => r.vh == v && r.vh != 0xFF | none => false)

def setLinkDisable (s : State) (p : Nat) (on : Bool) : State :=
  if on then
    (s.modLink p (fun l => { l with disable := true, excused := l.dlUp, ltssm := .disabled })).emit (.linkDisabled p)
  else
    let s := s.modLink p (fun l => { l with disable := false })
    if (s.port p).link.ltssm = .disabled ∧ (s.port p).contain.phase = 0 then beginTraining s p else s

def execLinkDisable (port : PortId) (writer : Writer) (disable : Bool) (s : State) : Host.Outcome State Fault Refusal :=
  .next (if mayControl s port writer then setLinkDisable s port disable else s)

/-- A retrain request lifts the hold of R81. -/
def retrain (s : State) (p : Nat) : State := goRecovery (s.modLink p (fun l => { l with rateHeld := false })) p

def execRetrainLink (port : PortId) (writer : Writer) (s : State) : Host.Outcome State Fault Refusal :=
  .next (if mayControl s port writer then retrain s port else s)

def setTargetSpeed (s : State) (p speed : Nat) : State :=
  retrain (s.modLink p (fun l => { l with targetRate := min speed (targetRateOf s p) })) p

def execTargetLinkSpeedWrite (port : PortId) (writer : Writer) (speed : Nat) (s : State) : Host.Outcome State Fault Refusal :=
  .next (if mayControl s port writer then setTargetSpeed s port speed else s)

def execHotReset (port : PortId) (writer : Writer) (s : State) : Host.Outcome State Fault Refusal :=
  .next (if mayControl s port writer ∧ (s.port port).link.dlUp then sendHotReset s port else s)

end Sys2Proof.Machine
end

