-- ==== Sys2Proof/Machine/Sha.lean ====
section
/-! DEFINITION. SHA-384 (FIPS 180-4), with which passwords, images and the amendment chain are hashed (R42, R393, Table 14.14). Its constants
are computed as the standard defines them, from roots of primes. -/

namespace Sys2Proof.Machine

/-- The root's bits from `n` down: the greatest number that starts with `r` and whose `k`-th power does not exceed `v`. -/
def rootFrom (k v : Nat) : Nat → Nat → Nat
  | 0, r => r
  | n + 1, r => rootFrom k v n (if (r + 2 ^ n) ^ k ≤ v then r + 2 ^ n else r)

/-- The first 64 bits of the fractional part of the `k`-th root of `p`, for a root below 8. -/
def rootFraction (k p : Nat) : W64 := BitVec.ofNat 64 (rootFrom k (p * 2 ^ (64 * k)) 67 0)

def isPrime (n : Nat) : Bool := decide (2 ≤ n) && (List.range n).all (fun d => decide (d < 2) || n % d != 0)

/-- The first eighty primes: those below 410. -/
def eightyPrimes : List Nat := (List.range 410).filter isPrime

/-- The round constants: fractional parts of cube roots of the first eighty primes. -/
def shaKeys : List W64 := eightyPrimes.map (rootFraction 3)

/-- A hash value, or the eight working variables of a block. -/
structure ShaVars where
  a : W64
  b : W64
  c : W64
  d : W64
  e : W64
  f : W64
  g : W64
  h : W64
  deriving DecidableEq, Repr

/-- Eight words as working variables. -/
def shaVars (l : List W64) : ShaVars :=
  ⟨l.getD 0 0, l.getD 1 0, l.getD 2 0, l.getD 3 0, l.getD 4 0, l.getD 5 0, l.getD 6 0, l.getD 7 0⟩

/-- SHA-384's initial hash value: fractional parts of the square roots of the ninth to the sixteenth prime. -/
def shaStart : ShaVars := shaVars (((eightyPrimes.drop 8).take 8).map (rootFraction 2))

/-- The exclusive or of three rotations, or of two and a shift where `shift` is set. -/
def shaMix (i j k : Nat) (shift : Bool) (x : W64) : W64 :=
  x.rotateRight i ^^^ x.rotateRight j ^^^ (if shift then x >>> k else x.rotateRight k)

/-- One round with its constant and its word of the schedule. -/
def shaStep (v : ShaVars) (key word : W64) : ShaVars :=
  let choice := (v.e &&& v.f) ^^^ (~~~ v.e &&& v.g)
  let majority := (v.a &&& v.b) ^^^ (v.a &&& v.c) ^^^ (v.b &&& v.c)
  let x := v.h + shaMix 14 18 41 false v.e + choice + key + word
  ⟨x + shaMix 28 34 39 false v.a + majority, v.a, v.b, v.c, v.d + x, v.e, v.f, v.g⟩

/-- The rounds of a block. `window` holds the sixteen schedule words from the present one on; each round makes the word sixteen ahead. -/
def shaRounds : List W64 → List W64 → ShaVars → ShaVars
  | [], _, v => v
  | key :: keys, window, v =>
    let ahead := shaMix 19 61 6 true (window.getD 14 0) + window.getD 9 0 + shaMix 1 8 7 true (window.getD 1 0) + window.getD 0 0
    shaRounds keys (window.drop 1 ++ [ahead]) (shaStep v key (window.getD 0 0))

/-- The big-endian 64-bit words that bytes spell, `n` of them. -/
def beWords : Nat → List Byte → List W64
  | 0, _ => []
  | n + 1, l => BitVec.ofNat 64 (leNat (l.take 8).reverse) :: beWords n (l.drop 8)

/-- The hash value after one more block of 128 bytes. -/
def shaBlock (v : ShaVars) (block : List Byte) : ShaVars :=
  let w := shaRounds shaKeys (beWords 16 block) v
  ⟨v.a + w.a, v.b + w.b, v.c + w.c, v.d + w.d, v.e + w.e, v.f + w.f, v.g + w.g, v.h + w.h⟩

/-- The hash value after `n` more blocks. -/
def shaOver : Nat → List Byte → ShaVars → ShaVars
  | 0, _, v => v
  | n + 1, l, v => shaOver n (l.drop 128) (shaBlock v (l.take 128))

/-- A message with its padding: a one bit, zeros, and its length in bits as 16 big-endian bytes. -/
def shaPad (l : List Byte) : List Byte :=
  l ++ [0x80] ++ List.replicate ((239 - l.length % 128) % 128) 0 ++ (leBytes 16 (8 * l.length)).reverse

/-- The first 48 bytes of the hash value. -/
def sha384 (l : List Byte) : List Byte :=
  let v := shaOver ((l.length + 17 + 127) / 128) (shaPad l) shaStart
  [v.a, v.b, v.c, v.d, v.e, v.f].flatMap (fun w => (leBytes 8 w.toNat).reverse)

end Sys2Proof.Machine
end

