-- ==== Sys2Proof/Machine/Slots.lean ====
section
/-! DEFINITION. Slot power and cartridges, and the die-to-die link (R33 to R36, R337 to R367). -/

namespace Sys2Proof.Machine

/-! The switch die's end of the die-to-die link (R34, R35). CMD and CFG frames leave in the order in which they are made: one is under
way until its ACK, and the others wait behind it. -/

/-- A frame goes out toward the slot power die. -/
def emitDown (s : State) (f : D2dFrame) : State := s.emit (.d2d .powerDie f)

/-- The oldest frame that waits goes under way. -/
def sendHead (s : State) : State :=
  match s.d2d.unacked with
  | [] => s
  | u :: r => emitDown { s with d2d := { s.d2d with unacked := { u with since := s.clock, tries := 0 } :: r } } u.frame

/-- The switch die sends a CMD or CFG frame, which waits for its ACK. -/
def sendD2d (s : State) (f : D2dFrame) : State :=
  if s.d2d.lost then s
  else
    let w : Unacked := { frame := { f with seq := s.d2d.seq }, since := s.clock, tries := 0 }
    let t := { s with d2d := { s.d2d with seq := s.d2d.seq + 1, unacked := s.d2d.unacked ++ [w] } }
    if s.d2d.unacked.isEmpty then emitDown t w.frame else t

/-- A QUENCH frame goes ahead of every frame that waits. -/
def sendQuench (s : State) : State :=
  if s.d2d.lost then s
  else
    let f : D2dFrame := { cls := .quench, seq := s.d2d.seq }
    emitDown { s with d2d := { s.d2d with seq := s.d2d.seq + 1, quench := some { frame := f, since := s.clock, tries := 0 } } } f

/-- A CMD for slot `n`; `value` is the feed of a power on, 1 A or 2 B. -/
def sendCmd (s : State) (n : Nat) (c : SlotCmd) (value : Nat := 0) : State :=
  sendD2d s { cls := .cmd, slot := n, cmd := c, value := value }

/-- One CFG field of slot `n`: 0 to 10 are the expert fields of Table 12.18, 59 the feeds used, 60 PERST_DELAY_MS, 61 SLOT_PERST_N
asserted, 62 T_WARN_US and 63 the safe action. -/
def sendCfg (s : State) (n field value : Nat) : State := sendD2d s { cls := .cfg, slot := n, field := field, value := value }

/-- An S0 event of a slot (Table 12.21). -/
def slotInfo (s : State) (n bit : Nat) : State := report (s.setEvt (offSlp n 0x04) bit) 0x0C n 0x99

/-! The records of a slot. -/

def slotRec (s : State) (n : Nat) : SlotRec := (tfind s.cfg.slots n).getD { rsenseUohm := 1000 }

def cartRec (s : State) (n : Nat) : Option CartRec := tfind s.cfg.carts n

/-- I_CLASS in mA (Table 12.3), none for a reserved class. -/
def classMa (c : Nat) : Option Nat := [2500, 7500, 15000, 25000, 30000, 40000][c]?

/-- ILIM_CODE that R345 derives: I_CLASS × R_SENSE / 100 µV. -/
def derivedIlim (rsenseUohm ma : Nat) : Nat := ma * rsenseUohm / 100000

/-- ILIM_CODE for a class: the expert block's, or the derived one. -/
def ilimFor (s : State) (n c : Nat) : Nat :=
  match (slotRec s n).ilimCode, classMa c with
  | some k, _ => k
  | none, some ma => derivedIlim (slotRec s n).rsenseUohm ma
  | none, none => Config.reservedIlim c

/-! The life record (R361, R362). -/

/-- A life record copy (Table 12.13). -/
def lifeBytes (l : Life) : List Byte :=
  let b := leBytes 4 l.seq.toNat ++ leBytes 4 l.insertions.toNat ++ leBytes 4 l.hours.toNat ++ leBytes 4 l.trips.toNat
    ++ leBytes 4 l.energyWh.toNat ++ List.replicate 40 0
  b ++ leBytes 4 (crc32 b)

/-- The record is written to the older copy, with SEQ one above the newer; a failure raises PATINA_FAIL. -/
def writeLife (s : State) (n : Nat) (ok : Bool) : State :=
  let x := s.slot n
  if !x.identified || (cartRec s n).isNone || !s.hkRunning then s
  else if ok then
    let l := { x.life with seq := x.life.seq + 1 }
    (s.modSlot n (fun y => { y with life := l, written := l, lifeCopy := 1 - y.lifeCopy })).emit
      (.storeWrite n (1 - x.lifeCopy) (lifeBytes l))
  else report (s.setEvt (offSlp n 0x04) 8) 0x0C n 0x98

/-- A counter of the life record rises by one. -/
def lifeUp (w : W32) : W32 := w32 (sat32 w.toNat 1)

/-- A counter has passed its limit (R362). -/
def overLimit (max v : Nat) : Bool := max != 0 && decide (max < v)

def limitPassed (x : Slot) : Bool :=
  let m (i : Nat) := x.storeMax.getD i 0
  overLimit (m 0) x.life.insertions.toNat || overLimit (m 1) x.life.hours.toNat || overLimit (m 2) x.life.trips.toNat
    || overLimit (m 3 * 1000) x.life.energyWh.toNat

/-- CART_EXPIRED is raised and EXPIRED set, once, where a limit has been passed. -/
def checkLimits (s : State) (n : Nat) : State :=
  if limitPassed (s.slot n) && !(s.slot n).expired then
    report ((s.modSlot n (fun x => { x with expired := true })).setEvt (offSlp n 0x04) 7) 0x0C n 0x97
  else s

/-! The slot power die's side (R33 to R36): what it holds of a slot, and what it sends. -/

/-- The slot power die is powered and out of reset. -/
def pdRuns (s : State) : Bool := s.pd.vccGood && !s.pd.inReset

/-- The slot power die's frames leave: it runs, and has not declared the link lost. -/
def pdSends (s : State) : Bool := pdRuns s && !s.pd.lost

def emitUp (s : State) (f : D2dFrame) : State := s.emit (.d2d .switchDie f)

/-- The per-slot state and latched fault bits that a STAT frame carries (Table 1.4). -/
def statOf (x : Slot) : Nat :=
  fld x.loc 0 4 + fld x.latch 4 4 + fld x.feed 8 2 + flag x.pinA 10 + flag x.pinB 11 + flag x.perst 12 + flag x.warn 13 + flag x.alert 14

/-- The slot power die changes what it holds of slot `n`, and sends STAT on a change. -/
def modPdSlot (s : State) (n : Nat) (f : Slot → Slot) : State :=
  let t := s.modSlot n f
  if pdSends s ∧ statOf (f (s.slot n)) ≠ statOf (s.slot n) then
    emitUp t { cls := .stat, slot := n, value := statOf (f (s.slot n)) }
  else t

/-- An ALARM frame, with the die's own stamp in 20 ns units (R315). -/
def alarm (s : State) (n kind value : Nat) : State :=
  if pdSends s then emitUp s { cls := .alarm, slot := n, kind := kind, value := value, stamp := s.clock / 20 % 2 ^ 16 } else s

/-- CFG field `f` of slot `n` as the slot power die has it; `d` before it has come. -/
def pdField (s : State) (n f d : Nat) : Nat := (tfind s.pd.fields (64 * n + f)).getD d

def pdWarnUs (s : State) (n : Nat) : Nat := pdField s n 62 1000

/-- The feed is one of those that the slot power die may use. -/
def pdFeed (s : State) (n : Nat) (b : Bool) : Bool := bitN (pdField s n 59 3) (if b then 1 else 0)

def gateOn (x : Slot) : Bool := x.gateA || x.gateB

/-- Both gates are pulled down. -/
def gatesDown (now : Nat) (x : Slot) : Slot :=
  { x with gateA := false, gateB := false, gap := false, swapTo := 0, feed := 0, warnKind := 0,
           offSince := if gateOn x || x.gap then now else x.offSince }

/-- SLOT_PERST_N and PWRFAIL_WARN_N asserted. -/
def inReset (x : Slot) : Slot := { x with perst := true, warn := true, perstUntil := none }

/-- A latch that pulls the gates down (R354); several in one 20 ns tick keep the highest value. -/
def latchRetry (s : State) (n l kind detail : Nat) : State :=
  let x := s.slot n
  if x.loc = 9 ∧ x.latch ≠ 0 ∧ x.latchAt / 20 = s.clock / 20 then modPdSlot s n (fun y => { y with latch := max y.latch l })
  else modPdSlot (alarm s n kind detail) n (fun y => { inReset (gatesDown s.clock y) with loc := 9, latch := l, latchAt := s.clock })

/-- FET_FAIL or GATE_STUCK (R353): the slot cannot reach its safe state. -/
def latchFet (s : State) (n l : Nat) : State :=
  modPdSlot (alarm s n 0x93 0) n (fun y =>
    { inReset (gatesDown s.clock y) with loc := 10, latch := l, latchAt := s.clock, alert := true })

/-- CMD power on: an OFF or latched slot that is seated ramps on feed `f`. A slot that holds power in its safe state begins its
PERST_DELAY_MS (log entry 68). -/
def orderOn (s : State) (n f : Nat) : State :=
  modPdSlot s n (fun x =>
    if (x.loc = 2 ∨ x.loc = 9) ∧ x.pinA ∧ x.pinB ∧ !gateOn x then
      { x with loc := 4, feed := f, gateA := f == 1, gateB := f == 2, rampSince := s.clock, warnBelow := false, held := false }
    else if x.loc = 5 ∧ x.held then { x with held := false, perstUntil := some (s.clock + 1000000 * pdField s n 60 100) }
    else x)

/-- CMD power off (R349): the warning begins; a cut of R352 that is pending completes. -/
def orderOff (s : State) (n : Nat) : State :=
  modPdSlot s n (fun x =>
    if !(gateOn x) && !x.gap then x
    else if x.warnKind = 0 then { inReset x with loc := 8, warnKind := 1, warnSince := s.clock }
    else { inReset x with loc := 8 })

/-- A latch whose condition has ended; FET_FAIL and GATE_STUCK never end, BOTH_BAD with a good feed. -/
def latchEnded (x : Slot) : Bool := x.latch != 7 && x.latch != 8 && (x.latch != 2 || x.goodA || x.goodB)

/-- CMD latch clear (R341, R360): an ended latch goes, and at a removal any but FET_FAIL and GATE_STUCK. -/
def orderClear (s : State) (n : Nat) : State := modPdSlot s n (fun x => if latchEnded x || decide (x.loc ≤ 1) then { x with latch := 0 } else x)

/-! Presence (R340, R341). -/

/-- Loss of seating (R341). -/
def unseat (now : Nat) (x : Slot) : Slot := { inReset (gatesDown now x) with loc := if x.loc = 10 then 10 else 0 }

/-- A pin deasserts for longer than 2 µs. -/
def pinOff (s : State) (n : Nat) (pinB : Bool) : State :=
  modPdSlot s n (fun x =>
    let y := if pinB then { x with pinB := false } else { x with pinA := false }
    if x.pinA && x.pinB then unseat s.clock y else y)

/-- A pin asserts: with the second one the debounce starts. -/
def pinOn (s : State) (n : Nat) (pinB : Bool) : State :=
  modPdSlot s n (fun x =>
    let y := if pinB then { x with pinB := true } else { x with pinA := true }
    if y.pinA && y.pinB && !(x.pinA && x.pinB) then { y with pinsSince := s.clock, loc := if x.loc = 0 then 1 else x.loc } else y)

def execPresencePinChange (n : SlotId) (pinB asserted : Bool) (heldNs : Nat) (s : State) : Host.Outcome State Fault Refusal :=
  .next (if !asserted ∧ heldNs ≤ 2000 then s
    else if !pdRuns s then s.modSlot n (fun x => if pinB then { x with pinB := asserted } else { x with pinA := asserted })
    else if asserted then pinOn s n pinB else pinOff s n pinB)

/-- SEATED (R33, R340): the debounce on the slot power die has lasted 20 ms. -/
def execSeated (n : SlotId) (s : State) : Host.Outcome State Fault Refusal :=
  .next (if pdRuns s ∧ (s.slot n).loc = 1 ∧ (s.slot n).pinsSince + 20000000 ≤ s.clock then modPdSlot s n (fun x => { x with loc := 2 }) else s)

/-! Cuts by command, and the switch die's view (R349, R354). -/

/-- The state of slot `n` that the last STAT frame told. -/
def seenLoc (x : Slot) : Nat := bitsN x.seen 0 4

/-- The gate is on, as far as the switch die knows: the slot power die told so, or a power on is on its way. -/
def seenOn (x : Slot) : Bool := seenLoc x == 4 || seenLoc x == 5 || seenLoc x == 6 || seenLoc x == 8 || x.st == 4

/-- The port of a slot whose power is cut is contained with cause SLOT (R300, R308). -/
def containSlot (s : State) (n : Nat) : State :=
  match portOfSlot s n with
  | some p => if (s.port p).link.dlUp || (s.port p).contain.phase != 0 then contain s p 4 else s
  | none => s

/-- A commanded cut starts (R349): the order goes to the slot power die, without which nothing is cut (R33). -/
def commandedCut (s : State) (n : Nat) : State :=
  if s.d2d.lost ∨ seenOn (s.slot n) = false then s
  else sendCmd (containSlot (s.modSlot n (fun y => { y with st := 8 })) n) n .powerOff

/-- The record at a power-off, for energy (R361). -/
def powerOffLife (s : State) (n : Nat) : State := writeLife s n true

/-- A slot has latched (R354, R355): the switch die counts it and starts the retry wait. -/
def latchSeen (s : State) (n : Nat) : State :=
  let r := slotRec s n
  let x := s.slot n
  let locks := x.lockout || (r.retryMax != 0 && decide (r.retryMax ≤ x.count))
  let s := s.modSlot n (fun y => { y with
    st := 9, lockout := locks, count := min (y.count + 1) 255, retryUntil := some (s.clock + 1000000 * r.retryMs),
    life := { y.life with trips := lifeUp y.life.trips } })
  let s := (s.setEvt (offSlp n 0x04) 3).bump (offSlp n 0x50)
  sendCmd (checkLimits (writeLife s n true) n) n .retryStart

/-- Where a seated slot waits: on its retry timer, or OFF. -/
def restState (x : Slot) : Nat := if x.retryUntil.isSome then 9 else 2

/-- SEATED is told (R340): a slot with a CART record is identified next (R359), another takes DEF_CLASS. -/
def seatIn (s : State) (n : Nat) : State :=
  let x := s.slot n
  let r := slotRec s n
  let y := if (cartRec s n).isSome then { x with st := 3, hallmark := 0 }
    else { x with st := restState x, cls := r.defClass, ilimCode := ilimFor s n r.defClass }
  let t := slotInfo (s.modSlot n (fun _ => { y with newIns := x.newIns && x.everSeated, everSeated := true })) n 0
  if (cartRec s n).isSome then t else sendCfg t n 0 (ilimFor s n r.defClass)

/-- The latch of a slot is cleared by order, and no longer shown. -/
def askClear (s : State) (n : Nat) : State :=
  sendCmd (s.modSlot n (fun x => { x with seen := x.seen - fld (bitsN x.seen 4 4) 4 4 })) n .latchClear

/-- A removal (R341). The latch of a slot that is FET_FAILED stays until chip reset. -/
def removal (s : State) (n : Nat) : State :=
  let keep := (slotRec s n).autoOn && (tfind s.cfg.slots n).isSome
  let t := slotInfo (s.modSlot n (fun y => { y with
    absentSince := none, count := 0, lockout := false, expired := false, want := y.want && keep, cmdOn := y.cmdOn && keep,
    forced := false, newIns := true, seconds := 0, energy := 0 })) n 1
  if (s.slot n).st = 10 then t else askClear t n

/-- A seated slot is told to be EMPTY (R308, R341). -/
def absentIn (s : State) (n : Nat) : State :=
  let s := s.modSlot n (fun x => { x with
    st := if x.st = 10 then 10 else 0, identified := false, identFail := false, classBad := false, absentSince := some s.clock })
  match portOfSlot s n with
  | some p => if (s.port p).link.dlUp && (s.port p).contain.phase != 1 && (s.port p).contain.phase != 2 then surpriseDown s p else s
  | none => s

/-- Both presence pins are told to be asserted again: SEATING. An absence of 50 ms or more was a removal. -/
def presentIn (s : State) (n : Nat) : State :=
  let t := match (s.slot n).absentSince with
    | some t => if t + 50000000 ≤ s.clock then removal s n else s
    | none => s
  t.modSlot n (fun x => { x with absentSince := none, st := if x.st = 0 then 1 else x.st })

/-- The slot power die's state of the slot has changed from `a` to `b`. -/
def locIn (s : State) (n a b : Nat) : State :=
  let set (f : Nat → Nat) : State := s.modSlot n (fun x => { x with st := f x.st })
  if b = 2 ∧ a ≤ 1 then seatIn s n
  else if b = 2 then powerOffLife (set (fun st => if 4 ≤ st ∧ st ≤ 8 then 2 else st)) n
  else if b = 4 then set (fun st => if st = 2 ∨ st = 9 then 4 else st)
  else if b = 5 ∧ (s.slot n).st = 4 then slotInfo (s.modSlot n (fun x => { x with st := 5, onSince := s.clock })) n 2
  else if b = 5 then set (fun st => if st = 6 then 5 else st)
  else if b = 6 then set (fun st => if st = 5 then 6 else st)
  else if b = 8 then set (fun _ => 8)
  else if b = 9 then latchSeen s n
  else if b = 10 then ((set (fun _ => 10)).setEvt (offSlp n 0x04) 3).bump (offSlp n 0x50)
  else s

/-- SLOT_PERST_N is told to be deasserted: the slot's port may train (R347). -/
def perstIn (s : State) (n : Nat) : State :=
  match portOfSlot s n with
  | some p => if (s.port p).link.ltssm = .detect ∧ (s.port p).contain.phase = 0 then beginTraining s p else s
  | none => s

/-- A STAT frame of slot `n` (R33: the switch die reads back state). -/
def statIn (s : State) (n v : Nat) : State :=
  let o := (s.slot n).seen
  let both (x : Nat) : Bool := bitN x 10 && bitN x 11
  let s := s.modSlot n (fun x => { x with seen := v % 2 ^ 15 })
  let s := if both o && !both v then absentIn s n else if both v && !both o then presentIn s n else s
  let s := if bitsN v 0 4 = bitsN o 0 4 then s else locIn s n (bitsN o 0 4) (bitsN v 0 4)
  if bitN o 12 && !bitN v 12 then perstIn s n else s

/-- REMOVED (R341): the absence has lasted 50 ms. -/
def execRemoved (n : SlotId) (s : State) : Host.Outcome State Fault Refusal :=
  .next (match (s.slot n).absentSince with
    | none => s
    | some t => if s.clock < t + 50000000 then s else removal s n)

/-! Identification (R358, R359). -/

/-- The header and its CRC, format and certificate length hold. -/
def headerOk (b : List Byte) : Bool :=
  leAt b 0 4 == 0x4B4D4C48 && leAt b 4 2 == 1 && leAt b 0x7C 4 == crc32 (b.take 0x7C)
    && decide (1 ≤ leAt b 0x1C 2) && decide (leAt b 0x1C 2 ≤ 3840)

/-- Copy `i` of the life record, where its CRC holds. -/
def lifeAt (b : List Byte) (i : Nat) : Option Life :=
  let c := (b.drop (0x80 + 0x40 * i)).take 64
  if c.length = 64 ∧ leAt c 0x3C 4 = crc32 (c.take 0x3C) then
    some { seq := w32 (leAt c 0 4), insertions := w32 (leAt c 4 4), hours := w32 (leAt c 8 4), trips := w32 (leAt c 0xC 4),
           energyWh := w32 (leAt c 0x10 4) }
  else none

/-- The copy in force with its number; none where neither is valid. -/
def pickLife (b : List Byte) : Option (Life × Nat) :=
  match lifeAt b 0, lifeAt b 1 with
  | some x, some y => if x.seq.toNat < y.seq.toNat then some (y, 1) else some (x, 0)
  | some x, none => some (x, 0)
  | none, some y => some (y, 1)
  | none, none => none

/-- Step 3 of R359. -/
def takeLife (s : State) (n : Nat) (b : List Byte) : State :=
  match pickLife b with
  | some (l, i) => s.modSlot n (fun x => { x with life := l, written := l, lifeCopy := i })
  | none => report ((s.modSlot n (fun x => { x with life := {}, written := {}, lifeCopy := 0 })).setEvt (offSlp n 0x04) 8) 0x0C n 0x98

/-- Identification ends without power. -/
def identBad (s : State) (n result : Nat) : State :=
  s.modSlot n (fun x => { x with st := restState x, identFail := true, hallmark := result })

/-- Step 5 of R359: limits and class. -/
def identClass (s : State) (n : Nat) (c : CartRec) : State :=
  let s := if limitPassed (s.slot n) then
      report ((s.modSlot n (fun x => { x with expired := true })).setEvt (offSlp n 0x04) 7) 0x0C n 0x97
    else s
  let code := ilimFor s n (s.slot n).cls
  sendCfg (s.modSlot n (fun x =>
    let bad := decide (5 < x.cls) || decide (c.maxClass < x.cls)
    { x with st := restState x, classBad := bad, hallmark := if bad then 4 else x.hallmark, ilimCode := code })) n 0 code

def identify (s : State) (n : Nat) (c : CartRec) (r : StoreRead) : State :=
  let b := r.bytes
  if !r.answered || !headerOk b then identBad s n 2
  else
    let s := s.modSlot n (fun x => { x with
      vendorId := leAt b 6 2, deviceId := leAt b 8 2, cls := leAt b 0xA 1, serial := (b.drop 0x30).take 16,
      storeMax := [leAt b 0xC 4, leAt b 0x10 4, leAt b 0x14 4, leAt b 0x18 4], cert := (b.drop 0x100).take (leAt b 0x1C 2) })
    if c.vendorId ≠ 0xFFFF ∧ c.vendorId ≠ leAt b 6 2 then identBad s n 3
    else
      let isNew := (s.slot n).newIns
      let s := (takeLife s n b).modSlot n (fun x => { x with identified := true, newIns := false })
      let s := if isNew then
          writeLife (s.modSlot n (fun x => { x with life := { x.life with insertions := lifeUp x.life.insertions } })) n r.writeOk
        else s
      identClass s n c

/-- IDENTIFY: a seated slot with a CART record that has not been identified since it was seated. -/
def execIdentify (n : SlotId) (r : StoreRead) (s : State) : Host.Outcome State Fault Refusal :=
  let x := s.slot n
  .next (match cartRec s n with
    | none => s
    | some c => if s.hkRunning ∧ (x.st = 2 ∨ x.st = 3 ∨ x.st = 9) ∧ !x.identified ∧ !x.identFail then identify s n c r else s)

/-! Powering (R342 to R348). -/

def feedUsed (s : State) (n : Nat) (b : Bool) : Bool :=
  let x := s.slot n
  (if b then (slotRec s n).feedB && x.usedB else (slotRec s n).feedA && x.usedA) && !x.converterBad

/-- CFG field 59: the feeds that the slot power die may use. -/
def sendFeeds (s : State) (n : Nat) : State := sendCfg s n 59 (flag (feedUsed s n false) 0 + flag (feedUsed s n true) 1)

/-- The thresholds and timers of a SLOT record that go to the slot power die (R33). -/
def cfgFields (r : SlotRec) : List (Nat × Nat) :=
  [(1, r.faultTmrUs), (2, r.rampFaultUs), (3, r.gateUa), (4, r.swapGapUs), (5, r.feedUvMv), (6, r.feedWarnMv), (7, r.feedOvMv),
   (8, r.dischargeMs), (10, r.rampMaxMs), (60, r.perstDelayMs), (62, r.tWarnUs)]

def sendSlotCfg (s : State) (n : Nat) (r : SlotRec) : State := sendFeeds ((cfgFields r).foldl (fun a e => sendCfg a n e.1 e.2) s) n

/-- Identification has passed, or there is nothing to identify. -/
def identOk (s : State) (n : Nat) : Bool :=
  match cartRec s n with | none => true | some _ => (s.slot n).identified

/-- The mode in which the slot may be powered (R339, R342). -/
def powerMode (s : State) (x : Slot) : Bool :=
  s.inRunModes || ((s.mode == .maintenance || s.mode == .factory) && x.cmdOn)

/-- What FORCE_ON sets aside of a slot: bit 0 EXPIRED, bit 1 CLASS (R360). -/
def setAside (s : State) (n : Nat) : Nat :=
  if (s.slot n).forced then (match cartRec s n with | some c => c.forceOk | none => 0) else 0

/-- A feed is good: its monitor has read between FEED_UV_MV and FEED_OV_MV for 1 ms without a break (R342). -/
def feedGood (s : State) (n : Nat) (f : FeedRead) : Bool :=
  decide (pdField s n 5 8500 ≤ f.mv) && decide (f.mv ≤ pdField s n 7 16000) && decide (1000000 ≤ f.ns)

/-- A feed has been bad, below FEED_UV_MV or above FEED_OV_MV, for 50 µs (R350). -/
def feedBad (s : State) (n : Nat) (f : FeedRead) : Bool :=
  (decide (f.mv < pdField s n 5 8500) || decide (pdField s n 7 16000 < f.mv)) && decide (50000 ≤ f.ns)

/-- The conditions of R342 but for a good feed, as the switch die knows them. -/
def mayRamp (s : State) (n : Nat) : Bool :=
  let x := s.slot n
  (tfind s.cfg.slots n).isSome && x.want && powerMode s x && x.st == 2 && bitN x.seen 10 && bitN x.seen 11 && identOk s n && !x.identFail
    && x.retryUntil.isNone && !x.lockout && !x.rearm && (!x.expired || bitN (setAside s n) 0) && (!x.classBad || bitN (setAside s n) 1)
    && !s.d2d.lost

/-- TINNING_START (R342): feed A if it is used and good, otherwise feed B. The power on goes to the slot power die, which turns the gate on
(`orderOn`). -/
def execTinningStart (n : SlotId) (feedA feedB : FeedRead) (s : State) : Host.Outcome State Fault Refusal :=
  let goodA := feedGood s n feedA
  let goodB := feedGood s n feedB
  let s := s.modSlot n (fun x => { x with goodA := goodA, goodB := goodB })
  let a := feedUsed s n false && goodA
  .next (if mayRamp s n && (a || (feedUsed s n true && goodB)) then
      sendCmd (s.modSlot n (fun x => { x with st := 4 })) n (if (s.slot n).forced then .forcedOn else .powerOn) (if a then 1 else 2)
    else s)

/-- When SLOT_PERST_N deasserts after a power good; never for a slot that holds power in its safe state (R347, R356). -/
def perstEnd (s : State) (n : Nat) (x : Slot) : Option Nat :=
  if x.held then none else if x.perst then some (s.clock + 1000000 * pdField s n 60 100) else x.perstUntil

/-- The output has stayed at 95 % of the active feed or above for 100 µs (R343). -/
def outputGood (feedMv outMv heldUs : Nat) : Bool := decide (95 * feedMv ≤ 100 * outMv) && decide (100 ≤ heldUs)

/-- POWER_GOOD (R343, R350). A ramp that a cut has overtaken gives no ON (R352), and a swap made in WARN leaves the cut pending (R357). -/
def execPowerGood (o : SlotOutput) (s : State) : Host.Outcome State Fault Refusal :=
  let x := s.slot o.slot
  .next (if !outputGood o.feedMv o.outMv o.us then s
    else if x.loc = 4 ∧ gateOn x ∧ x.warnKind = 0 then
      modPdSlot s o.slot (fun y => { y with loc := 5, warn := y.warnBelow, perstUntil := perstEnd s o.slot y })
    else if x.loc = 6 ∧ !x.gap ∧ x.swapTo ≠ 0 then
      modPdSlot (alarm s o.slot 0x94 0) o.slot (fun y => { y with
        loc := 5, feed := y.swapTo, swapTo := 0, warn := y.warnBelow || y.warnKind != 0,
        perstUntil := if y.warnKind = 0 then perstEnd s o.slot y else none })
    else if x.loc = 8 ∧ !x.gap ∧ x.swapTo ≠ 0 then modPdSlot (alarm s o.slot 0x94 0) o.slot (fun y => { y with feed := y.swapTo, swapTo := 0 })
    else s)

/-- The gate is ramping. -/
def ramping (x : Slot) : Bool := gateOn x && (x.loc == 4 || (x.loc == 6 && !x.gap))

def execRampTimeout (n : SlotId) (s : State) : Host.Outcome State Fault Refusal :=
  .next (if ramping (s.slot n) ∧ (s.slot n).rampSince + 1000000 * pdField s n 10 50 ≤ s.clock then latchRetry s n 3 0x92 3 else s)

/-- RAMP_LIMIT (R344): the current has been at the limit for RAMP_FAULT_US of the ramp. -/
def execRampLimit (o : SlotLimit) (s : State) : Host.Outcome State Fault Refusal :=
  .next (if ramping (s.slot o.slot) ∧ pdField s o.slot 2 500 ≤ o.us ∧ (s.slot o.slot).rampSince + 1000 * o.us ≤ s.clock then latchRetry s o.slot 4 0x92 4 else s)

/-- SHORT_DURING_RAMP (R344): the output has been below half the feed, with the current at the limit, for 100 µs of the ramp. -/
def execShortDuringRamp (o : SlotOutput) (s : State) : Host.Outcome State Fault Refusal :=
  .next (if ramping (s.slot o.slot) ∧ 2 * o.outMv < o.feedMv ∧ 100 ≤ o.us ∧ (s.slot o.slot).rampSince + 1000 * o.us ≤ s.clock then latchRetry s o.slot 5 0x92 5 else s)

/-- BREAKER: the current has been held at the limit for FAULT_TMR_US, in ON and SWAP (R345), and in WARN, where the slot power die still
holds the gate on. -/
def execBreaker (o : SlotLimit) (s : State) : Host.Outcome State Fault Refusal :=
  .next (if gateOn (s.slot o.slot) ∧ (s.slot o.slot).loc ≠ 4 ∧ pdField s o.slot 1 2000 ≤ o.us then latchRetry s o.slot 1 0x90 0 else s)

/-- The voltage across R_SENSE has reached the comparator at twice I_LIM: ILIM_CODE is in 100 µV (R345, R346). -/
def overSevere (s : State) (n senseUv : Nat) : Bool := decide (200 * pdField s n 0 500 ≤ senseUv)

/-- SEVERE acts in every state in which a gate is on (R346), and where another latch has just pulled it down. -/
def execSevere (o : SlotSense) (s : State) : Host.Outcome State Fault Refusal :=
  let x := s.slot o.slot
  .next (if overSevere s o.slot o.uv ∧ (gateOn x ∨ (x.loc = 9 ∧ x.latch ≠ 0 ∧ x.latchAt / 20 = s.clock / 20)) then latchRetry s o.slot 6 0x91 0 else s)

/-- PERST_DELAY_END (R347): SLOT_PERST_N deasserts in ON. A slot that holds power in its safe state keeps it asserted (R356). -/
def execPerstDelayEnd (n : SlotId) (s : State) : Host.Outcome State Fault Refusal :=
  let x := s.slot n
  .next (match x.perstUntil with
    | none => s
    | some t => if x.loc ≠ 5 ∨ s.clock < t ∨ x.held then s else modPdSlot s n (fun y => { y with perst := false, perstUntil := none }))

/-- How the active feed is judged against FEED_WARN_MV: below after 10 µs below it, back above after 1 ms at 100 mV more, and otherwise as
before (R348). -/
def judgeWarn (s : State) (n : Nat) (f : FeedRead) (was : Bool) : Bool :=
  let w := pdField s n 6 9500
  if f.mv < w ∧ 10000 ≤ f.ns then true else if w + 100 ≤ f.mv ∧ 1000000 ≤ f.ns then false else was

/-- FEED_WARN_CHANGE (R348). -/
def execFeedWarnChange (n : SlotId) (active : FeedRead) (s : State) : Host.Outcome State Fault Refusal :=
  .next (modPdSlot s n (fun x =>
    let b := judgeWarn s n active x.warnBelow
    { x with warnBelow := b, warn := if x.loc = 5 ∧ x.warnKind = 0 then b else x.warn }))

/-- WARN_END: T_WARN_US of a commanded cut (R349), or of a loss of both feeds (R352), ends. -/
def execWarnEnd (n : SlotId) (s : State) : Host.Outcome State Fault Refusal :=
  let x := s.slot n
  .next (if x.warnKind = 0 ∨ x.warnKind = 3 ∨ s.clock < x.warnSince + 1000 * pdWarnUs s n then s
    else if x.warnKind = 2 then latchRetry s n 2 0x95 0
    else modPdSlot s n (fun y => { gatesDown s.clock y with loc := 2 }))

/-! Feeds (R350 to R353). -/

/-- A break-before-make change to feed `f` starts. -/
def startSwap (s : State) (n f : Nat) : State :=
  modPdSlot s n (fun x => { x with
    loc := if x.loc = 8 then 8 else 6, warn := true, warnBelow := false, gateA := false, gateB := false, gap := true, swapTo := f,
    swapSince := s.clock, goodA := x.goodA || f == 1, goodB := x.goodB || f == 2 })

/-- FEED_SWAP (R350): the active feed is bad, and the other is used and good. -/
def execFeedSwap (o : SlotFeeds) (s : State) : Host.Outcome State Fault Refusal :=
  let x := s.slot o.slot
  let f := if x.feed = 1 then 2 else 1
  .next (if (x.loc = 5 ∨ x.loc = 8) ∧ gateOn x ∧ x.feed ≠ 0 ∧ x.warnKind ≠ 2 ∧ pdFeed s o.slot (f == 2) ∧ feedBad s o.slot o.active ∧ feedGood s o.slot o.other then
      startSwap (s.modSlot o.slot (fun y => { y with goodA := f == 1, goodB := f == 2 })) o.slot f
    else s)

/-- GATE_STUCK (R350): 10 µs on, the old gate is not below the output plus 1.0 V, and the new gate is never turned on. -/
def execGateStuck (o : SlotGate) (s : State) : Host.Outcome State Fault Refusal :=
  .next (if (s.slot o.slot).gap ∧ o.outMv + 1000 ≤ o.gateMv ∧ (s.slot o.slot).swapSince + 10000 ≤ s.clock then latchFet s o.slot 7 else s)

/-- SWAP_GAP_END (R350): SWAP_GAP_US on, the new gate is precharged and ramped. -/
def execSwapGapEnd (n : SlotId) (s : State) : Host.Outcome State Fault Refusal :=
  .next (if (s.slot n).gap ∧ (s.slot n).swapSince + 1000 * pdField s n 4 50 ≤ s.clock then
      modPdSlot s n (fun x => { x with gap := false, gateA := x.swapTo == 1, gateB := x.swapTo == 2, rampSince := s.clock })
    else s)

/-- FEED_RETURN (R351): feed A has been good for 1 s without a break. -/
def execFeedReturn (o : SlotFeedA) (s : State) : Host.Outcome State Fault Refusal :=
  let x := s.slot o.slot
  .next (if x.loc = 5 ∧ x.feed = 2 ∧ x.warnKind = 0 ∧ pdFeed s o.slot false ∧ feedGood s o.slot o.feedA ∧ 1000000000 ≤ o.feedA.ns then startSwap s o.slot 1 else s)

/-- The feed that the slot is on, or in a swap goes to; true for B. -/
def activeB (x : Slot) : Bool := if x.swapTo ≠ 0 then x.swapTo == 2 else x.feed == 2

/-- BOTH_BAD (R352): the active feed is bad, and the other is unused or not good; the active gate stays on for T_WARN_US. -/
def execBothBad (o : SlotFeeds) (s : State) : Host.Outcome State Fault Refusal :=
  let x := s.slot o.slot
  .next (if (x.loc = 4 ∨ x.loc = 5 ∨ x.loc = 6) ∧ x.warnKind = 0 ∧ feedBad s o.slot o.active ∧ !(pdFeed s o.slot (!activeB x) && feedGood s o.slot o.other) then
      modPdSlot s o.slot (fun y => { inReset y with goodA := false, goodB := false, warnKind := 2, warnSince := s.clock })
    else s)

/-- A SAMPLE frame of the slot power die: one converter reading (Table 1.4). Channels 0 to 3 are feed A, feed B, output and current. -/
def sample (s : State) (n ch code : Nat) : State :=
  if pdSends s then emitUp s { cls := .sample, slot := n, field := ch, value := code } else s

/-- FET_FAIL (R353): with both gates off the output has stayed above 1.0 V for 2 ms past DISCHARGE_MS. The feed voltages go along. -/
def execFetFail (o : SlotAbove) (feedA feedB : BitVec 12) (s : State) : Host.Outcome State Fault Refusal :=
  let x := s.slot o.slot
  .next (if s.pd.vccGood ∧ !gateOn x ∧ !x.gap ∧ x.loc ≠ 10 ∧ x.offSince + 1000000 * pdField s o.slot 8 50 + 2000000 ≤ s.clock ∧
        1000 < o.outMv ∧ 2000000 ≤ o.ns then
      sample (sample (latchFet s o.slot 8) o.slot 0 feedA.toNat) o.slot 1 feedB.toNat
    else s)

/-! Timers and the life record. -/

/-- RETRY_TIMER_END (R355): the switch die ends the wait, but not in Safe or without the link. -/
def execRetryTimerEnd (n : SlotId) (s : State) : Host.Outcome State Fault Refusal :=
  .next (match (s.slot n).retryUntil with
    | none => s
    | some t =>
      if s.clock < t ∨ s.d2d.lost ∨ s.mode = .safe then s
      else s.modSlot n (fun x => { x with retryUntil := none, st := if x.st = 9 then 2 else x.st }))

def execFaultCountReset (n : SlotId) (s : State) : Host.Outcome State Fault Refusal :=
  .next (if (s.slot n).st = 5 ∧ (s.slot n).onSince + 10000000000 ≤ s.clock then s.modSlot n (fun x => { x with count := 0 }) else s)

/-- PATINA_HOUR (R361, R362). -/
def execPatinaHour (n : SlotId) (writeOk : Bool) (s : State) : Host.Outcome State Fault Refusal :=
  .next (if (s.slot n).st = 5 ∧ 3600000 ≤ (s.slot n).seconds then
      let s := s.modSlot n (fun x => { x with seconds := x.seconds - 3600000, life := { x.life with hours := lifeUp x.life.hours } })
      checkLimits (writeLife s n writeOk) n
    else s)

/-- ENERGY_INTEGRATE (R361): once each 1 ms the slot power die's readings go to the switch die, which integrates the output power by those
that it holds; whole Wh go to the record. -/
def execEnergyIntegrate (n : SlotId) (feeds : FeedCodes) (out : OutCodes) (s : State) : Host.Outcome State Fault Refusal :=
  let due := decide ((s.slot n).energyNext ≤ s.clock)
  let t := s.modSlot n (fun x => { x with energyNext := s.clock + 1000000 })
  let t := sample (sample (sample (sample t n 0 feeds.a.toNat) n 1 feeds.b.toNat) n 2 out.v.toNat) n 3 out.i.toNat
  .next (if !due then s
    else if seenOn (t.slot n) then
      let s := t.modSlot n (fun x =>
        let e := x.energy + x.voutMv * x.ioutMa
        { x with energy := e % 3600000000000, seconds := if x.st = 5 then x.seconds + 1 else x.seconds,
                 life := { x.life with energyWh := w32 (sat32 x.life.energyWh.toNat (e / 3600000000000)) } })
      checkLimits s n
    else t)

/-! Hallmark (R363 to R365). -/

/-- The port of the slot that housekeeping is authenticating. -/
def authPort (s : State) (n : Nat) : Option Nat :=
  match portOfSlot s n with
  | some p => if s.hkRunning && (cartRec s n).isSome && (s.port p).quarantine && (s.port p).link.dlUp then some p else none
  | none => none

/-- AUTH_TIMEOUT_MS from DL_UP is over. -/
def authLate (s : State) (n : Nat) (c : CartRec) : Bool := decide ((s.slot n).authSince + 1000000 * c.authTimeoutMs < s.clock)

/-- Every condition of R363 for a pass holds. -/
def authPasses (s : State) (n : Nat) (c : CartRec) (a : CartAuth) : Bool :=
  a.version12 && a.certCap && a.chalCap && (!a.p256 || c.allowP256) && a.chainOk && sha384 a.root == c.rootDigest
    && a.leaf == (s.slot n).cert && a.sigOk && !authLate s n c

/-- HALLMARK_PASS: authentication has come to its end with every condition met. -/
def execHallmarkPass (x : SlotAuth) (s : State) : Host.Outcome State Fault Refusal :=
  .next (match authPort s x.slot, cartRec s x.slot with
    | none, _ => s
    | _, none => s
    | some p, some c =>
      if !authPasses s x.slot c x.auth then s
      else slotInfo ((s.modPort p (fun q => { q with quarantine := false })).modSlot x.slot (fun x => { x with hallmark := 1 })) x.slot 5)

/-- A slot is cut and WANT cleared. -/
def cutAndForget (s : State) (n : Nat) : State :=
  commandedCut (s.modSlot n (fun x => { x with want := false, cmdOn := false, forced := false })) n

/-- HALLMARK_FAIL: authentication ends with one of the results NO_DOE to TIMEOUT, the last only once its time is over (R365). -/
def execHallmarkFail (n : SlotId) (result : Fin 16) (s : State) : Host.Outcome State Fault Refusal :=
  .next (match authPort s n, cartRec s n with
    | some p, some c =>
      if result.val < 5 ∨ 0xA < result.val ∨ (result.val = 0xA ∧ !authLate s n c) then s
      else
        let s := (s.modSlot n (fun x => { x with hallmark := result.val })).setEvt (offSlp n 0x04) 6
        let s := report s 0x0C n 0x96 none p
        if c.authFailCut then cutAndForget s n else s
    | _, _ => s)

/-! Safe actions (R35, R330, R356). -/

/-- The slot power die takes one slot to its safe state. -/
def safeSlot (s : State) (n : Nat) : State :=
  if s.pd.safe.getLsbD n then
    modPdSlot s n (fun y => { inReset (gatesDown s.clock y) with loc := if 4 ≤ y.loc ∧ y.loc ≤ 8 then 2 else y.loc })
  else modPdSlot s n (fun y => { y with perst := true, perstUntil := none, held := true })

/-- The slot power die applies each slot's safe action. -/
def safeSlots (s : State) : State := (List.range 24).foldl safeSlot s

/-- A slot in DRAIN goes on to its cut at a Quench (R309), and no slot returns to power but by SLOT_POWER (R356). -/
def quenchSlots (s : State) : State :=
  (List.range 24).foldl (fun a n =>
    let a := if (tfind s.cfg.slots n).isSome then a.modSlot n (fun x => { x with rearm := true }) else a
    if (a.slot n).st = 7 then commandedCut a n else a) s

/-- D2D_LOST (R35): 8 frame slots, 800 ns, without a good frame. -/
def execD2dLost (side : Side) (s : State) : Host.Outcome State Fault Refusal :=
  .next (match side with
    | .switchDie =>
      if s.d2d.lost ∨ s.mode = .reset ∨ s.clock < s.d2d.lastGood + 800 then s
      else report { s with d2d := { s.d2d with lost := true, unacked := [], quench := none } } 0x0C 0 0x05
    | .powerDie =>
      if s.pd.lost ∨ !pdRuns s ∨ s.pd.resetting ∨ s.clock < s.pd.lastGood + 800 then s
      else safeSlots { s with pd := { s.pd with lost := true } })

/-- The frame has waited 1 µs for its ACK. -/
def ackDue (s : State) (u : Unacked) : Bool := decide (u.since + 1000 ≤ s.clock)

/-- A QUENCH without its ACK is sent again after each 1 µs, as long as the link holds (R330). -/
def resendQuench (s : State) : State :=
  match s.d2d.quench with
  | none => s
  | some u =>
    if ackDue s u then emitDown { s with d2d := { s.d2d with quench := some { u with since := s.clock, tries := u.tries + 1 } } } u.frame else s

/-- The CMD or CFG under way is sent again, at most three times. DESIGN CHOICE: still without its ACK 1 µs after the third, it is dropped
without a report and the next frame goes out; the spec says nothing of it (log entry 84). -/
def resendHead (s : State) : State :=
  match s.d2d.unacked with
  | [] => s
  | u :: r =>
    if !ackDue s u then s
    else if u.tries < 3 then
      emitDown { s with d2d := { s.d2d with unacked := { u with since := s.clock, tries := u.tries + 1 } :: r } } u.frame
    else sendHead { s with d2d := { s.d2d with unacked := r } }

/-- D2D_RESEND (R34, R330). -/
def execD2dResend (s : State) : Host.Outcome State Fault Refusal := .next (resendHead (resendQuench s))

/-! Frames that arrive (Table 1.4). -/

/-- A sequence number that has been applied already. -/
def repeated (last : Option Nat) (seq : Nat) : Bool := match last with | some l => decide (seq ≤ l) | none => false

/-- A CMD or CFG is applied once, in the order sent, and acknowledged; a repeated one is acknowledged only (R34). -/
def pdApply (s : State) (f : D2dFrame) (g : State → State) : State :=
  let s := if repeated s.pd.lastSeq f.seq then s else (g s).modPd (fun p => { p with lastSeq := some f.seq })
  emitUp s { cls := .ack, seq := f.seq }

/-- A QUENCH is applied once and acknowledged. -/
def pdQuench (s : State) (f : D2dFrame) : State :=
  let s := if repeated s.pd.lastQuench f.seq then s else (safeSlots s).modPd (fun p => { p with lastQuench := some f.seq })
  emitUp s { cls := .ack, seq := f.seq }

def cmdNum (c : SlotCmd) : Nat := match c with | .powerOn => 1 | .powerOff => 2 | .forcedOn => 3 | .retryStart => 4 | .latchClear => 5

/-- A CMD takes effect (Table 1.4). Of a retry start the slot power die only keeps the order: a latched slot waits for the next power on. -/
def cmdIn (s : State) (f : D2dFrame) : State :=
  let s := s.modPd (fun p => { p with orders := tset 0 p.orders f.slot (cmdNum f.cmd) })
  match f.cmd with
  | .powerOn | .forcedOn => orderOn s f.slot (if f.value = 2 then 2 else 1)
  | .powerOff => orderOff s f.slot
  | .retryStart => s
  | .latchClear => orderClear s f.slot

/-- A CFG takes effect (`sendCfg` numbers the fields). -/
def cfgField (s : State) (f : D2dFrame) : State :=
  if f.field = 61 then modPdSlot s f.slot (fun x => { x with perst := true, perstUntil := none })
  else s.modPd (fun p =>
    if f.field = 63 then
      let b := BitVec.ofNat 24 (2 ^ f.slot)
      { p with safe := if f.value % 2 = 1 then p.safe ||| b else p.safe &&& ~~~ b }
    else { p with fields := tput p.fields (64 * f.slot + f.field) f.value })

/-- A frame reaches the slot power die. -/
def atPowerDie (s : State) (f : D2dFrame) : State :=
  match f.cls with
  | .cmd => if f.slot < 24 then pdApply s f (fun a => cmdIn a f) else s
  | .cfg => if f.slot < 24 ∧ f.field < 64 then pdApply s f (fun a => cfgField a f) else s
  | .quench => pdQuench s f
  | _ => s

/-- A converter reading (Table 1.4). -/
def sampleIn (s : State) (f : D2dFrame) : State :=
  let v := Config.adc f.field f.value
  s.modSlot f.slot (fun x =>
    if f.field = 0 then { x with feedAMv := v } else if f.field = 1 then { x with feedBMv := v }
    else if f.field = 2 then { x with voutMv := v } else { x with ioutMa := v })

/-- DETAIL of a slot power die event: the die's own stamp in [15:0] (R315); above it the latch of a SLOT_RAMP_SHORT, and of a FET_FAIL the
feed voltages, whose form the manual does not give. -/
def alarmDetail (s : State) (f : D2dFrame) : Nat :=
  (if f.kind = 0x93 then Config.openDetail f.kind s.clock % 2 ^ 15 * 2 ^ 16 else fld f.value 16 4) + f.stamp % 2 ^ 16

/-- An ALARM frame becomes a Cupel message of the slot power die (R315), and a FEED_SWAP its event and count. -/
def alarmIn (s : State) (f : D2dFrame) : State :=
  let s := if f.kind = 0x94 then (s.setEvt (offSlp f.slot 0x04) 4).bump (offSlp f.slot 0x54) else s
  sendMsg s 14 { source := 0x10, inst := f.slot, kind := f.kind, severity := (kindInForce (maskEntries s) f.kind).1,
                 detail := alarmDetail s f, time := (s.now - 100) % 2 ^ 21 }

/-- An ACK ends the wait of the frame with its sequence number; the next CMD or CFG goes out. -/
def ackIn (s : State) (seq : Nat) : State :=
  let s := if s.d2d.quench.any (fun u => u.frame.seq == seq) then { s with d2d := { s.d2d with quench := none } } else s
  match s.d2d.unacked with
  | u :: r => if u.frame.seq = seq then sendHead { s with d2d := { s.d2d with unacked := r } } else s
  | [] => s

/-- A frame reaches the switch die. -/
def atSwitchDie (s : State) (f : D2dFrame) : State :=
  match f.cls with
  | .ack => ackIn s f.seq
  | .stat => if f.slot < 24 then statIn s f.slot f.value else s
  | .sample => if f.slot < 24 then sampleIn s f else s
  | .alarm => if f.slot < 24 then alarmIn s f else s
  | _ => s

/-- A frame with a bad CRC, or with a reserved class (Table 1.4). -/
def frameBad (f : D2dFrame) : Bool :=
  !f.crcOk || (match f.cls with | .reserved _ => true | _ => false)

/-- D2D_FRAME: a frame arrives at one of the dies. Any good frame, an idle one too, is the heartbeat of R35. -/
def execD2dFrame (side : Side) (f : D2dFrame) (s : State) : Host.Outcome State Fault Refusal :=
  .next (if s.d2d.broken then s
    else match side with
      | .powerDie =>
        if s.pd.lost || !pdRuns s || frameBad f then s else atPowerDie (s.modPd (fun p => { p with lastGood := s.clock })) f
      | .switchDie =>
        if s.d2d.lost || s.mode == .reset then s
        else if frameBad f then report s 0x0C 0 0x06
        else atSwitchDie { s with d2d := { s.d2d with lastGood := s.clock } } f)

end Sys2Proof.Machine
end

