-- ==== Sys2Proof/Machine/Cupel.lean ====
section
/-! DEFINITION. Fault collection and the safe-state reaction: classes, the log, reactions, Quench, ALIVE (R314 to R336). -/

namespace Sys2Proof.Machine

/-! The fault table (R321, R323, R324). -/

def unackAll (s : State) : Nat := s.cupel.table.countP (fun e => !e.2.acked)

def unackS4 (s : State) : Nat := s.cupel.table.countP (fun e => e.2.level == 4 && !e.2.acked)

/-- An S4 entry is unacknowledged or active: it holds ALIVE and RESUME (R73, R334). -/
def s4Holds (s : State) : Bool := s.cupel.table.any (fun e => e.2.level == 4 && (!e.2.acked || e.2.active))

/-- The owner field of a class: a tenant, 256 for M, 0x1FF for none. -/
def ownerOf (m : Msg) : Nat := if m.ownerValid then (if m.ownerM then 256 else m.tenant % 256) else 0x1FF

def classOf (m : Msg) : FltClass := { source := m.source, inst := m.inst, kind := m.kind, owner := ownerOf m }

def findClass (s : State) (k : FltClass) : Option (Nat × FltEntry) := s.cupel.table.find? (fun e => e.2.cls == k)

def putEntry (s : State) (i : Nat) (e : FltEntry) : State := s.modCupel (fun c => { c with table := tput c.table i e })

/-- The released entry whose last event is oldest. -/
def oldestOf : List (Nat × FltEntry) → Option (Nat × FltEntry) → Option (Nat × FltEntry)
  | [], b => b
  | e :: r, none => oldestOf r (some e)
  | e :: r, some b => oldestOf r (if e.2.last < b.2.last then some e else some b)

/-- The place for a new class of level `l`: a free entry, or a released one. DESIGN CHOICE: the 32 entries for S3 and S4 are reserved by
number, so that a lower class takes a free entry while fewer than 992 are in use, whatever their levels (log entry 70). -/
def allocEntry (s : State) (l : Nat) : Option Nat :=
  let t := s.cupel.table
  if t.length < (if 3 ≤ l then 1024 else 992) then firstFree (t.map (·.1)) 0 1024 0 1024
  else (oldestOf (t.filter (fun e => e.2.acked && !e.2.active)) none).map (·.1)

/-- A kind whose entry stays active until chip reset. -/
def isSticky (k : Nat) : Bool := [0x05, 0x09, 0x03, 0x77, 0x93].contains k

/-- condition_holds (R323). -/
def conditionHolds (s : State) (m : Msg) : Bool :=
  isSticky m.kind
    || (m.kind == 0x01 && tget .healthy s.cupel.rails m.source == .alarm)
    || (m.kind == 0x02 && tget .healthy s.cupel.rails m.source == .equal)
    || (m.kind == 0x0C && s.cupel.tjOn.getLsbD 0) || (m.kind == 0x0D && s.cupel.tjOn.getLsbD 1)
    || (m.kind == 0x95 && !(s.slot m.inst).goodA && !(s.slot m.inst).goodB)

/-! The log (R315, R326, Table 11.9). -/

/-- The latest time not after `now` whose 21 low bits are `t` (R315). -/
def fullTime (now t : Nat) : Nat := now - (now + 2 ^ 21 - t % 2 ^ 21) % 2 ^ 21

def isRemote (k : Nat) : Bool := k == 0x78 || k == 0x79

/-- The 32 bytes of a log entry as eight words. -/
def logWords (s : State) (m : Msg) (level : Nat) (esc inj ended : Bool) (entry : Nat) : List Nat :=
  let t := fullTime s.now (if isRemote m.kind ∧ m.orig ≠ [] then leAt m.orig 0 4 else m.time)
  let b := msgBytes m
  let origin := if isRemote m.kind then m.inst else s.chipId
  let ctx := if isRemote m.kind then bitsN (leNat m.orig) 21 48 else 0
  [t % 2 ^ 32, t / 2 ^ 32, leAt b 0 4, leAt b 4 4, leAt b 8 4,
   fld level 0 3 + flag esc 3 + flag inj 4 + flag ended 5 + fld origin 8 8 + fld entry 16 16, ctx % 2 ^ 32, ctx / 2 ^ 32]

def writeLog (s : State) (w : List Nat) : State :=
  let i := (s.reg (offFlt 0x100)).toNat % 512
  (s.setRegs (offFlt (0x10000 + 32 * i)) w).setReg (offFlt 0x100) (w32 ((i + 1) % 512))

def stormLimit (s : State) : Nat := match s.cfg.react with | some r => r.stormLimit | none => 16

def stormOf : List (FltClass × Nat) → FltClass → Nat
  | [], _ => 0
  | (k, n) :: r, c => if k = c then n else stormOf r c

def stormUp : List (FltClass × Nat) → FltClass → List (FltClass × Nat)
  | [], c => [(c, 1)]
  | (k, n) :: r, c => if k = c then (k, n + 1) :: r else (k, n) :: stormUp r c

/-- The events of each class in the present aligned millisecond of Mandrel time (R326). -/
def stormNow (s : State) : List (FltClass × Nat) := if s.cupel.stormMs = s.now / 1000000 then s.cupel.storm else []

/-- An event is logged, unless its class has had STORM_LIMIT in this millisecond; S3 and S4 always are (R326). -/
def logEvent (s : State) (k : FltClass) (level : Nat) (w : List Nat) : State :=
  let l := stormNow s
  if level < 3 ∧ stormLimit s ≤ stormOf l k then (s.bump (offFlt 0x34)).setEvt (offFlt 0x0C) 3
  else writeLog (s.modCupel (fun c => { c with storm := stormUp l k, stormMs := s.now / 1000000 })) w

/-! Leaving Run (R68, R74, R332). -/

/-- A discarded time-triggered action is logged (R68). Of one that another chip's command scheduled, this chip knows no SEQ and no path:
those bits of DETAIL are free (log entry 11). -/
def logDiscard (s : State) (code : Nat) (cmd : Option (Path × Byte)) : State :=
  match cmd with
  | some (p, seq) => reportConflict s code seq p
  | none =>
    let open_ := Config.openDetail 0x0B s.clock
    report s 0x0C 0 0x0B none 0x7F
      (some (fld code 0 8 + fld (bitsN open_ 8 8) 8 8 + fld (modeNum s.mode) 16 3 + fld (bitsN open_ 19 2) 19 2))

/-- The answer of a ROUTE_EPOCH whose prepare phase is running (R68). -/
def stopPrepare (s : State) : State :=
  match s.fab.prep, s.mbx.active with
  | some _, some x =>
    respondTo (reportConflict (s.modFab (fun f => { f with prep := none })) 0x09 x.seq x.path) x.path x.seq stStateConflict []
  | _, _ => s.modFab (fun f => { f with prep := none })

/-- ASY_RES[i]: a result with its coverage, failing test, lane and duration (Table 13.13). -/
def setRes (s : State) (i result coverage test lane us : Nat) : State :=
  s.setReg (offAsy (0x100 + 4 * i)) (w32 (fld result 30 2 + fld coverage 28 2 + fld test 24 4 + fld lane 20 4 + min us 0xFFFFF))

/-- A runtime Assay that is under way stops: its station stays in reset and unusable (R383). -/
def stopAssay (s : State) : State :=
  match s.assay.runtime with
  | none => s
  | some i =>
    let s := setRes { s with unusable := s.unusable ||| BitVec.ofNat 10 (2 ^ i) } i 3 1 0 0 0
    let s := s.modAssay (fun a => { a with runtime := none })
    match s.mbx.active with
    | some x => respondTo (reportConflict s 0x06 x.seq x.path) x.path x.seq stStateConflict []
    | none => s

/-- Entry to Safe or Maintenance: pending time-triggered actions and a staged record are discarded (R68, R74). -/
def leaveService (s : State) : State :=
  let s := stopAssay (stopPrepare (s.modMbx (fun m => { m with staging := none })))
  let s := match s.fab.flip with
    | some f => logDiscard (s.modFab (fun b => { b with flip := none })) 0x09 f.cmd
    | none => s
  let s := match s.fab.snap with
    | some f => logDiscard (s.modFab (fun b => { b with snap := none })) 0x08 f.cmd
    | none => s
  s.portNums.foldl (fun a p => match (a.port p).sched.pend with
    | some x => logDiscard (a.modSched p (fun q => { q with pend := none })) 0x04 (some (x.path, x.seq))
    | none => a) s

/-! Quench (R330 to R333). -/

/-- Every port is contained with cause QUENCH; the links of downstream ports go to Disabled. -/
def quenchPorts (s : State) : State :=
  s.portNums.foldl (fun a p =>
    let a := contain a p 9
    if a.isDown p ∧ (a.port p).link.ltssm ≠ .disabled then linkToDisabled a p 9 else a) s

/-- The FLT_Q registers: measured times within the bounds of Table 11.7. -/
def quenchTimes (s : State) : State :=
  let n := s.cupel.qCount
  (s.setRegs (offFlt 0x40) [Config.quenchAlive n % 10001, Config.quenchPorts n % 2001, Config.quenchPerst n % 5001,
    Config.quenchPower n % 25001]).modCupel (fun c => { c with qCount := n + 1 })

/-- Every engine is halted as if Bus Master Enable were clear (R332). -/
def haltEngines (s : State) : State := s.vfs.foldl (fun a e => abortJobs a e.1) s

/-- Both slots have failed (R53). -/
def bothFailed (s : State) : Bool := s.fetchStep == 2 && s.verified.isNone

/-- The mode after an S4 reaction (Table 2.11). XSPI_* is driven in Load only (R40). DEDUCED: after both slots have failed the device leaves
Load only by reset, as R53 says, and an S4 reaction drives the outputs and leaves the mode (log entry 82). -/
def quenchMode (s : State) (essential : Bool) : State :=
  match s.mode with
  | .run | .degraded => leaveService (haltEngines (setMode s .safe 6))
  | .load => if bothFailed s then s else setMode { s with xspi := false } .safe (if essential then 5 else 6)
  | .assay => setMode s .safe (if essential then 5 else 6)
  | _ => s

/-- An S4 reaction: Quench, or in Safe and beside a Quench of the same instant only the record of the event (R332, R336). -/
def quench (s : State) (m : Msg) (w : List Nat) : State :=
  let rail := if m.kind = 0x01 ∨ m.kind = 0x02 then m.source else 99
  let lower : Bool := match s.cupel.quenchAt with
    | some (t, r) => decide (t = s.clock) && decide (rail < r)
    | none => false
  let same : Bool := match s.cupel.quenchAt with | some (t, _) => decide (t = s.clock) | none => false
  if s.mode = .safe ∨ same then
    if lower then (s.setRegs (offFlt 0x50) w).modCupel (fun c => { c with quenchAt := some (s.clock, rail) }) else s
  else
    let s := (quenchTimes (s.setRegs (offFlt 0x50) w)).setEvt (offFlt 0x0C) 0
    let s := { s.modCupel (fun c => { c with quenched := true, quenchAt := some (s.clock, rail) }) with alive := false, faultN := true }
    quenchMode (quenchSlots (sendQuench (quenchPorts s))) (m.kind == 0x09)

/-! Reactions (R325, Table 11.5). -/

def targetOf (k : Nat) : Target := match kindOf k with | some r => r.target | none => .absent

/-- A station reaction acts on the block that reports. -/
def reactStation (s : State) (m : Msg) : State := if m.source < 10 then stationUnusable s m.source else s

def reactS3 (s : State) (m : Msg) : State :=
  match targetOf m.kind with
  | .port => if m.port < 80 ∧ (s.port m.port).contain.phase ≠ 1 ∧ (s.port m.port).contain.phase ≠ 2 then contain s m.port 7 else s
  | .station => reactStation s m
  | .slot =>
    let s := sendCfg s m.inst 61 1
    match portOfSlot s m.inst with | some p => contain s p 4 | none => s
  | .stationOrPool =>
    if m.source = 0x0B then
      ([0, 1].filter (fun c => (s.chan c).st != 0)).foldl (fun a c => loseChannel a c Config.poolLossCause.toNat) s
    else reactStation s m
  | _ => s

/-- Errors with a tenant and no AER row of their own are internal errors of its VH (R296, R325). -/
def reactAer (s : State) (m : Msg) (level : Nat) : State :=
  if level ≠ 0 ∧ m.ownerValid ∧ !m.ownerM ∧ !kindHasAerRow m.kind then
    internalError s (if level = 1 then 1 else 2) m.kind (m.tenant % 256) m.port
      (m.dest.map (fun d => { port := d.2, chip := d.1 }))
  else s

/-- A local S3 or S4 event is told to every chip of the fabric (R285, R327). -/
def tellFabric (s : State) (m : Msg) (level : Nat) : State :=
  if 3 ≤ level ∧ s.fabricMode ∧ !isRemote m.kind then
    (treePorts s).foldl (fun a p => a.emit (.fault p s.chipId level m)) s
  else s

/-- The REACT entries that Cupel itself uses (R329). -/
def reactEntries (s : State) : List ReactEntry := match s.cfg.react with | some r => r.entries | none => []

/-- The ring output after an S4 reaction: ALARM where the kind is marked for the ring and the outputs are driven, also by the Quench's own
entry to Safe. Where that entry turns the outputs on, `was` being false, an input that reads ALARM already is passed on (R287, R328). -/
def ringAfter (marked was : Bool) (s : State) : State :=
  let s := if marked && ringOn s then s.modFab (fun f => { f with ringOut := 1 }) else s
  if !was && ringOn s && s.fab.ringIn == some .alarm then ringChange s .alarm else s

def react (s : State) (m : Msg) (level : Nat) (w : List Nat) : State :=
  let s := tellFabric (reactAer (s.bump (offFlt (0x10 + 4 * level))) m level) m level
  let s := if level = 3 then reactS3 s m else s
  if level = 4 then ringAfter (kindInForce (reactEntries s) m.kind).2.2 (ringOn s) (quench s m w)
  else s

/-! ALIVE and FAULT_N (R334). -/

/-- The two pins follow the mode and the fault table. -/
def updatePins (s : State) : State :=
  let held := s4Holds s || s.cupel.checkBad
  match s.mode with
  | .run | .degraded => { s with alive := s.alive && !held, faultN := held }
  | .safe | .maintenance | .factory => { s with alive := false, faultN := true }
  | .load => { s with alive := false, faultN := s.modeCause == 1 }
  | .reset | .assay => { s with alive := false, faultN := false }

/-- The interrupts of R415 when FLT_UNACK.S4 leaves 0. -/
def s4Interrupt (s : State) (before : Nat) : State :=
  if before = 0 ∧ unackS4 s ≠ 0 then (mfInterrupt s 1).emit (.ibi 2) else s

/-! Acceptance (R322). -/

/-- A message whose parity fails, or whose kind is reserved, is of kind UNKNOWN. -/
def normalise (m : Msg) : Msg :=
  if !m.parityOk then { m with kind := 0 }
  else if (kindOf m.kind).isNone then { m with kind := 0, detail := m.detail / 256 * 256 + m.kind % 256 } else m

/-- The entry after the event, none where the table is full. -/
def entryAfter (s : State) (m : Msg) (level esc : Nat) : Option (Nat × FltEntry) :=
  let k := classOf m
  match findClass s k with
  | some (i, e) =>
    some (i, { e with level := if e.acked then level else stepUp (targetOf m.kind) esc e.level, acked := false,
                      active := conditionHolds s m, count := w32 (sat32 e.count.toNat 1), last := s.now, lastMsg := m })
  | none =>
    match allocEntry s level with
    | none => none
    | some i => some (i, { cls := k, level := level, acked := false, active := conditionHolds s m, count := 1, first := s.now,
                           last := s.now, lastMsg := m })

/-- Cupel handles an accepted message (R322). -/
def accept (s : State) (m0 : Msg) (inj : Bool) : State :=
  let m := normalise m0
  let cfg := kindInForce (reactEntries s) m.kind
  let before := unackS4 s
  if cfg.1 = 0 then (logEvent s (classOf m) 0 (logWords s m 0 false inj false 0xFFFF)).bump (offFlt 0x10)
  else
    match entryAfter s m cfg.1 cfg.2.1 with
    | none =>
      let w := logWords s m cfg.1 false inj false 0xFFFF
      let s := (s.bump (offFlt 0x38)).setEvt (offFlt 0x0C) 4
      updatePins (react (logEvent s (classOf m) cfg.1 w) m cfg.1 w)
    | some (i, e) =>
      let w := logWords s m e.level (decide (cfg.1 < e.level)) inj false i
      let s := logEvent (putEntry s i e) (classOf m) e.level w
      updatePins (react (s4Interrupt s before) m e.level w)

/-- Cupel raises a kind itself for a block. -/
def raiseFor (s : State) (src kind : Nat) (inj : Bool := false) : State :=
  accept s { source := src, kind := kind, severity := (kindInForce (reactEntries s) kind).1,
             detail := Config.openDetail kind s.clock % 2 ^ 31, time := s.now % 2 ^ 21 } inj

/-- The next queue from `i` on that holds a message. -/
def nextQueue (s : State) (i : Nat) : Nat → Option Nat
  | 0 => none
  | k + 1 => if (tget [] s.cupel.queues (i % 15)).isEmpty then nextQueue s (i + 1) k else some (i % 15)

/-- CUPEL_MESSAGE: one message is taken from the queues in rotation (R316). Whether it crosses with its parity intact (R314) is a free
value: log entry 70. -/
def execCupelMessage (s : State) : Host.Outcome State Fault Refusal :=
  .next (match nextQueue s s.cupel.turn 15 with
    | none => s
    | some q =>
      match tget [] s.cupel.queues q with
      | [] => s
      | m :: r =>
        accept (s.modCupel (fun c => { c with queues := tset [] c.queues q r, turn := (q + 1) % 15,
                                              unserved := c.unserved &&& ~~~ BitVec.ofNat 15 (2 ^ q) }))
          { m with parityOk := m.parityOk && Config.msgParityOk q s.clock } false)

/-- An entry ceases to be active, which is logged as S0 (R323). -/
def endEntry (s : State) (i : Nat) (e : FltEntry) : State :=
  let m := { e.lastMsg with time := s.now % 2 ^ 21, severity := 0 }
  let s := logEvent (putEntry s i { e with active := false }) e.cls 0 (logWords s m 0 false false true i)
  updatePins s

/-- The active entry of a source and kind. -/
def activeEntry (s : State) (src kind : Nat) : Option (Nat × FltEntry) :=
  s.cupel.table.find? (fun e => e.2.active && e.2.cls.source == src && e.2.cls.kind == kind)

def endKind (s : State) (src kind : Nat) : State :=
  match activeEntry s src kind with | some (i, e) => endEntry s i e | none => s

def setRail (s : State) (r : Nat) (v : RailSt) : State := s.modCupel (fun c => { c with rails := tset .healthy c.rails r v })

/-- A rail pair reads a fault (R317); `inj` says that INJECT forces it (R335). What a block has signalled on it is confirmed. -/
def railFault (s : State) (r : Nat) (v : RailSt) (inj : Bool := false) : State :=
  let s := if v = .alarm then s.modCupel (fun c => { c with signalled := c.signalled &&& ~~~ BitVec.ofNat 14 (2 ^ r) }) else s
  let old := tget .healthy s.cupel.rails r
  if s.mode = .reset ∨ old = v then s
  else
    let s := setRail s r v
    let s := if old = .alarm then endKind s r 0x01 else if old = .equal then endKind s r 0x02 else s
    if v = .alarm then raiseFor s r 0x01 inj else raiseFor (s.setEvt (offFlt 0x0C) 1) r 0x02 inj

def execRailAlarm (r : RailId) (s : State) : Host.Outcome State Fault Refusal := .next (railFault s r .alarm)

def execRailEqual (r : RailId) (s : State) : Host.Outcome State Fault Refusal := .next (railFault s r .equal)

/-- Every island reads 5 °C below a threshold (R320). -/
def cooled (s : State) (degrees : Int) : Bool := s.cupel.temps.all (fun t => decide (t ≤ 4 * (degrees - 5)))

/-- FAULT_CONDITION_END (R323): a rail pair reads HEALTHY again (not while an injection holds it), every island has cooled, or a
feed is good again. DESIGN CHOICE: where neither feed has been read good since, the one that is good again is taken to be A (log entry
70). -/
def conditionEnd (s : State) (i : Nat) (e : FltEntry) : State :=
  let k := e.cls.kind
  if k = 0x01 ∨ k = 0x02 then
    if s.clock < tget 0 s.cupel.injectUntil e.cls.source then s
    else endEntry ((setRail s e.cls.source .healthy).modCupel (fun c => { c with injectUntil := terase c.injectUntil e.cls.source })) i e
  else if k = 0x0C ∨ k = 0x0D then
    let b := if k = 0x0C then 1 else 2
    if cooled s (if k = 0x0C then 120 else 130) then
      endEntry (s.modCupel (fun c => { c with tjOn := c.tjOn &&& ~~~ BitVec.ofNat 2 b })) i e
    else s
  else if k = 0x95 then endEntry (s.modSlot e.cls.inst (fun x => if x.goodA || x.goodB then x else { x with goodA := true })) i e
  else s

def execFaultConditionEnd (entry : Fin 1024) (s : State) : Host.Outcome State Fault Refusal :=
  .next (match tfind s.cupel.table entry with
    | some e => if e.active then conditionEnd s entry e else s
    | none => s)

/-- MSG_OVF for a block whose overrun flag is set, once in each aligned millisecond (R316, R326). -/
def execMsgOvf (r : RailId) (s : State) : Host.Outcome State Fault Refusal :=
  let ms := s.now / 1000000
  .next (if s.cupel.ovf.getLsbD r ∧ tget 0 s.cupel.ovfMs r ≠ ms + 1 then
      raiseFor ((s.modCupel (fun c => { c with ovfMs := tput c.ovfMs r (ms + 1) })).setEvt (offFlt 0x0C) 2) r 0x04
    else s)

/-- A count of the millisecond that its checking block's replica still stands in (Table 7.7). -/
def countsNow (s : State) (c : GateCount) : Bool := c.ms == replicaOf s c.src / 1000000

/-- LOG_LIMIT_MS: where a new aligned millisecond has begun, the counts of the last one are cleared (R326, Table 7.7). -/
def execLogLimitMs (s : State) : Host.Outcome State Fault Refusal :=
  .next { s.modCupel (fun c => { c with storm := stormNow s, stormMs := s.now / 1000000 }) with gateMs := s.gateMs.filter (fun e => countsNow s e.2) }

/-- A rail pair reads HEALTHY and carries no signal of its block, or its state is already reported by an active entry (R334). -/
def railOk (s : State) (r : Nat) : Bool :=
  match tget .healthy s.cupel.rails r with
  | .healthy => !s.cupel.signalled.getLsbD r
  | .alarm => (activeEntry s r 0x01).isSome
  | .equal => (activeEntry s r 0x02).isSome

/-- The queues that hold a message. -/
def waitingQueues (s : State) : BitVec 15 :=
  BitVec.ofNat 15 (bitmap 15 (fun q => !(tget [] s.cupel.queues q).isEmpty))

/-- ALIVE_TOGGLE (R334), every 500 µs. -/
def execAliveToggle (patternOk : Bool) (s : State) : Host.Outcome State Fault Refusal :=
  .next (if s.clock < s.cupel.aliveNext then s
    else if !s.inRunModes ∨ s4Holds s then updatePins s
    else
      let s := s.modCupel (fun c => { c with aliveNext := s.clock + 500000 })
      let ok := patternOk && s.cupel.unserved == 0 && (List.range 14).all (railOk s)
      let t := s.modCupel (fun c => { c with unserved := waitingQueues s })
      if ok then updatePins { t.modCupel (fun c => { c with aliveLow := if s.alive then !c.aliveLow else false, checkBad := false }) with alive := true }
      else raiseFor (updatePins (t.modCupel (fun c => { c with checkBad := true }))) 0x0D 0x03)

/-- Consecutive readings at or above a threshold, per island; `base` keeps the two thresholds apart. -/
def heat (hot : Tbl Nat) (base : Nat) (degrees : Int) : Nat → List Int → Tbl Nat
  | _, [] => hot
  | i, t :: r => heat (tset 0 hot (base + i) (if 4 * degrees ≤ t then min (tget 0 hot (base + i) + 1) 2 else 0)) base degrees (i + 1) r

def hotAny (hot : Tbl Nat) (base n : Nat) : Bool := (List.range n).any (fun i => tget 0 hot (base + i) == 2)

/-- A threshold is raised once, until its condition has ended. -/
def raiseHot (s : State) (bit kind base n : Nat) : State :=
  if hotAny s.cupel.hot base n && !s.cupel.tjOn.getLsbD bit then
    report (s.modCupel (fun c => { c with tjOn := c.tjOn ||| BitVec.ofNat 2 (2 ^ bit) })) 0x0D 0 kind
  else s

/-- A threshold with no active entry (its message found no room, or the table was full) can be raised again after the islands have cooled. -/
def rearmHot (s : State) (bit kind : Nat) (degrees : Int) : State :=
  if s.cupel.tjOn.getLsbD bit && cooled s degrees && (activeEntry s 0x0D kind).isNone then
    s.modCupel (fun c => { c with tjOn := c.tjOn &&& ~~~ BitVec.ofNat 2 (2 ^ bit) })
  else s

/-- TEMPERATURE_READ (R320), every 100 µs. -/
def execTemperatureRead (quarterDegrees : List Int) (s : State) : Host.Outcome State Fault Refusal :=
  .next (if s.mode = .reset ∨ s.clock < s.cupel.tempNext then s
    else
      let l := (List.range 14).map (fun i => quarterDegrees.getD i 0)
      let s := s.modCupel (fun c => { c with tempNext := s.clock + 100000, temps := l, hot := heat (heat c.hot 0 120 0 l) 32 130 0 l })
      rearmHot (rearmHot (raiseHot (raiseHot s 0 0x0C 0 l.length) 1 0x0D 32 l.length) 0 0x0C 120) 1 0x0D 130)

/-- HK_WATCHDOG (R29): the firmware has stalled and has not restarted its watchdog for 100 ms, which it has not before 100 ms after it
started. It is not running any more (log entry 71). -/
def execHkWatchdog (s : State) : Host.Outcome State Fault Refusal :=
  .next (if s.hkRunning ∧ s.assay.wdogFrom + 100000000 ≤ s.clock then report { s with hkRunning := false } 0x0C 0 0x07 else s)

end Sys2Proof.Machine
end

