-- ==== Sys2Proof/Machine/Layout.lean ====
section
/-! DEFINITION. The layouts of the eighteen records (Table 2.3 and the tables it names) and how a framed record is read
(R45 to R50). -/

namespace Sys2Proof.Machine

/-- The values that a field may take: ranges of lowest, highest and step; none at all stands for any. -/
abbrev Rng := List (Nat × Nat × Nat)

def inRng (r : Rng) (v : Nat) : Bool :=
  r.isEmpty || r.any (fun x => decide (x.1 ≤ v) && decide (v ≤ x.2.1) && decide ((v - x.1) % x.2.2 = 0))

/-- A range of step 1. -/
def rg (lo hi : Nat) : Rng := [(lo, hi, 1)]

/-- A range and the value 0xFF. -/
def rgNone (lo hi : Nat) : Rng := [(lo, hi, 1), (255, 255, 1)]

/-- What a missing trailing field takes (R46): `members` is every destination that the record lists. -/
inductive Dflt where
  | req | val (n : Nat) | members
  deriving DecidableEq, Repr

/-- A field of a basic block or of an entry, with the grant class that covers it. -/
structure Fld where
  off  : Nat
  size : Nat
  rng  : Rng := []
  dflt : Dflt := .val 0
  grant : Option Grant := none
  deriving DecidableEq, Repr

/-- Entries that follow the fixed fields: their count stands in a field, or is fixed. -/
structure Arr where
  count : Option (Nat × Nat)
  fixed : Nat := 0
  elem  : Nat
  flds  : List Fld
  deriving DecidableEq, Repr

/-- An expert field. -/
structure XFld where
  num  : Nat
  off  : Nat
  size : Nat
  rng  : Rng
  deriving DecidableEq, Repr

/-- A record type: the greatest instance, the counts per ingot, and its two blocks. -/
structure Layout where
  maxInst  : Nat
  minCount : Nat
  maxCount : Nat
  size     : Nat
  flds     : List Fld
  arrs     : List Arr := []
  expert   : Bool := true
  xsize    : Nat := 0
  xflds    : List XFld := []
  deriving DecidableEq, Repr

def layDevice : Layout :=
  { maxInst := 0, minCount := 1, maxCount := 1, size := 8,
    flds := [{ off := 0, size := 1, rng := rg 0 15 }, { off := 1, size := 1, rng := rg 0 1 },
             { off := 2, size := 1, rng := rg 0 127, dflt := .req }, { off := 3, size := 1, rng := rg 0 127, dflt := .val 0x3A },
             { off := 4, size := 4 }],
    xsize := 12,
    xflds := [⟨0, 4, 2, rg 700 850⟩, ⟨1, 6, 2, rg 700 850⟩, ⟨2, 8, 2, rg 100 10000⟩] }

def layStation : Layout :=
  { maxInst := 9, minCount := 1, maxCount := 10, size := 4,
    flds := [{ off := 0, size := 1, rng := rg 0 12 }, { off := 1, size := 1, rng := rg 0 2 }],
    xsize := 16,
    xflds := [⟨0, 4, 2, [(40, 200, 5)]⟩, ⟨1, 6, 2, rg 1 1000⟩, ⟨2, 8, 1, rg 0 1⟩, ⟨3, 9, 1, rg 2 32⟩,
              ⟨4, 10, 2, rg 200 10000⟩, ⟨5, 12, 1, rg 10 100⟩, ⟨6, 13, 1, rg 5 50⟩] }

def layPort : Layout :=
  { maxInst := 79, minCount := 1, maxCount := 80, size := 12,
    flds := [{ off := 0, size := 1, rng := rg 0 2, dflt := .req }, { off := 1, size := 1, rng := rg 1 6, dflt := .val 6 },
             { off := 2, size := 1, rng := rg 0 1 }, { off := 3, size := 1, rng := rg 0 7, dflt := .val 1 },
             { off := 4, size := 1, rng := rgNone 0 127, dflt := .val 0xFF },
             { off := 5, size := 1, rng := rgNone 0 23, dflt := .val 0xFF },
             { off := 6, size := 1, rng := rg 0 1, dflt := .val 1 },
             { off := 8, size := 4, rng := rg 50 65000, dflt := .val 50000 }],
    xsize := 16,
    xflds := [⟨0, 4, 1, rg 0 1⟩, ⟨1, 5, 1, rg 0 1⟩, ⟨2, 6, 1, rg 1 2 ++ rg 4 4 ++ rg 8 8⟩, ⟨3, 7, 1, rg 0 3⟩, ⟨4, 8, 4, []⟩,
              ⟨5, 12, 2, rg 1 1000⟩] }

def layVh : Layout :=
  { maxInst := 127, minCount := 1, maxCount := 32, size := 4,
    flds := [{ off := 0, size := 1, rng := rg 0 79, dflt := .req }, { off := 1, size := 1, rng := rg 0 15 },
             { off := 2, size := 1, rng := rg 0 32 }],
    arrs := [{ count := some (2, 1), elem := 2,
               flds := [{ off := 0, size := 1, rng := rg 0 79 }, { off := 1, size := 1, rng := rg 0 15 }] }],
    expert := false }

/-- Policer and classification entries (Tables 6.2, 7.3). -/
def arrPol : Arr :=
  { count := some (2, 1), elem := 20,
    flds := [{ off := 0, size := 1, rng := rg 1 255 }, { off := 1, size := 1, rng := rg 0 1 },
             { off := 4, size := 4, rng := rg 1000 1000000000 }, { off := 8, size := 4, rng := rg 1000 1000000000 },
             { off := 12, size := 4, rng := rg 4352 16777216 }, { off := 16, size := 4, rng := rg 4352 16777216 }] }

def arrCls : Arr :=
  { count := some (1, 1), elem := 16,
    flds := [{ off := 0, size := 1, rng := rg 0 79, grant := some .classify },
             { off := 1, size := 1, rng := rg 0 3, grant := some .classify },
             { off := 2, size := 2, grant := some .classify }, { off := 4, size := 2, grant := some .classify },
             { off := 8, size := 4, rng := rg 0 0xFFFFF, grant := some .classify },
             { off := 12, size := 4, rng := rg 0 0xFFFFF, grant := some .classify }] }

def layTenant : Layout :=
  { maxInst := 255, minCount := 0, maxCount := 256, size := 8,
    flds := [{ off := 0, size := 1, rng := rg 0 127, dflt := .req }, { off := 1, size := 1, rng := rg 0 64, grant := some .classify },
             { off := 2, size := 1, rng := rg 0 4 }, { off := 3, size := 1 },
             { off := 4, size := 2, rng := rg 0 8192 ++ rg 0xFFFF 0xFFFF, dflt := .val 0xFFFF },
             { off := 6, size := 2, rng := rg 0 2048 ++ rg 0xFFFF 0xFFFF, dflt := .val 0xFFFF }],
    arrs := [arrPol, arrCls], xsize := 12,
    xflds := [⟨0, 4, 1, rg 0 9⟩, ⟨1, 5, 1, rg 0 9⟩, ⟨2, 8, 4, rg 0 98304⟩] }

def layGate : Layout :=
  { maxInst := 255, minCount := 0, maxCount := 256, size := 4, flds := [{ off := 0, size := 1, rng := rg 0 3 }],
    xsize := 8, xflds := [⟨0, 4, 1, rg 1 64⟩] }

def layRegion : Layout :=
  { maxInst := 65535, minCount := 0, maxCount := 16384, size := 48,
    flds := [{ off := 0, size := 1, rng := rg 0 3 ++ rg 16 95, dflt := .req }, { off := 1, size := 1, rng := rg 0 1 },
             { off := 2, size := 1, rng := rg 0 31, dflt := .req }, { off := 3, size := 1 }, { off := 4, size := 1, rng := rg 0 127 },
             { off := 5, size := 1 }, { off := 6, size := 1, rng := rg 12 48, dflt := .req }, { off := 8, size := 8, dflt := .req },
             { off := 16, size := 32 }],
    expert := false }

/-- Shaper and monitor entries (Tables 6.11, 6.12). -/
def arrShaper : Arr :=
  { count := some (2, 1), elem := 16,
    flds := [{ off := 0, size := 2, rng := rg 0 4095 }, { off := 2, size := 1, rng := rg 0 2 }, { off := 3, size := 1, rng := rg 0 7 },
             { off := 4, size := 2, rng := rg 0 256 }, { off := 6, size := 1, rng := rg 0 2, grant := some .shaperRate },
             { off := 8, size := 4, rng := rg 1000 1000000000, grant := some .shaperRate },
             { off := 12, size := 4, rng := rg 256 16777216, grant := some .shaperRate }] }

def arrMon : Arr :=
  { count := some (3, 1), elem := 8,
    flds := [{ off := 0, size := 2, rng := rg 0 1023 }, { off := 2, size := 1, rng := rg 0 7 },
             { off := 4, size := 2, rng := rg 0 256 ++ rg 0x1FF 0x1FF }] }

def laySched : Layout :=
  { maxInst := 79, minCount := 0, maxCount := 80, size := 32,
    flds := [{ off := 0, size := 1 }, { off := 1, size := 1, rng := rg 0 128, grant := some .gateList },
             { off := 2, size := 1, rng := rg 0 64 }, { off := 3, size := 1, rng := rg 0 16 },
             { off := 4, size := 2, rng := rg 1 1000, dflt := .val 10 }]
      ++ (List.range 8).map (fun i => { off := 8 + i, size := 1, rng := rg 1 64, dflt := .val 8 })
      ++ [{ off := 16, size := 8, grant := some .gateList },
          { off := 24, size := 4, rng := rg 0 0 ++ [(1000, 1000000000, 8)], grant := some .gateList }],
    arrs := [{ count := some (1, 1), elem := 4, flds := [{ off := 0, size := 4, grant := some .gateList }] }, arrShaper, arrMon],
    xsize := 8, xflds := [⟨0, 4, 2, rg 0 10000⟩, ⟨1, 6, 2, rg 64 8192⟩] }

def layMcast : Layout :=
  { maxInst := 1023, minCount := 0, maxCount := 1024, size := 20,
    flds := [{ off := 0, size := 1, dflt := .req }, { off := 1, size := 1, rng := rg 0 127, dflt := .req },
             { off := 2, size := 2, rng := rg 0 1023, dflt := .req }, { off := 4, size := 1, rng := rg 0 2, dflt := .val 1 },
             { off := 5, size := 1, rng := rg 1 64, dflt := .req }, { off := 6, size := 2, rng := rg 1 1000, dflt := .val 100 },
             { off := 8, size := 8, dflt := .members, grant := some .mcastMember },
             { off := 16, size := 4, rng := rg 17 65536, dflt := .val 512 }],
    arrs := [{ count := some (5, 1), elem := 2,
               flds := [{ off := 0, size := 1, rng := rg 0 79 }, { off := 1, size := 1, rng := rg 0 15 }] }],
    xsize := 8, xflds := [⟨0, 4, 2, rg 17 4096⟩] }

def layPool : Layout :=
  { maxInst := 0, minCount := 0, maxCount := 1, size := 16,
    flds := [{ off := 0, size := 1, rng := rg 1 3, dflt := .val 3 }, { off := 1, size := 1, rng := rg 12 72, dflt := .val 24 },
             { off := 2, size := 1, rng := rgNone 0 1, dflt := .val 0xFF }, { off := 3, size := 1, rng := rg 0 64 },
             { off := 4, size := 2 }, { off := 6, size := 2 }, { off := 8, size := 1, rng := rg 26 39, dflt := .val 34 },
             { off := 9, size := 1, rng := rg 0 16 }, { off := 10, size := 1, rng := rg 0 96, grant := some .lotAssign }],
    arrs := [{ count := some (9, 1), elem := 4, flds := [{ off := 0, size := 2 }, { off := 2, size := 1 }] },
             { count := some (10, 1), elem := 8,
               flds := [{ off := 0, size := 2, rng := rg 0 8191, grant := some .lotAssign },
                        { off := 2, size := 2, rng := rg 1 4096, grant := some .lotAssign },
                        { off := 4, size := 1, grant := some .lotAssign }, { off := 6, size := 2, grant := some .lotAssign }] }],
    xsize := 12,
    xflds := [⟨0, 4, 2, rg 4800 4800 ++ rg 5600 5600 ++ rg 6400 6400⟩, ⟨1, 6, 2, rg 10 10000⟩, ⟨2, 8, 1, rg 1 255⟩,
              ⟨3, 9, 1, rg 1 4⟩] }

def laySlot : Layout :=
  { maxInst := 23, minCount := 0, maxCount := 24, size := 16,
    flds := [{ off := 0, size := 1, rng := rg 0 7, dflt := .val 7 }, { off := 1, size := 1, rng := rg 0 5, dflt := .val 2 },
             { off := 2, size := 2, rng := rg 500 5000, dflt := .req }, { off := 4, size := 4, rng := rg 50 10000, dflt := .val 1000 },
             { off := 8, size := 4, rng := rg 100 60000, dflt := .val 5000 },
             { off := 12, size := 2, rng := rg 100 1000, dflt := .val 100 },
             { off := 14, size := 1, rng := rg 0x08 0x77, dflt := .val 0x50 }],
    xsize := 24,
    xflds := [⟨0, 4, 2, rg 10 500⟩, ⟨1, 6, 2, rg 200 20000⟩, ⟨2, 8, 2, rg 50 2000⟩, ⟨3, 10, 1, rg 5 50⟩, ⟨4, 11, 1, rg 20 200⟩,
              ⟨5, 12, 2, rg 7000 11000⟩, ⟨6, 14, 2, rg 7200 12000⟩, ⟨7, 16, 2, rg 15500 18000⟩, ⟨8, 18, 2, rg 10 1000⟩,
              ⟨9, 20, 1, []⟩, ⟨10, 21, 1, rg 1 200⟩] }

def layCart : Layout :=
  { maxInst := 23, minCount := 0, maxCount := 24, size := 56,
    flds := [{ off := 0, size := 1, rng := rg 0 1 }, { off := 1, size := 1, rng := rg 0 5, dflt := .val 2 },
             { off := 2, size := 2, dflt := .val 0xFFFF }, { off := 4, size := 2, rng := rg 100 10000, dflt := .val 2000 },
             { off := 8, size := 48, dflt := .req }],
    xsize := 8, xflds := [⟨0, 4, 1, rg 0 3⟩, ⟨1, 5, 1, rg 0 1⟩] }

def layFabric : Layout :=
  { maxInst := 0, minCount := 0, maxCount := 1, size := 24,
    flds := [{ off := 0, size := 4, dflt := .req }, { off := 4, size := 1, rng := rg 2 16, dflt := .req },
             { off := 5, size := 1, rng := rg 0 15 }, { off := 6, size := 1, rng := rgNone 0 79, dflt := .req },
             { off := 7, size := 1, rng := rg 0 1 }, { off := 8, size := 2, dflt := .req },
             { off := 10, size := 1, rng := rg 1 20, dflt := .req }, { off := 12, size := 4, grant := some .routeEpoch },
             { off := 16, size := 4, grant := some .routeEpoch }],
    arrs := [{ count := some (10, 1), elem := 4,
               flds := [{ off := 0, size := 1, rng := rg 0 79 }, { off := 1, size := 1, rng := rgNone 0 15 },
                        { off := 2, size := 1, rng := rgNone 0 79 }, { off := 3, size := 1 }] },
             { count := none, fixed := 32, elem := 4,
               flds := (List.range 4).map (fun i => { off := i, size := 1, rng := rgNone 0 79, grant := some .routeEpoch }) }],
    xsize := 12, xflds := [⟨0, 4, 2, rg 5 1000⟩, ⟨1, 6, 2, rg 100 10000⟩, ⟨2, 8, 1, rg 1 100⟩, ⟨3, 9, 1, rg 2 16⟩] }

def layTime : Layout :=
  { maxInst := 0, minCount := 1, maxCount := 1, size := 8,
    flds := [{ off := 0, size := 1, rng := rg 0 1, dflt := .val 1 }, { off := 1, size := 1, rng := rg 0 1, dflt := .val 1 },
             { off := 2, size := 2, rng := rg 1 50000, dflt := .val 100 }],
    xsize := 12,
    xflds := [⟨0, 4, 4, rg 0 100000 ++ rg 0xFFFE7960 0xFFFFFFFF⟩, ⟨1, 8, 1, rg 0 15⟩, ⟨2, 9, 1, rg 0 15⟩] }

def layReact : Layout :=
  { maxInst := 0, minCount := 1, maxCount := 1, size := 8,
    flds := [{ off := 0, size := 4, rng := rg 0 0xFFFFFF, dflt := .val 0xFFFFFF }, { off := 4, size := 1, rng := rg 0 128 }],
    arrs := [{ count := some (4, 1), elem := 4,
               flds := [{ off := 0, size := 1 }, { off := 1, size := 1, rng := rg 0 4 }, { off := 2, size := 1, rng := rg 0 4 },
                        { off := 3, size := 1, rng := rg 0 1 }] }],
    xsize := 8, xflds := [⟨0, 4, 1, rg 1 255⟩] }

def layLock : Layout :=
  { maxInst := 0, minCount := 1, maxCount := 1, size := 68,
    flds := [{ off := 0, size := 1, rng := rg 0 7, dflt := .val 4 }, { off := 1, size := 1, rng := rgNone 0 3, dflt := .val 0xFF },
             { off := 2, size := 1, rng := rg 0 63 }, { off := 3, size := 1, rng := rg 0 15 }, { off := 4, size := 16 },
             { off := 20, size := 48 }],
    xsize := 12, xflds := [⟨0, 4, 2, rg 1 3600⟩, ⟨1, 6, 2, rg 10 600⟩, ⟨2, 8, 1, rg 3 255⟩] }

def layAmend : Layout :=
  { maxInst := 0, minCount := 1, maxCount := 1, size := 8,
    flds := [{ off := 0, size := 4, rng := rg 0 1, dflt := .req }, { off := 4, size := 2, rng := rg 0 64, dflt := .req }],
    arrs := [{ count := some (4, 2), elem := 8,
               flds := [{ off := 0, size := 1, rng := rg 1 9 }, { off := 2, size := 2 }, { off := 4, size := 2 }] }],
    expert := false }

def laySample : Layout :=
  { maxInst := 63, minCount := 0, maxCount := 64, size := 20,
    flds := [{ off := 0, size := 1, rng := rg 0 79, dflt := .req }, { off := 1, size := 1, rng := rg 0 1 },
             { off := 2, size := 1, rng := rg 4 24, dflt := .val 16 }, { off := 3, size := 1, rng := rg 0 0x3F, dflt := .val 0x3F },
             { off := 4, size := 1, dflt := .val 0xFF }, { off := 5, size := 1, rng := rg 0 3 }, { off := 6, size := 1 },
             { off := 7, size := 1, rng := rgNone 0 127, dflt := .val 0xFF }, { off := 8, size := 8 },
             { off := 16, size := 1, rng := rg 4 16, dflt := .val 8 }],
    xsize := 8, xflds := [⟨0, 4, 1, [(0, 64, 4)]⟩] }

/-- The layout of a record type, none for a code outside Table 2.3. -/
def layoutOf (type : Nat) : Option Layout :=
  match type with
  | 0x01 => some layDevice | 0x02 => some layStation | 0x03 => some layPort | 0x04 => some layVh | 0x05 => some layTenant
  | 0x06 => some layGate | 0x07 => some layRegion | 0x08 => some laySched | 0x09 => some layMcast | 0x0A => some layPool
  | 0x0B => some laySlot | 0x0C => some layCart | 0x0D => some layFabric | 0x0E => some layTime | 0x0F => some layReact
  | 0x10 => some layLock | 0x11 => some layAmend | 0x12 => some laySample | _ => none

/-! Reading a record. -/

/-- A field of the basic block, or `d` where the block ends before it. -/
def bval (r : RawRec) (off size d : Nat) : Nat := if off + size ≤ r.basic.length then leAt r.basic off size else d

/-- OVERRIDE bit `i`. -/
def overrides (r : RawRec) (i : Nat) : Bool := bitN (leAt r.expert 0 4) i

/-- Expert field `i`, or the derived value `d` (R47). -/
def xval (r : RawRec) (i off size d : Nat) : Nat := if overrides r i then leAt r.expert off size else d

def ones (n : Nat) : Nat := 2 ^ n - 1

/-- The value that a missing field takes. -/
def dfltVal (r : RawRec) (d : Dflt) : Nat :=
  match d with | .req => 0 | .val n => n | .members => ones (bval r 5 1 0)

def fldVal (r : RawRec) (f : Fld) : Nat := bval r f.off f.size (dfltVal r f.dflt)

def arrCount (r : RawRec) (a : Arr) : Nat := match a.count with | some (o, n) => bval r o n 0 | none => a.fixed

/-- Each array with the offset at which it starts and its count. -/
def arrPlaces (r : RawRec) : Nat → List Arr → List (Arr × Nat × Nat)
  | _, [] => []
  | o, a :: t => (a, o, arrCount r a) :: arrPlaces r (o + a.elem * arrCount r a) t

/-- Where the defined part of the basic block ends. -/
def basicEnd (r : RawRec) (l : Layout) : Nat := l.size + (l.arrs.map (fun a => a.elem * arrCount r a)).sum

/-- The entries of array `k`, each as the offset of its first byte. -/
def elemOffs (r : RawRec) (l : Layout) (k : Nat) : List Nat :=
  match (arrPlaces r l.size l.arrs)[k]? with
  | some (a, o, n) => (List.range n).map (fun i => o + a.elem * i)
  | none => []

def elems {α : Type} (r : RawRec) (l : Layout) (k : Nat) (f : Nat → α) : List α := (elemOffs r l k).map f

/-! The typed records. -/

def readDevice (r : RawRec) : DeviceRec :=
  { chipId := bval r 0 1 0, fabricMode := bitN (bval r 1 1 0) 0, managerVh := bval r 2 1 0, i3cAddr := bval r 3 1 0x3A,
    systemId := w32 (bval r 4 4 0), avsVmin := xval r 0 4 2 700, avsVmax := xval r 1 6 2 850, mbxReleaseMs := xval r 2 8 2 1000 }

def readStation (r : RawRec) : StationRec :=
  let ref := bval r 1 1 0
  { bifurcation := bval r 0 1 0, refclkMode := ref, losMv := xval r 0 4 2 80, burnishPeriod := xval r 1 6 2 10,
    burnishEn := xval r 2 8 1 1 == 1, alignBadMax := xval r 3 9 1 8, lockPpm := xval r 4 10 2 (if ref = 2 then 6000 else 1000),
    floorNrz := xval r 5 12 1 25, floorPam4 := xval r 6 13 1 12 }

def readPort (r : RawRec) : PortRec :=
  let pm := bval r 3 1 1
  { role := bval r 0 1 0, targetRate := bval r 1 1 6, avoidFlit := bval r 2 1 0 == 1, aspmL1 := bitN pm 0, l0p := bitN pm 1,
    l2 := bitN pm 2, vh := bval r 4 1 0xFF, slot := bval r 5 1 0xFF, containCa := bval r 6 1 1 == 1,
    cplTimeoutUs := bval r 8 4 50000, eqBypass := xval r 0 4 1 0 == 1, reeqEn := xval r 1 5 1 0 == 1,
    l0pMinWidth := xval r 2 6 1 1, retimers := xval r 3 7 1 3, txPresets := xval r 4 8 4 0x4444, l1IdleUs := xval r 5 12 2 10 }

def pairAt (r : RawRec) (o : Nat) : PortChip := { port := bval r o 1 0, chip := bval r (o + 1) 1 0 }

def readVh (r : RawRec) : VhRec := { upPort := bval r 0 1 0, upChip := bval r 1 1 0, ds := elems r layVh 0 (pairAt r) }

def polAt (r : RawRec) (o : Nat) : PolEntry :=
  { tcMask := BitVec.ofNat 8 (bval r o 1 0), hold := bval r (o + 1) 1 0 == 1, cir := bval r (o + 4) 4 0, pir := bval r (o + 8) 4 0,
    cbs := bval r (o + 12) 4 0, pbs := bval r (o + 16) 4 0 }

def clsAt (r : RawRec) (o : Nat) : ClsEntry :=
  let f := bval r (o + 1) 1 0
  { port := bval r o 1 0, nopasid := bitN f 0, trusted := bitN f 1, ridLo := bval r (o + 2) 2 0, ridHi := bval r (o + 4) 2 0,
    pasidLo := bval r (o + 8) 4 0, pasidHi := bval r (o + 12) 4 0 }

def readTenant (r : RawRec) : TenantRec :=
  { vh := bval r 0 1 0, bulkTc := BitVec.ofNat 8 (bval r 3 1 0), minP := bval r 4 2 0xFFFF, minNp := bval r 6 2 0xFFFF,
    pol := elems r layTenant 0 (polAt r), cls := elems r layTenant 1 (clsAt r), alphaCpl := xval r 0 4 1 6,
    alphaBulk := xval r 1 5 1 4, cap := if overrides r 2 then some (leAt r.expert 8 4) else none }

def readGate (r : RawRec) : GateRec := { default_ := bval r 0 1 0, logLimit := xval r 0 4 1 8 }

def readRegion (r : RawRec) : RegionRec :=
  { gate := bval r 0 1 0, shared := bval r 1 1 0 == 1, slot := bval r 2 1 0, tenant := bval r 3 1 0,
    perm := BitVec.ofNat 7 (bval r 4 1 0), subdis := BitVec.ofNat 8 (bval r 5 1 0), sizeLog2 := bval r 6 1 0, base := bval r 8 8 0,
    tenants := BitVec.ofNat 256 (bval r 16 32 0) }

def gclAt (r : RawRec) (o : Nat) : GclEntry :=
  { mask := BitVec.ofNat 8 (bval r (o + 3) 1 0), interval := bval r o 3 0 }

def shaperAt (r : RawRec) (o : Nat) : ShaperEntry :=
  { id := bval r o 2 0, scope := bval r (o + 2) 1 0, tc := bval r (o + 3) 1 0, owner := bval r (o + 4) 2 0,
    bucketSet := bval r (o + 6) 1 0, rate := bval r (o + 8) 4 0, burst := bval r (o + 12) 4 0 }

def monAt (r : RawRec) (o : Nat) : MonEntry := { id := bval r o 2 0, tc := bval r (o + 2) 1 0, owner := bval r (o + 4) 2 0 }

def readSched (r : RawRec) : SchedRec :=
  { express := BitVec.ofNat 8 (bval r 0 1 0), sampleUs := bval r 4 2 10, weight := (List.range 8).map (fun i => bval r (8 + i) 1 8),
    baseTime := bval r 16 8 0, cycleNs := bval r 24 4 0, gcl := elems r laySched 0 (gclAt r),
    shapers := elems r laySched 1 (shaperAt r), mons := elems r laySched 2 (monAt r), guardExtra := xval r 0 4 2 0,
    quantumScale := xval r 1 6 2 512 }

def policyOf (n : Nat) : Policy := match n with | 0 => .atomicAdmit | 2 => .park | _ => .bestEffort

def readMcast (r : RawRec) : McastRec :=
  { tenant := bval r 0 1 0, vh := bval r 1 1 0, vhIndex := bval r 2 2 0, policy := policyOf (bval r 4 1 1),
    admitTimeout := bval r 6 2 100, members := w64 (bval r 8 8 (ones (bval r 5 1 0))), parkCells := bval r 16 4 512,
    dests := elems r layMcast 0 (pairAt r), destCells := xval r 0 4 2 96 }

def readPool (r : RawRec) : PoolRec :=
  let runAt (o : Nat) : Run := { firstLot := bval r o 2 0, count := bval r (o + 2) 2 0, tenant := bval r (o + 4) 1 0,
                                 firstSlot := bval r (o + 6) 2 0 }
  { chMask := bval r 0 1 3, patrolHours := bval r 1 1 24, spillChannel := bval r 2 1 0xFF, spillLots := bval r 3 1 0,
    capGib0 := bval r 4 2 0, capGib1 := bval r 6 2 0, windowLog2 := bval r 8 1 34,
    fanout := elems r layPool 0 (fun o => { region := bval r o 2 0, producer := bval r (o + 2) 1 0 }),
    runs := elems r layPool 1 runAt, speedMts := xval r 0 4 2 6400, srIdleUs := xval r 1 6 2 100, ueLimit := xval r 2 8 1 64,
    fillShare := xval r 3 9 1 1 }

def readSlot (r : RawRec) : SlotRec :=
  let f := bval r 0 1 7
  { autoOn := bitN f 0, feedA := bitN f 1, feedB := bitN f 2, defClass := bval r 1 1 2, rsenseUohm := bval r 2 2 0,
    tWarnUs := bval r 4 4 1000, retryMs := bval r 8 4 5000, perstDelayMs := bval r 12 2 100, idAddr := bval r 14 1 0x50,
    ilimCode := if overrides r 0 then some (leAt r.expert 4 2) else none, faultTmrUs := xval r 1 6 2 2000,
    rampFaultUs := xval r 2 8 2 500, gateUa := xval r 3 10 1 20, swapGapUs := xval r 4 11 1 50, feedUvMv := xval r 5 12 2 8500,
    feedWarnMv := xval r 6 14 2 9500, feedOvMv := xval r 7 16 2 16000, dischargeMs := xval r 8 18 2 50, retryMax := xval r 9 20 1 8,
    rampMaxMs := xval r 10 21 1 50 }

def readCart (r : RawRec) : CartRec :=
  { authFailCut := bitN (bval r 0 1 0) 0, maxClass := bval r 1 1 2, vendorId := bval r 2 2 0xFFFF, authTimeoutMs := bval r 4 2 2000,
    rootDigest := (r.basic.drop 8).take 48, forceOk := xval r 0 4 1 0, allowP256 := xval r 1 5 1 0 == 1 }

def peerAt (r : RawRec) (o : Nat) : Peer :=
  { port := bval r o 1 0, chip := bval r (o + 1) 1 0xFF, peerPort := bval r (o + 2) 1 0xFF, asymNs := ofTwos 8 (bval r (o + 3) 1 0) }

/-- The member ports of a ROUTE entry. -/
def routeAt (r : RawRec) (o : Nat) : List Nat := ((List.range 4).map (fun i => bval r (o + i) 1 0xFF)).filter (· != 0xFF)

def routeTable : Nat → List (List Nat) → Tbl (List Nat)
  | _, [] => []
  | i, m :: t => if m.isEmpty then routeTable (i + 1) t else (i, m) :: routeTable (i + 1) t

def readFabric (r : RawRec) : FabricRec :=
  { fabricId := w32 (bval r 0 4 0), chipCount := bval r 4 1 0, rootChip := bval r 5 1 0, treeParent := bval r 6 1 0xFF,
    ringEn := bitN (bval r 7 1 0) 0, chipMask := BitVec.ofNat 16 (bval r 8 2 0), bankTag0 := w32 (bval r 12 4 0),
    bankTag1 := w32 (bval r 16 4 0), peers := elems r layFabric 0 (peerAt r), routes := routeTable 0 (elems r layFabric 1 (routeAt r)),
    epochDrainUs := xval r 0 4 2 50, joinWindowMs := xval r 1 6 2 1000, timeSyncUs := xval r 2 8 1 10, presenceMiss := xval r 3 9 1 3 }

def readTime (r : RawRec) : TimeRec :=
  { ppsEn := bval r 0 1 1 == 1, ptmEn := bval r 1 1 1 == 1, ppsWindowUs := bval r 2 2 100, ppsDelayNs := ofTwos 32 (xval r 0 4 4 0),
    kpShift := xval r 1 8 1 2, kiShift := xval r 2 9 1 5 }

def reactAt (r : RawRec) (o : Nat) : ReactEntry :=
  { kind := bval r o 1 0, level := bval r (o + 1) 1 0, escMax := bval r (o + 2) 1 0, ring := bitN (bval r (o + 3) 1 0) 0 }

def readReact (r : RawRec) : ReactRec :=
  { slotSafe := BitVec.ofNat 24 (bval r 0 4 0xFFFFFF), entries := elems r layReact 0 (reactAt r), stormLimit := xval r 0 4 1 16 }

/-- `n` bytes of the basic block at `o`, 0 where it ends before. -/
def bytesAt (r : RawRec) (o n : Nat) : List Byte := if o + n ≤ r.basic.length then (r.basic.drop o).take n else List.replicate n 0

def readLock (r : RawRec) : LockRec :=
  let f := bval r 0 1 4
  { lockOnLoad := bitN f 0, passwordEn := bitN f 1, bilinoEn := bitN f 2, unlockKeySlot := bval r 1 1 0xFF,
    minSecVersion := bval r 2 1 0, revokeMask := BitVec.ofNat 4 (bval r 3 1 0), salt := bytesAt r 4 16, pwHash := bytesAt r 20 48,
    failHoldS := xval r 0 4 2 10, challengeLifeS := xval r 1 6 2 60, failMax := xval r 2 8 1 16 }

def grantOf (n : Nat) : Grant :=
  match n with
  | 1 => .shaperRate | 2 => .gateList | 3 => .mcastMember | 4 => .slotPower | 5 => .containRelease | 6 => .tenantEvict
  | 7 => .lotAssign | 8 => .routeEpoch | _ => .classify

def readAmend (r : RawRec) : AmendRec :=
  { warmResume := bitN (bval r 0 4 0) 0,
    grants := elems r layAmend 0 (fun o => { cls := grantOf (bval r o 1 0), instLo := bval r (o + 2) 2 0, instHi := bval r (o + 4) 2 0 }) }

def readSample (r : RawRec) : SampleRec :=
  let f := bval r 5 1 0
  { port := bval r 0 1 0, egress := bval r 1 1 0 == 1, rateK := bval r 2 1 16, typeMask := BitVec.ofNat 8 (bval r 3 1 0x3F),
    tcMask := BitVec.ofNat 8 (bval r 4 1 0xFF), tenantFilter := bitN f 0, payloadEn := bitN f 1, tenant := bval r 6 1 0,
    ringVh := bval r 7 1 0xFF, ringAddr := bval r 8 8 0, ringLog2 := bval r 16 1 8, payloadBytes := xval r 0 4 1 64 }

end Sys2Proof.Machine
end

