-- ==== Sys2Proof/Machine/Verify.lean ====
section
/-! DEFINITION. The checks of Table 2.6 on records: RECORD_FORM, RECORD_COUNT, FIELD_RANGE and CROSS_CHECK (R45 to R52 and
the Load checks of each record). A check answers the byte offset of its failure within the record as framed. -/

namespace Sys2Proof.Machine

/-- The offset of the first failed condition. -/
def firstBad : List (Bool × Nat) → Option Nat
  | [] => none
  | (b, o) :: t => if b then some o else firstBad t

/-! Framing (R45, Table 2.2). -/

/-- A record from its framed bytes. -/
def recOf (b : List Byte) : RawRec :=
  let n := leAt b 4 2
  { type := leAt b 0 1, version := leAt b 1 1, inst := leAt b 2 2, basic := (b.drop 8).take n,
    expert := (b.drop (8 + n)).take (leAt b 6 2) }

/-- The size that a record's framing gives. -/
def framedSize (b : List Byte) : Nat := 8 + leAt b 4 2 + leAt b 6 2

/-- The records that `b` holds, each beginning on an 8-byte boundary, and whether the last one ends where `b` does: a record that runs past
the end, or bytes after the last one that are no record, end the walk. At most `n` steps. -/
def walkRecs : Nat → List Byte → List RawRec × Bool
  | 0, b => ([], b.isEmpty)
  | n + 1, b =>
    if b.isEmpty then ([], true)
    else if b.length < 8 ∨ b.length < framedSize b then ([], false)
    else
      let size := framedSize b
      let rest := b.drop size
      let pad := if rest.isEmpty then 0 else (8 - size % 8) % 8
      let r := { recOf b with padOk := (rest.take pad).all (· == 0), lenOk := leAt b 4 2 % 4 == 0 && leAt b 6 2 % 4 == 0 }
      let w := walkRecs n (rest.drop pad)
      (r :: w.1, w.2 && (rest.isEmpty || decide (pad < rest.length)))

/-! RECORD_FORM (R45 to R47). -/

/-- A field that the basic block covers only in part, or a missing one without a default (R46). -/
def fieldForm (r : RawRec) (f : Fld) : Option Nat :=
  if f.off + f.size ≤ r.basic.length then none
  else if f.off < r.basic.length then some (8 + f.off)
  else if f.dflt = .req then some (8 + f.off) else none

/-- An array that the basic block does not cover. -/
def arrForm (r : RawRec) (a : Arr × Nat × Nat) : Option Nat :=
  let (x, o, n) := a
  if n = 0 ∨ o + x.elem * n ≤ r.basic.length then none
  else some (8 + o + x.elem * ((r.basic.length - o) / x.elem))

/-- The first byte that is not 0 from offset `o` on. -/
def firstNonZero : List Byte → Nat → Option Nat
  | [], _ => none
  | b :: t, o => if b = 0 then firstNonZero t (o + 1) else some o

/-- A CAP_GIB of a populated channel that the block does not hold (Table 8.9). -/
def capForm (r : RawRec) : Option Nat :=
  if r.type ≠ 0x0A then none
  else firstBad [(bitN (bval r 0 1 3) 0 && decide (r.basic.length < 6), 12), (bitN (bval r 0 1 3) 1 && decide (r.basic.length < 8), 14)]

/-- BASIC_LEN of a REGION record (R221). -/
def regionForm (r : RawRec) : Option Nat :=
  if r.type ≠ 0x07 then none
  else match bval r 1 1 0 with
    | 0 => if r.basic.length = 16 then none else some 4
    | 1 => if r.basic.length = 48 then none else some 4
    | _ => none

/-- The OVERRIDE mask: a bit that names no field, or whose field lies beyond EXPERT_LEN (R47). -/
def overrideForm (r : RawRec) (l : Layout) : Option Nat :=
  let bad (i : Nat) : Bool := match l.xflds.find? (fun f => f.num == i) with
    | some f => decide (r.expert.length < f.off + f.size)
    | none => true
  if (List.range 32).any (fun i => overrides r i && bad i) then some (8 + r.basic.length) else none

/-- RECORD_FORM of a record. DESIGN CHOICE: bytes of an expert block beyond the fields of its type must be 0, as R46 says of the basic
block (log entry 39). -/
def formErr (r : RawRec) (l : Layout) : Option Nat :=
  (firstBad [(r.version != 1, 1), (!r.lenOk || r.basic.length % 4 != 0, 4), (r.expert.length % 4 != 0, 6),
    (!l.expert && !r.expert.isEmpty, 6)]).or <|
  (l.flds.findSome? (fieldForm r)).or <|
  (capForm r).or <|
  (regionForm r).or <|
  ((arrPlaces r l.size l.arrs).findSome? (arrForm r)).or <|
  (firstNonZero (r.basic.drop (basicEnd r l)) (8 + basicEnd r l)).or <|
  (overrideForm r l).or <|
  (firstNonZero (r.expert.drop l.xsize) (8 + r.basic.length + l.xsize)).or <|
  (if r.padOk then none else some (8 + r.basic.length + r.expert.length))

/-! FIELD_RANGE. -/

def fieldRange (r : RawRec) (base : Nat) (f : Fld) : Option Nat :=
  if base + f.off + f.size ≤ r.basic.length ∧ !inRng f.rng (leAt r.basic (base + f.off) f.size) then some (8 + base + f.off) else none

def arrRange (r : RawRec) (a : Arr × Nat × Nat) : Option Nat :=
  (List.range a.2.2).findSome? (fun i => a.1.flds.findSome? (fieldRange r (a.2.1 + a.1.elem * i)))

def expertRange (r : RawRec) (f : XFld) : Option Nat :=
  if overrides r f.num ∧ !inRng f.rng (leAt r.expert f.off f.size) then some (8 + r.basic.length + f.off) else none

/-- The entries of array `k` as read by `f`, each with its offset. -/
def indexed {α : Type} (r : RawRec) (l : Layout) (k : Nat) (f : RawRec → Nat → α) : List (Nat × α) :=
  (elemOffs r l k).map (fun o => (8 + o, f r o))

def rangeTenant (r : RawRec) : Option Nat :=
  ((indexed r layTenant 0 polAt).findSome? (fun e => firstBad [(decide (e.2.pir < e.2.cir), e.1 + 8), (decide (e.2.pbs < e.2.cbs), e.1 + 16)])).or
  ((indexed r layTenant 1 clsAt).findSome? (fun e => firstBad
    [(e.2.trusted && !e.2.nopasid, e.1 + 1), (decide (e.2.ridHi < e.2.ridLo), e.1 + 4), (e.2.nopasid && e.2.pasidLo != 0, e.1 + 8),
     (e.2.nopasid && e.2.pasidHi != 0, e.1 + 12), (decide (e.2.pasidHi < e.2.pasidLo), e.1 + 12)]))

/-- The bytes of a gate's address space: the capacity of the channel, 16 MiB, 2 MiB, or all 64 bits. -/
def gateSpace (s : State) (g : Nat) : Nat :=
  if g = 0 then (poolRec s).capGib0 * 2 ^ 30
  else if g = 1 then (poolRec s).capGib1 * 2 ^ 30
  else if g = 2 then 0x1000000
  else if g = 3 then 0x200000 else 2 ^ 64

/-- A gate number of this chip (Table 7.5). -/
def validGate (s : State) (g : Nat) : Bool := decide (g ≤ 3) || (decide (16 ≤ g) && decide (g < 96) && s.isDown (g - 16))

def rangeRegion (s : State) (r : RawRec) : Option Nat :=
  let x := readRegion r
  firstBad [(!validGate s x.gate, 8), (!x.shared && decide (15 < x.slot), 10), (x.shared && x.tenant != 0, 11),
    (x.base % 2 ^ x.sizeLog2 != 0, 16), (decide (gateSpace s x.gate < x.base + 2 ^ x.sizeLog2), 16)]

def rangeSched (r : RawRec) : Option Nat :=
  let x := readSched r
  (firstBad [((x.cycleNs == 0) != x.gcl.isEmpty, 8 + 24)]).or <|
  ((indexed r laySched 0 gclAt).findSome? (fun e => if e.2.interval = 0 then some e.1 else none)).or
  ((indexed r laySched 1 shaperAt).findSome? (fun e => firstBad
    [(e.2.scope == 0 && e.2.tc != 0, e.1 + 3), (e.2.scope != 2 && e.2.owner != 0, e.1 + 4)]))

/-- What CAP_GIB of a channel may be (Table 8.9). -/
def capOk (on : Bool) (g : Nat) : Bool := if on then [16, 32, 64, 128, 256].contains g else g == 0

/-- The last lot of a channel plus 1, by its CAP_GIB. -/
def chanLots (x : PoolRec) (c : Nat) : Nat := (if c = 0 then x.capGib0 else x.capGib1) * 16

def runAt (r : RawRec) (o : Nat) : Run :=
  { firstLot := bval r o 2 0, count := bval r (o + 2) 2 0, tenant := bval r (o + 4) 1 0, firstSlot := bval r (o + 6) 2 0 }

def rangePool (r : RawRec) : Option Nat :=
  let x := readPool r
  (firstBad [((x.spillChannel == 0xFF) != (x.spillLots == 0), 11), (!capOk (bitN x.chMask 0) x.capGib0, 12),
    (!capOk (bitN x.chMask 1) x.capGib1, 14)]).or
  ((indexed r layPool 1 runAt).findSome? (fun e => firstBad
    [(decide (chanLots x (e.2.firstLot / 4096) < e.2.firstLot % 4096 + e.2.count), e.1 + 2),
     (decide (2 ^ (x.windowLog2 - 26) < e.2.firstSlot + e.2.count), e.1 + 6)]))

/-- The derived current limit of a class is out of R345's range. -/
def ilimBad (x : SlotRec) (c : Nat) : Bool :=
  match classMa c with
  | none => false
  | some ma =>
    let k := derivedIlim x.rsenseUohm ma
    let i := k * 100000 / x.rsenseUohm
    decide (k < 10) || decide (500 < k) || decide (i < 1000) || decide (40000 < i)

def rangeSlot (s : State) (r : RawRec) : Option Nat :=
  let x := readSlot r
  let most := match cartRec s r.inst with | some c => c.maxClass + 1 | none => 0
  firstBad [(!x.feedA && !x.feedB, 8), (x.ilimCode.isNone && (ilimBad x x.defClass || (List.range most).any (ilimBad x)), 10)]

def rangeReact (r : RawRec) : Option Nat :=
  (indexed r layReact 0 reactAt).findSome? (fun e =>
    match kindOf e.2.kind with
    | none => some e.1
    | some k => firstBad [(!k.levels.contains e.2.level, e.1 + 1), (!k.escs.contains e.2.escMax, e.1 + 2),
        (decide (e.2.escMax < e.2.level), e.1 + 2), (e.2.ring && decide (e.2.level < 4) && decide (e.2.escMax < 4), e.1 + 3)])

/-- What the ranges of the tables do not say by themselves. Table 3.7 ranges the nibbles of TX_PRESETS and calls [31:16] reserved: a value other
than 0 there is out of range too. DESIGN CHOICE, log entry 39. -/
def rangeOwn (s : State) (r : RawRec) : Option Nat :=
  let n := r.basic.length
  match r.type with
  | 0x01 => let x := readDevice r
            firstBad [(x.chipId != 0 && !x.fabricMode, 8), (decide (x.avsVmax < x.avsVmin), 8 + n + 6)]
  | 0x02 => firstBad [(decide (10 ≤ bval r 0 1 0) && r.inst != 0 && r.inst != 9, 8)]
  | 0x03 => let x := readPort r
            firstBad [(overrides r 2 && decide (cfgWidth s r.inst < x.l0pMinWidth), 8 + n + 6),
              (overrides r 4 && (decide (0xFFFF < x.txPresets) || (List.range 4).any (fun i => decide (10 < bitsN x.txPresets (4 * i) 4))), 8 + n + 8)]
  | 0x05 => rangeTenant r
  | 0x06 => firstBad [(!validGate s r.inst, 2)]
  | 0x07 => rangeRegion s r
  | 0x08 => rangeSched r
  | 0x09 => firstBad [(decide (2 ^ bval r 5 1 0 ≤ fldVal r { off := 8, size := 8, dflt := .members }), 16)]
  | 0x0A => rangePool r
  | 0x0B => rangeSlot s r
  | 0x0F => rangeReact r
  | 0x10 => let x := readLock r
            firstBad [(x.passwordEn && x.pwHash.all (· == 0), 8 + 20)]
  | 0x11 => (indexed r layAmend 0 (fun r o => (bval r (o + 2) 2 0, bval r (o + 4) 2 0))).findSome? (fun e =>
              if e.2.2 < e.2.1 then some (e.1 + 4) else none)
  | 0x12 => let x := readSample r
            firstBad [(x.payloadEn && !x.tenantFilter, 13), (x.ringVh != 0xFF && !x.payloadEn, 15), (x.ringAddr % 128 != 0, 16)]
  | _ => none

/-- FIELD_RANGE of a record; `s` holds the configuration that is being checked. -/
def rangeErr (s : State) (r : RawRec) (l : Layout) : Option Nat :=
  (if l.maxInst < r.inst then some 2 else none).or <|
  (l.flds.findSome? (fieldRange r 0)).or <|
  ((arrPlaces r l.size l.arrs).findSome? (arrRange r)).or <|
  (l.xflds.findSome? (expertRange r)).or (rangeOwn s r)

/-! CROSS_CHECK. `s` holds the configuration that is being checked; `am` says that a record is amended: it is then held against
every other record, and else against those before it. -/

/-- The other records of a type that a record is held against. -/
def others {α : Type} (am : Bool) (i : Nat) (t : Tbl α) : Tbl α :=
  t.filter (fun e => if am then e.1 != i else decide (e.1 < i))

def crossDevice (s : State) : Option Nat :=
  let m := s.device.managerVh
  firstBad [(!s.cfg.ports.any (fun e => e.2.role == 0 && e.2.vh == m), 10), (s.fabricMode && s.cfg.fabric.isNone, 9)]

def crossPort (s : State) (am : Bool) (p : Nat) (x : PortRec) : Option Nat :=
  let w := cfgWidth s p
  let own := match s.vhRec x.vh with | some v => v.upPort == p && v.upChip == s.chipId | none => false
  firstBad [(w == 0, 2), (x.role == 2 && !(w == 8 || w == 16), 8), (x.role == 2 && !s.fabricMode, 8),
    (x.role == 0 && !own, 12), (x.role == 1 && x.vh != 0xFF && (s.vhRec x.vh).isNone, 12), (x.role == 2 && x.vh != 0xFF, 12),
    (x.slot != 0xFF && x.role != 1, 13), (x.slot != 0xFF && (others am p s.cfg.ports).any (fun e => e.2.slot == x.slot), 13)]

/-- A list names a value twice. -/
def hasDup {α : Type} [DecidableEq α] : List α → Bool
  | [] => false
  | a :: t => t.contains a || hasDup t

/-- A downstream entry of VH `n` on this chip names a downstream port whose VH is `n` or none (R196). -/
def dsOk (s : State) (n : Nat) (d : PortChip) : Bool :=
  if d.chip ≠ s.chipId then s.fabricMode
  else match s.portRec d.port with | some q => q.role == 1 && (q.vh == n || q.vh == 0xFF) | none => false

def crossVh (s : State) (am : Bool) (n : Nat) (v : VhRec) : Option Nat :=
  let upOk := if v.upChip ≠ s.chipId then s.fabricMode
    else match s.portRec v.upPort with | some q => q.role == 0 && q.vh == n | none => false
  firstBad [(!upOk, 8), (v.ds.any (fun d => !dsOk s n d), 12), (hasDup v.ds, 12),
    ((others am n s.cfg.vhs).any (fun e => e.2.ds.any (fun d => v.ds.contains d)), 12)]

def ridsMeet (a b : ClsEntry) : Bool := decide (a.ridLo ≤ b.ridHi) && decide (b.ridLo ≤ a.ridHi)

def pasidsMeet (a b : ClsEntry) : Bool :=
  (a.nopasid && b.nopasid) || (!a.nopasid && !b.nopasid && decide (a.pasidLo ≤ b.pasidHi) && decide (b.pasidLo ≤ a.pasidHi))

/-- Two entries that R104 keeps apart. -/
def clsClash (a b : ClsEntry) : Bool := a.port == b.port && ridsMeet a b && pasidsMeet a b

/-- Entries of two tenants that R199 keeps apart: at a downstream port, whatever their PASIDs. -/
def ridClash (s : State) (a b : ClsEntry) : Bool := a.port == b.port && s.isDown a.port && ridsMeet a b

/-- An entry's port is the VH's upstream port or a downstream port that it holds here. -/
def clsPortOk (s : State) (x : TenantRec) (p : Nat) : Bool :=
  !s.isFabric p && (match s.vhRec x.vh with | some v => vhHolds s p v | none => false)

/-- A policer that holds needs its tenant alone at each of its ports (R173). -/
def holdOk (s : State) (t : Nat) (x : TenantRec) : Bool :=
  x.cls.all (fun e => s.cfg.tenants.all (fun u => u.1 == t || u.2.cls.all (fun f => f.port != e.port)))

/-- The first entry that meets an earlier entry of the same list. -/
def selfClash : List (Nat × ClsEntry) → List ClsEntry → Option Nat
  | [], _ => none
  | (o, e) :: t, before => if before.any (clsClash e) then some o else selfClash t (before ++ [e])

def polOverlap : List (Nat × PolEntry) → Byte → Option Nat
  | [], _ => none
  | (o, e) :: t, used => if e.tcMask &&& used = 0 then polOverlap t (used ||| e.tcMask) else some o

def crossTenant (s : State) (am : Bool) (r : RawRec) (t : Nat) (x : TenantRec) : Option Nat :=
  let seen := s.cfg.tenants.filter (fun e => am || decide (e.1 ≤ t))
  let cls := indexed r layTenant 1 clsAt
  let pol := indexed r layTenant 0 polAt
  let rest := others am t s.cfg.tenants
  let last := s.cfg.tenants.all (fun e => decide (e.1 ≤ t))
  (firstBad [((s.vhRec x.vh).isNone, 8), (decide (253 < (seen.filter (fun e => e.2.vh == x.vh)).length), 8),
    (decide (4096 < (seen.map (fun e => e.2.cls.length)).sum), 9), (decide (512 < (seen.map (fun e => e.2.pol.length)).sum), 10),
    ((am || last) && decide (46080 < reservedPoolOf 98304 s.cfg), 12)]).or <|
  (polOverlap pol 0).or <|
  (cls.findSome? (fun e => if clsPortOk s x e.2.port then none else some e.1)).or <|
  (selfClash cls []).or <|
  (cls.findSome? (fun e => if rest.any (fun u => u.2.cls.any (fun f => clsClash e.2 f || ridClash s e.2 f)) then some e.1 else none)).or <|
  (pol.findSome? (fun e => if e.2.hold ∧ !holdOk s t x then some (e.1 + 1) else none)).or
  (if am then cls.findSome? (fun e =>
      if rest.any (fun u => u.2.pol.any (·.hold) && u.2.cls.any (fun f => f.port == e.2.port)) then some e.1 else none)
   else none)

/-- The tenants to which a region is granted. -/
def grantees (x : RegionRec) : List Nat := if x.shared then (List.range 256).filter (fun t => x.tenants.getLsbD t) else [x.tenant]

def regionsMeet (a b : RegionRec) : Bool :=
  a.gate == b.gate && decide (a.base < b.base + 2 ^ b.sizeLog2) && decide (b.base < a.base + 2 ^ a.sizeLog2)

/-- Two records that R222 keeps apart: the same slot, or a byte granted to two tenants. -/
def regionClash (a b : RegionRec) : Bool :=
  (a.gate == b.gate && a.slot == b.slot && a.shared == b.shared && (a.shared || a.tenant == b.tenant))
    || (regionsMeet a b && (grantees a).any (fun t => (grantees b).any (· != t)))

/-- The channel bytes of the spill area (R250). -/
def spillStart (x : PoolRec) : Nat := (chanLots x x.spillChannel - x.spillLots) * 2 ^ 26

/-- A region meets the spill area. -/
def meetsSpill (s : State) (x : RegionRec) : Bool :=
  match s.cfg.pool with
  | none => false
  | some q => q.spillChannel != 0xFF && x.gate == q.spillChannel && decide (spillStart q < x.base + 2 ^ x.sizeLog2)

def crossRegion (s : State) (am : Bool) (i : Nat) (x : RegionRec) : Option Nat :=
  let g := grantees x
  let vhBad (t : Nat) : Bool := match s.tenantRec t with | some u => u.vh != s.device.managerVh | none => true
  let clsBad (t : Nat) : Bool := match s.tenantRec t with | some u => !u.cls.any (fun e => e.port == x.gate - 16) | none => true
  firstBad [(g.isEmpty, 24), (g.any (fun t => (s.tenantRec t).isNone), 11), (decide (1 < x.gate) && decide (1 < g.length), 24),
    (decide (16 ≤ x.gate) && g.any clsBad, 8), ((x.gate == 2 || x.gate == 3) && g.any vhBad, 8), (meetsSpill s x, 16),
    ((others am i s.cfg.regions).any (fun e => regionClash x e.2), 16)]

/-- Two shapers of one scope instance (R192). -/
def sameScope (a b : ShaperEntry) : Bool :=
  a.scope == b.scope && (a.scope == 0 || a.tc == b.tc) && (a.scope != 2 || a.owner == b.owner)

/-- An owner reaches a port (R437). -/
def ownerReaches (s : State) (o p : Nat) : Bool := o == ownerM || reaches s o p

def pairClash {α : Type} (bad : α → α → Bool) : List (Nat × α) → List α → Option Nat
  | [], _ => none
  | (o, e) :: t, before => if before.any (bad e) then some o else pairClash bad t (before ++ [e])

def crossSched (s : State) (am : Bool) (r : RawRec) (p : Nat) (x : SchedRec) : Option Nat :=
  let rest := others am p s.cfg.scheds
  let sh := indexed r laySched 1 shaperAt
  let mo := indexed r laySched 2 monAt
  (firstBad [((s.portRec p).isNone, 2), ((x.gcl.map (fun e => 8 * e.interval)).sum != x.cycleNs, 8 + 24)]).or <|
  (sh.findSome? (fun e => firstBad [(rest.any (fun u => u.2.shapers.any (fun f => f.id == e.2.id)), e.1),
    (e.2.scope == 2 && !ownerReaches s e.2.owner p, e.1 + 4)])).or <|
  (pairClash (fun a b => a.id == b.id || sameScope a b) sh []).or <|
  (mo.findSome? (fun e => firstBad [(rest.any (fun u => u.2.mons.any (fun f => f.id == e.2.id)), e.1),
    (e.2.owner != 0x1FF && !ownerReaches s e.2.owner p, e.1 + 4)])).or
  (pairClash (fun a b => a.id == b.id) mo [])

def crossMcast (s : State) (am : Bool) (g : Nat) (x : McastRec) : Option Nat :=
  let holds := match s.tenantRec x.tenant with | some u => u.vh == x.vh | none => false
  let inVh (d : PortChip) : Bool := match s.vhRec x.vh with
    | some v => (v.upPort == d.port && v.upChip == d.chip) || v.ds.contains d
    | none => false
  let spill := match s.cfg.pool with | some q => q.spillChannel != 0xFF | none => false
  firstBad [((s.vhRec x.vh).isNone || !holds, 8), ((others am g s.cfg.mcasts).any (fun e => e.2.vh == x.vh && e.2.vhIndex == x.vhIndex), 9),
    (x.policy == .park && !spill, 12), (x.dests.any (fun d => !inVh d), 28), (hasDup x.dests, 28),
    (x.dests.any (fun d => d.chip != s.chipId && !s.fabricMode), 28),
    (x.dests.any (fun d => d.chip == s.chipId && !reaches s x.tenant d.port), 28)]

/-- A region holds a lot whole; it meets a lot where it holds it only in part too. -/
def holdsLot (x : RegionRec) (l : Nat) : Bool :=
  x.gate == l / 4096 && decide (x.base ≤ l % 4096 * 2 ^ 26) && decide ((l % 4096 + 1) * 2 ^ 26 ≤ x.base + 2 ^ x.sizeLog2)

/-- R236 for a run: a region of the run's tenant holds each lot, or one shared region holds the whole run. -/
def runRegions (s : State) (u : Run) : Bool :=
  let lots := runLots u
  let rs := s.cfg.regions.map (·.2)
  let shared := rs.filter (fun x => x.shared && lots.any (fun l => regionsMeet x { x with gate := l / 4096, base := l % 4096 * 2 ^ 26, sizeLog2 := 26 }))
  match shared with
  | [] => lots.all (fun l => rs.any (fun x => !x.shared && x.tenant == u.tenant && holdsLot x l))
  | x :: _ => lots.all (holdsLot x) && decide (u.tenant < 256) && x.tenants.getLsbD u.tenant

/-- Two runs share a lot. -/
def runsMeet (a b : Run) : Bool :=
  decide (a.firstLot < b.firstLot + b.count) && decide (b.firstLot < a.firstLot + a.count)

/-- The tenants in whose windows a run is mapped. -/
def runViewers (s : State) (u : Run) : List Nat :=
  u.tenant :: (s.cfg.tenants.map (·.1)).filter (fun t => t != u.tenant && sharedFor s t u.firstLot)

/-- Two runs give one slot of a tenant's window two lots. -/
def slotsMeet (s : State) (a b : Run) : Bool :=
  decide (a.firstSlot < b.firstSlot + b.count) && decide (b.firstSlot < a.firstSlot + a.count)
    && (runViewers s a).any (fun t => (runViewers s b).contains t)

def fanoutOk (s : State) (f : Fanout) : Bool :=
  match tfind s.cfg.regions f.region with
  | none => false
  | some x => x.shared && decide (x.gate ≤ 1) && (grantees x).contains f.producer && decide (2 ≤ (grantees x).length)

/-- Cells that the PARK groups may hold (R250). -/
def parkDemand (s : State) : Nat :=
  ((s.cfg.mcasts.filter (fun e => e.2.policy == .park)).map (fun e => e.2.parkCells * e.2.dests.length)).sum

def crossPool (s : State) (r : RawRec) (x : PoolRec) : Option Nat :=
  let runs := indexed r layPool 1 runAt
  let fans : List (Nat × Fanout) := indexed r layPool 0 (fun r o => { region := bval r o 2 0, producer := bval r (o + 2) 1 0 })
  let spill (u : Run) : Bool := u.firstLot / 4096 == x.spillChannel
    && decide (chanLots x x.spillChannel - x.spillLots < u.firstLot % 4096 + u.count)
  (firstBad [(x.spillChannel != 0xFF && !bitN x.chMask x.spillChannel, 10), (decide (x.spillLots * 245760 < parkDemand s), 11),
    (x.spillChannel != 0xFF && decide (chanLots x x.spillChannel < x.spillLots), 11)]).or <|
  (fans.findSome? (fun e => firstBad [((s.tenantRec e.2.producer).isNone, e.1 + 2), (!fanoutOk s e.2, e.1)])).or <|
  (runs.findSome? (fun e => firstBad [(!bitN x.chMask (e.2.firstLot / 4096), e.1), ((s.tenantRec e.2.tenant).isNone, e.1 + 4),
    (spill e.2, e.1), (!runRegions s e.2, e.1)])).or <|
  (pairClash runsMeet runs []).or (pairClash (slotsMeet s) (runs.map (fun e => (e.1 + 6, e.2))) [])

def crossCart (s : State) (am : Bool) (n : Nat) : Option Nat :=
  let addr (k : Nat) : Option Nat := (tfind s.cfg.slots k).map (fun x => x.idAddr)
  firstBad [((tfind s.cfg.slots n).isNone, 2), ((portOfSlot s n).isNone, 2),
    ((others am n s.cfg.carts).any (fun e => e.1 / 6 == n / 6 && addr e.1 == addr n), 2)]

def sameMembers (a b : List Nat) : Bool := a.all (b.contains ·) && b.all (a.contains ·)

def crossFabric (s : State) (r : RawRec) (x : FabricRec) : Option Nat :=
  let me := s.chipId
  let peers := x.peers.map (·.port)
  let roots := elemOffs r layFabric 1
  let member (c : Nat) : Bool := decide (c < 16) && x.chipMask.getLsbD c
  (firstBad [(!s.fabricMode, 8), (popN 16 x.chipMask.toNat != x.chipCount, 12), (!member me, 16), (!member x.rootChip, 13),
    ((x.treeParent == 0xFF) != (me == x.rootChip), 14), (x.treeParent != 0xFF && !peers.contains x.treeParent, 14),
    (decide (5 ≤ x.chipCount) && !x.ringEn, 15), (hasDup peers || !sameMembers peers (s.portNums.filter s.isFabric), 32)]).or
  ((List.range 32).findSome? (fun i =>
    let ms := tget [] x.routes i
    let o := 8 + roots.getD i 0
    firstBad [(!ms.all (peers.contains ·), o), (!ms.isEmpty && (i % 16 == me || !member (i % 16)), o)]))

/-- The owner slot that level 2 uses (R390). -/
def unlockSlot (x : LockRec) (keySlot : Nat) : Nat := if x.unlockKeySlot = 0xFF then keySlot else x.unlockKeySlot

def crossLock (s : State) (sv ks : Nat) (x : LockRec) : Option Nat :=
  let u := unlockSlot x ks
  let field := s.keys.lifecycle == 3
  let names (k : Nat) : Bool := decide (k < 4) && x.revokeMask.getLsbD k
  firstBad [(decide (sv < x.minSecVersion), 10), (!field && (names ks || names u), 11),
    (!field && x.bilinoEn && (tget {} s.keys.owner u).st != 1, 8)]

def crossSample (s : State) (x : SampleRec) : Option Nat :=
  let holds := match s.tenantRec x.tenant with | some u => u.vh == x.ringVh | none => false
  firstBad [((s.portRec x.port).isNone, 8), (x.payloadEn && ((s.vhRec x.ringVh).isNone || !holds), 15)]

def crossSlot (x : SlotRec) : Option Nat :=
  firstBad [(decide (x.faultTmrUs ≤ x.rampFaultUs), 8), (decide (x.feedWarnMv < x.feedUvMv + 200), 8)]

def crossReact (x : ReactRec) : Option Nat := firstBad [(hasDup (x.entries.map (·.kind)), 16)]

/-- CROSS_CHECK of a record. `sv` and `ks` are the ingot's SEC_VERSION and KEY_SLOT. -/
def crossErr (s : State) (am : Bool) (sv ks : Nat) (r : RawRec) : Option Nat :=
  match r.type with
  | 0x01 => crossDevice s
  | 0x03 => crossPort s am r.inst (readPort r)
  | 0x04 => crossVh s am r.inst (readVh r)
  | 0x05 => crossTenant s am r r.inst (readTenant r)
  | 0x06 => firstBad [((readGate r).default_ != 0 && r.inst != 2 && r.inst != 3, 8)]
  | 0x07 => crossRegion s am r.inst (readRegion r)
  | 0x08 => crossSched s am r r.inst (readSched r)
  | 0x09 => crossMcast s am r.inst (readMcast r)
  | 0x0A => crossPool s r (readPool r)
  | 0x0B => crossSlot (readSlot r)
  | 0x0C => crossCart s am r.inst
  | 0x0D => crossFabric s r (readFabric r)
  | 0x0F => crossReact (readReact r)
  | 0x10 => crossLock s sv ks (readLock r)
  | 0x12 => crossSample s (readSample r)
  | _ => none

/-! The configuration that records give. -/

/-- A record joins the configuration. -/
def readInto (c : Cfg) (r : RawRec) : Cfg :=
  match r.type with
  | 0x01 => { c with device := some (readDevice r) }
  | 0x02 => { c with stations := tput c.stations r.inst (readStation r) }
  | 0x03 => { c with ports := tput c.ports r.inst (readPort r) }
  | 0x04 => { c with vhs := tput c.vhs r.inst (readVh r) }
  | 0x05 => { c with tenants := tput c.tenants r.inst (readTenant r) }
  | 0x06 => { c with gates := tput c.gates r.inst (readGate r) }
  | 0x07 => { c with regions := tput c.regions r.inst (readRegion r) }
  | 0x08 => { c with scheds := tput c.scheds r.inst (readSched r) }
  | 0x09 => { c with mcasts := tput c.mcasts r.inst (readMcast r) }
  | 0x0A => { c with pool := some (readPool r) }
  | 0x0B => { c with slots := tput c.slots r.inst (readSlot r) }
  | 0x0C => { c with carts := tput c.carts r.inst (readCart r) }
  | 0x0D => { c with fabric := some (readFabric r) }
  | 0x0E => { c with time := some (readTime r) }
  | 0x0F => { c with react := some (readReact r) }
  | 0x10 => { c with lock := some (readLock r) }
  | 0x11 => { c with amend := some (readAmend r) }
  | 0x12 => { c with samples := tput c.samples r.inst (readSample r) }
  | _ => c

def readAll (l : List RawRec) : Cfg := l.foldl readInto {}

/-! The checks of a whole ingot (R52). -/

/-- The place of a record in the order of R45. -/
def recKey (r : RawRec) : Nat := 65536 * r.type + r.inst

/-- The index of the first record that `f` fails, with its type. -/
def firstRec (f : RawRec → Bool) (l : List RawRec) : Option (Nat × Nat) :=
  (l.zipIdx.find? (fun e => f e.1)).map (fun e => (e.2, e.1.type))

/-- Records out of order, or twice: the index of the first that does not rise above its predecessor. -/
def orderErr : List RawRec → Nat → Option (Nat × Nat)
  | a :: b :: t, i => if recKey b ≤ recKey a then some (i + 1, b.type) else orderErr (b :: t) (i + 1)
  | _, _ => none

/-- RECORD_FORM of the records of an ingot; a wrong length or number is laid to the last one. -/
def formErrs (l : List RawRec) (walked : Bool) : Option (Nat × Nat) :=
  (firstRec (fun r => match layoutOf r.type with | some y => (formErr r y).isSome | none => r.version != 1 || !r.lenOk || !r.padOk) l).or <|
  (orderErr l 0).or (if walked then none else some (l.length - 1, (l.getLast?.map (·.type)).getD 0))

/-- Record `e` is of an unknown type, or one more of its type than Table 2.3 allows. -/
def countBad (l : List RawRec) (e : RawRec × Nat) : Bool :=
  match layoutOf e.1.type with
  | none => true
  | some y => decide (y.maxCount ≤ (l.take e.2).countP (fun r => r.type == e.1.type))

/-- RECORD_COUNT: an unknown type, or a count outside Table 2.3. -/
def countErrs (l : List RawRec) : Option (Nat × Nat) :=
  ((l.zipIdx.find? (countBad l)).map (fun e => (e.2, e.1.type))).or
  ((List.range 19).findSome? (fun t =>
    match layoutOf t with
    | none => none
    | some y => if l.countP (fun r => r.type == t) < y.minCount then some (0, t) else none))

/-- The first failing check of the records: its code of Table 2.6, the record's index and type. -/
def recordErrs (s : State) (h : IngotHeader) (l : List RawRec) (walked : Bool) : Option (Nat × Nat × Nat) :=
  let c := { s with cfg := readAll l }
  ((formErrs l walked).map (fun e => (0x0A, e))).or <|
  ((countErrs l).map (fun e => (0x0B, e))).or <|
  ((firstRec (fun r => match layoutOf r.type with | some y => (rangeErr c r y).isSome | none => false) l).map (fun e => (0x0C, e))).or
  ((firstRec (fun r => (crossErr c false h.secVersion h.keySlot r).isSome) l).map (fun e => (0x0D, e)))

end Sys2Proof.Machine
end

