-- ==== Sys2Proof/Machine/Ingot.lean ====
section
/-! DEFINITION. Fetching, verifying and applying an ingot (R38 to R55). -/

namespace Sys2Proof.Machine

/-! The flash (R38, R39). -/

/-- The bytes `l` that stand from `a` on, with those of an extent written over them. -/
def overlay (l : List Byte) (a : Nat) (e : Nat × List Byte) : List Byte :=
  if e.1 + e.2.length ≤ a ∨ a + l.length ≤ e.1 then l
  else
    let fresh := (e.2.drop (a - e.1)).take (a + l.length - max a e.1)
    l.take (e.1 - a) ++ fresh ++ l.drop (e.1 - a + fresh.length)

/-- `n` bytes of the flash from offset `a`; an erased byte reads as all ones (R51). -/
def flashBytes (img : FlashSlot) (a n : Nat) : List Byte := img.extents.foldl (fun l e => overlay l a e) (List.replicate n 0xFF)

/-- Slot A begins at 0, slot B at half the density (R39). -/
def slotBase (img : FlashSlot) (i : Nat) : Nat := if i = 0 then 0 else img.density / 2

/-- A 48-byte big-endian integer (R41). -/
def be48 (l : List Byte) (o : Nat) : Nat := leNat ((l.drop o).take 48).reverse

/-- The header that 512 bytes spell (Table 2.1). -/
def readHeader (b : List Byte) : IngotHeader :=
  { magic := leAt b 0 4, format := leAt b 4 2, headerLen := leAt b 6 2, totalLen := leAt b 8 4, secVersion := leAt b 0x0C 4,
    seq := w32 (leAt b 0x10 4), deviceId := leAt b 0x14 4, fwOffset := leAt b 0x18 4, fwLen := leAt b 0x1C 4, recOffset := leAt b 0x20 4,
    recLen := leAt b 0x24 4, recCount := leAt b 0x28 2, xspiProfile := leAt b 0x2A 1, keySlot := leAt b 0x2B 1,
    buildId := (b.drop 0x30).take 32, sigR := be48 b 0x180, sigS := be48 b 0x1B0,
    rsvdZero := ((b.drop 0x2C).take 4 ++ (b.drop 0x50).take 304 ++ (b.drop 0x1E0).take 32).all (· == 0) }

/-- The header of slot `i`. -/
def slotHeader (img : FlashSlot) (i : Nat) : IngotHeader := readHeader (flashBytes img (slotBase img i) 512)

/-- The ingot of slot `i`, from its offset 0 to TOTAL_LEN. -/
def slotImage (img : FlashSlot) (i : Nat) : List Byte := flashBytes img (slotBase img i) (slotHeader img i).totalLen

/-- The two ranges that the owner signs (R42). -/
def ownerRanges (h : IngotHeader) (b : List Byte) : List Byte := b.take 0x180 ++ b.drop h.headerLen

/-- The firmware image with its vendor signature (Table 2.1). -/
def firmware (h : IngotHeader) (b : List Byte) : List Byte := (b.drop h.fwOffset).take h.fwLen

/-- The bytes of the firmware image that its last 96 bytes sign (R43). -/
def firmwareSigned (h : IngotHeader) (b : List Byte) : List Byte := (firmware h b).take (h.fwLen - 96)

/-- The signature (r, s) verifies under `key` over `msg`: its holder has made it (log entry 15). -/
def sigOk (img : FlashSlot) (r s key : Nat) (msg : List Byte) : Bool :=
  img.made.any (fun x => x.r == r && x.s == s && x.signer == key && x.msg == msg)

/-- The vendor's signature over the firmware (R43). -/
def firmwareOk (s : State) (img : FlashSlot) (h : IngotHeader) (b : List Byte) : Bool :=
  let tail := (firmware h b).drop (h.fwLen - 96)
  sigOk img (be48 tail 0) (be48 tail 48) s.keys.vendorKey (firmwareSigned h b)

/-! The header checks (Table 2.6, 0x01 to 0x09). -/

/-- The greatest TOTAL_LEN of a slot: half the density, or 16 MiB (R39). -/
def slotBytes (img : FlashSlot) : Nat := min (img.density / 2) 0x1000000

/-- LENGTH: fields inconsistent, misaligned or beyond the slot. -/
def lengthBad (img : FlashSlot) (h : IngotHeader) : Bool :=
  decide (slotBytes img < h.totalLen) || h.fwOffset % 4096 != 0 || decide (h.fwOffset < h.headerLen) || decide (h.fwLen < 96)
    || decide (0x180000 < h.fwLen) || h.recOffset % 8 != 0 || decide (h.recOffset < h.fwOffset + h.fwLen)
    || h.recOffset + h.recLen != h.totalLen || h.recCount == 0 || decide (18241 < h.recCount)

/-- A VALID owner slot. -/
def ownerKeyValid (k : KeyStore) (i : Nat) : Bool := decide (i < 4) && (tget {} k.owner i).st == 1

/-- KEY_SLOT names the key that verifies (R42, R387). -/
def keySlotOk (k : KeyStore) (i : Nat) : Bool := if k.lifecycle = 3 then i == 0xFF else ownerKeyValid k i

/-- The key that an owner signature must verify under. -/
def ownerKey (k : KeyStore) (i : Nat) : Nat := if k.lifecycle = 3 then k.vendorKey else (tget {} k.owner i).key

/-- The first header or signature check that slot `i` fails. -/
def headerErr (s : State) (img : FlashSlot) (i : Nat) : Option Nat :=
  let h := slotHeader img i
  let b := slotImage img i
  firstBad [(decide (3 ≤ img.readFailures), 0x01), (h.magic != 0x47494B59, 0x02),
    (h.format != 1 || h.headerLen != 0x200 || !h.rsvdZero || decide (3 < h.xspiProfile), 0x03), (h.deviceId != 0x160, 0x04),
    (lengthBad img h, 0x05), (decide (h.secVersion < s.keys.minSec), 0x06), (!keySlotOk s.keys h.keySlot, 0x07),
    (!sigOk img h.sigR h.sigS (ownerKey s.keys h.keySlot) (ownerRanges h b), 0x08), (!firmwareOk s img h b, 0x09)]

/-- The records of slot `i`, with whether the walk over them ends where REC_OFFSET + REC_LEN does. -/
def slotRecords (img : FlashSlot) (i : Nat) : List RawRec × Bool :=
  let h := slotHeader img i
  let b := ((slotImage img i).drop h.recOffset).take h.recLen
  walkRecs (b.length / 8 + 1) b

/-- The walk over the records ends where REC_LEN and REC_COUNT say. -/
def walkOk (img : FlashSlot) (i : Nat) : Bool :=
  (slotRecords img i).2 && (slotRecords img i).1.length == (slotHeader img i).recCount

/-- The ING_CAUSE word of slot `i` where it fails, none where it passes every check (R52). -/
def slotErr (s : State) (img : FlashSlot) (i : Nat) : Option W32 :=
  match headerErr s img i with
  | some c => some (w32 c)
  | none => (recordErrs s (slotHeader img i) (slotRecords img i).1 (walkOk img i)).map (fun e => w32 (fld e.2.1 16 16 + fld e.2.2 8 8 + e.1))

/-- ING_CAUSE[i] is written. -/
def setCause (s : State) (i : Nat) (w : W32) : State := if i = 0 then { s with ingCause0 := w } else { s with ingCause1 := w }

/-- INGOT_SLOT_FETCH (R51 to R53): the slot whose turn it is passes, or fails with its code. -/
def fetchSlot (s : State) (img : FlashSlot) : State :=
  let i := s.fetchStep
  match slotErr s img i with
  | none =>
    let h := slotHeader img i
    let b := slotImage img i
    { setCause s i 0 with
      verified := some (i, h, (slotRecords img i).1), fetchStep := 2, xspi := false,
      sec := { s.sec with fwDigest := sha384 (firmware h b), ownDigest := sha384 (ownerRanges h b) } }
  | some w =>
    let s := setCause s i w
    if i = 0 then { s with fetchStep := 1, xspi := true }
    else { s with fetchStep := 2, xspi := false, faultN := true, modeCause := 1 }

def execIngotSlotFetch (img : FlashSlot) (s : State) : Host.Outcome State Fault Refusal :=
  .next (if s.mode = .load ∧ s.fetchStep < 2 ∧ s.verified.isNone then fetchSlot s img else s)

/-! Applying (R54). -/

/-- The order of R54: the step at which a record type is applied. -/
def applyRank (t : Nat) : Nat :=
  [0x01, 0x10, 0x0F, 0x0E, 0x02, 0x03, 0x04, 0x05, 0x06, 0x07, 0x0A, 0x08, 0x09, 0x12, 0x0B, 0x0C, 0x0D, 0x11].idxOf t

/-- The records that are applied before record `i` meets an error. -/
def appliedBefore (l : List RawRec) (i : Nat) : List RawRec :=
  match l[i]? with
  | none => l
  | some r => l.zipIdx.filterMap (fun e =>
      if applyRank e.1.type < applyRank r.type ∨ (e.1.type = r.type ∧ e.2 < i) then some e.1 else none)

/-- The safe action of slot `n` goes to the slot power die: 1 cut, 0 hold (R34, R54). -/
def sendSafe (s : State) (safe : BitVec 24) (n : Nat) : State :=
  sendCfg s n 63 (if safe.getLsbD n then 1 else 0)

/-- A shaper as it stands at Load: full (R169). -/
def shaperAtLoad (p : Nat) (e : ShaperEntry) : Shaper :=
  { port := p, scope := e.scope, tc := e.tc, owner := e.owner, rate := e.rate, nextRate := e.rate, burst := e.burst, tok := tokens e.burst }

/-- The gate list of a SCHED record, none where GCL_COUNT is 0. -/
def listOf (r : SchedRec) : Option GateList :=
  if r.gcl.isEmpty then none else some { gcl := r.gcl, cycle := r.cycleNs, base := r.baseTime }

def loadShapers (c : Cfg) : Tbl Shaper :=
  (c.scheds.flatMap (fun e => e.2.shapers.map (fun x => (x.id, shaperAtLoad e.1 x)))).foldl (fun a x => tput a x.1 x.2) []

/-- The policers with full buckets (R171, R172). -/
def loadPolicers (c : Cfg) : Tbl Policer :=
  (policerEntries c).zipIdx.map (fun e =>
    (e.2, { tenant := e.1.1, entry := e.1.2.1, p := e.1.2.2.pbs * 65536, c := e.1.2.2.cbs * 65536 }))

/-- A group as its MCAST record gives it. -/
def loadGroups (c : Cfg) : Tbl Group :=
  c.mcasts.foldl (fun a e => tset {} a e.1 { members := e.2.members }) []

/-- The gate lists of the SCHED records, in operation from Load. -/
def loadLists (s : State) : State :=
  s.cfg.scheds.foldl (fun a e => a.modSched e.1 (fun q =>
    { q with oper := listOf e.2, entry := match listOf e.2 with | some g => entryAt g a.now | none => 0 })) s

/-- A VOUT write goes out on the AVSBus. -/
def avsWrite (s : State) (v : Nat) : State :=
  (s.modAssay (fun a => { a with written := v, avsWait := true, avsTries := 0, avsSent := s.clock })).emit (.avs v)

/-- The records take force. With the DEVICE record goes the first AVSBus write, of AVS_VMAX_MV (R421). -/
def applyRecords (s : State) (h : IngotHeader) (l : List RawRec) : State :=
  let c := readAll l
  let s := { s with
    cfg := c, records := l,
    loadPorts := c.tenants.flatMap (fun t => t.2.cls.map (fun e => (t.1, e.port))),
    i3c := { s.i3c with static_ := match c.device with | some d => d.i3cAddr | none => s.i3c.static_ },
    cupel := { s.cupel with masks := c.react.isSome },
    sec := { s.sec with secVersion := h.secVersion, keySlot := h.keySlot, chain := List.replicate 48 0 },
    shapers := loadShapers c, policers := loadPolicers c, groups := loadGroups c }
  let s := match c.device with
    | some d => avsWrite (s.modAssay (fun a => { a with vreq := d.avsVmax })) d.avsVmax
    | none => s
  let s := loadLists s
  let s := match c.react with
    | some r => (List.range 24).foldl (fun a n => sendSafe a r.slotSafe n) s
    | none => s
  c.slots.foldl (fun a e => sendSlotCfg a e.1 e.2) s

/-- INGOT_APPLY: the verified ingot takes force and Assay begins, or record `hwError` meets a hardware error (R54), after which nothing is
left to fetch or to apply before a reset. -/
def execIngotApply (hwError : Option Nat) (s : State) : Host.Outcome State Fault Refusal :=
  .next (match s.verified with
    | none => s
    | some (_, h, l) =>
      if s.mode ≠ .load ∨ s.ingotLive then s
      else match hwError with
        | none => setMode { applyRecords s h l with ingotLive := true } .assay 0
        | some i =>
          report { applyRecords s h (appliedBefore l i) with verified := none, fetchStep := 3 } 0x0C 0 0x11 none 0x7F
            (some (((l[i]?).map (·.type)).getD 0 + 256 * i)))

end Sys2Proof.Machine
end

