-- ==== Sys2Proof/Machine/Assay.lean ====
section
/-! DEFINITION. The Assay sequencer, entry to Run, the runtime Assay and the adaptive voltage loop (R55, R57, R376 to R383,
R389). -/

namespace Sys2Proof.Machine

/-! Results (Tables 13.5, 13.13). -/

/-- The ASY index of a block: slot power die parts share 34. -/
def asyIndex (b : AssayBlock) : Nat :=
  match b with
  | .station i => i.val
  | .crossbar => 10
  | .crucible => 11
  | .housekeeping => 12
  | .timeBase => 13
  | .bank k => 16 + k.val
  | .channel c => 32 + c.val
  | .converter _ => 34
  | .gateDriver _ _ => 34
  | .powerDie => 34

/-- The coverage of a block's test (Table 13.5): 1 FULL, 2 CHECK, 3 ANALOGUE. -/
def coverageOf (b : AssayBlock) : Nat :=
  match b with
  | .timeBase => 2
  | .channel _ => 3
  | .converter _ => 3
  | .gateDriver _ _ => 3
  | .powerDie => 3
  | _ => 1

/-- ASY_RES[i].RESULT: 0 not tested, 1 pass, 2 fail, 3 aborted. -/
def resultOf (s : State) (i : Nat) : Nat := bitsN (s.reg (offAsy (0x100 + 4 * i))).toNat 30 2

def tested (s : State) (i : Nat) : Bool := resultOf s i != 0

/-- Bits [23:0] of the two gate driver registers: a driver has failed. -/
def driversFailed (s : State) : Bool := s.reg (offAsy 4) != 0 || s.reg (offAsy 8) != 0

/-- The outcome of a block's test. The converter fails where its bandgap readings differ by more than 2 % (200 steps of 0.01 %), and the
slot power die as a whole where its converter or a gate driver has failed (R378, R380). -/
def outcomeOf (s : State) (b : AssayBlock) (o : AssayOutcome) : AssayOutcome :=
  match b with
  | .converter d => { o with pass := decide (-200 ≤ d.toInt ∧ d.toInt ≤ 200) }
  | .powerDie =>
    let adc := (s.slot 0).converterBad
    { o with pass := !adc && !driversFailed s, test := if adc then 7 else 8 }
  | _ => o

def writeRes (s : State) (b : AssayBlock) (o : AssayOutcome) : State :=
  setRes s (asyIndex b) (if o.pass then 1 else 2) (coverageOf b) (if o.pass then 0 else o.test)
    (match b, o.lane with | .station _, some j => j | _, _ => 0) o.duration

/-- A failing block that is not essential is reported with its ASY index; an essential one Quenches (R380). -/
def assayFail (s : State) (i : Nat) : State := report s 0x0C i 0x08
def assayEssential (s : State) (i : Nat) : State := report s 0x0C i 0x09

/-! The outcome of one block (Table 13.7). -/

/-- A station passes: it is loaded, and its upstream ports begin training (R57). In Run its other ports train too. -/
def stationPass (s : State) (i : Nat) : State :=
  let s := { s with unusable := s.unusable &&& ~~~ BitVec.ofNat 10 (2 ^ i) }
  let s := s.modStation i (fun x => { x with passed := true, pllLock := 15 })
  (s.portNums.filter (fun p => stationOf p == i)).foldl
    (fun a p => if (a.isUp p || a.inRunModes) && (a.port p).contain.phase == 0 && !(a.port p).link.dlUp then beginTraining a p else a) s

/-- A station fails: it is unusable, its ports never train, and those in service become contained. -/
def stationFail (s : State) (i : Nat) : State :=
  let s := s.modStation i (fun x => { x with passed := false })
  if s.mode = .assay then { s with unusable := s.unusable ||| BitVec.ofNat 10 (2 ^ i) } else stationUnusable s i

/-- Buffer banks that have failed. -/
def banksFailed (s : State) : Nat := (List.range 16).countP (fun k => resultOf s (16 + k) == 2)

/-- A buffer bank fails, as its result says already: one is mapped out, a second counts as a failure of the crossbar. -/
def bankFail (s : State) (k : Nat) : State :=
  if banksFailed s ≤ 1 then assayFail { s with banksOut := BitVec.ofNat 16 (2 ^ k) } (16 + k) else assayEssential s 10

def blockFail (s : State) (b : AssayBlock) : State :=
  match b with
  | .station i => assayFail (stationFail s i) i
  | .crossbar => assayEssential s 10
  | .housekeeping => assayEssential s 12
  | .timeBase => assayEssential s 13
  | .crucible => loseChannel (loseChannel (assayFail s 11) 0 5) 1 5
  | .bank k => bankFail s k.val
  | .channel c => loseChannel (assayFail s (32 + c.val)) c 5
  | .converter _ => assayFail ((List.range 24).foldl (fun a n => sendFeeds (a.modSlot n (fun x => { x with converterBad := true })) n) s) 34
  | .gateDriver n false => assayFail ((sendFeeds (s.modSlot n (fun x => { x with usedA := false })) n).setEvt (offAsy 4) n) 34
  | .gateDriver n true => assayFail ((sendFeeds (s.modSlot n (fun x => { x with usedB := false })) n).setEvt (offAsy 8) n) 34
  | .powerDie => s

def blockPass (s : State) (b : AssayBlock) : State :=
  match b with
  | .station i => stationPass s i
  | .housekeeping => { s.modAssay (fun a => { a with wdogFrom := s.clock }) with hkRunning := true }
  | _ => s

/-- Internal initialisation begins as the last of the crossbar, the time base and the Crucible controller ends (R55). DESIGN CHOICE: the
buffer and the tracker are cleared as it begins, before any station is tested and any port can train (log entry 83). -/
def startInit (s : State) : State :=
  if s.assay.initFrom.isNone && tested s 10 && tested s 11 && tested s 13 then
    clearBuffer (s.modAssay (fun a => { a with initFrom := some s.clock }))
  else s

/-! The sequence (R379). -/

/-- The stations to be tested, those with an upstream port first. -/
def stationOrder (s : State) : List Nat :=
  let l := s.cfg.stations.map (·.1)
  let up (i : Nat) : Bool := s.portNums.any (fun p => stationOf p == i && s.isUp p)
  l.filter up ++ l.filter (fun i => !up i)

/-- The blocks of the second step have ended. -/
def secondStepDone (s : State) : Bool :=
  ([10, 11, 13, 34] ++ (List.range 16).map (16 + ·)).all (tested s)
    && [0, 1].all (fun c => !(match s.cfg.pool with | some r => bitN r.chMask c | none => false) || tested s (32 + c))

/-- A block is under test: the housekeeping controller first, then the second step, then the stations of the present pair. A channel that
CH_MASK does not name is never driven (R226). -/
def underTest (s : State) (b : AssayBlock) : Bool :=
  match b with
  | .station i => s.assay.testing.contains i.val && decide (s.assay.pairFrom ≤ s.clock)
  | .housekeeping => !tested s 12
  | .channel c => resultOf s 12 == 1 && bitN (poolRec s).chMask c.val && !tested s (32 + c.val)
  | .converter _ => resultOf s 12 == 1 && !tested s 34
  | .gateDriver _ _ => resultOf s 12 == 1 && !tested s 34
  | .crossbar => resultOf s 12 == 1 && !tested s 10
  | .crucible => resultOf s 12 == 1 && !tested s 11
  | .timeBase => resultOf s 12 == 1 && !tested s 13
  | .bank k => resultOf s 12 == 1 && !tested s (16 + k.val)
  | .powerDie => resultOf s 12 == 1 && !tested s 34

/-- The result of a part of the slot power die is kept with its other registers; its ASY_RES is written once, at its end. -/
def noteResult (s : State) (b : AssayBlock) (o : AssayOutcome) : State :=
  match b with
  | .converter d => s.setReg (offAsy 0x0C) (w32 d.toNat)
  | .gateDriver _ _ => s
  | _ => writeRes s b o

def execAssayBlockDone (b : AssayBlock) (o : AssayOutcome) (s : State) : Host.Outcome State Fault Refusal :=
  .next (if s.mode = .assay ∧ underTest s b then
      let o := outcomeOf s b o
      let s := s.modAssay (fun a => { a with testing := a.testing.filter (fun i => i != asyIndex b) })
      let s := noteResult s b o
      startInit (if o.pass then blockPass s b else blockFail s b)
    else s)

/-- ASSAY_STATION_PAIR_START: the next two stations of the order that have no result yet; their tests begin after the 1.1 ms of settling
(R379). -/
def execAssayStationPairStart (s : State) : Host.Outcome State Fault Refusal :=
  .next (if s.mode = .assay ∧ s.assay.testing = [] ∧ secondStepDone s then
      s.modAssay (fun a => { a with pairFrom := s.clock + 1100000, testing := ((stationOrder s).filter (fun i => !tested s i)).take 2 })
    else s)

/-- INTERNAL_INIT_DONE, 10 ms after it began (R55). What upstream ports have been answered meanwhile stays on its way (R11). -/
def execInternalInitDone (s : State) : Host.Outcome State Fault Refusal :=
  .next (match s.assay.initFrom with
    | some t =>
      if s.mode = .assay ∧ !s.assay.initDone ∧ t + 10000000 ≤ s.clock then s.modAssay (fun a => { a with initDone := true })
      else s
    | none => s)

/-! Entry to Run or Degraded. -/

/-- WANT is set where AUTO_ON is set (chapter 12). -/
def wantAuto (s : State) : State :=
  s.cfg.slots.foldl (fun a e => if e.2.autoOn then a.modSlot e.1 (fun x => { x with want := true }) else a) s

/-- The slot that the ingot runs from: some true for B. -/
def fromSlotB (s : State) : Bool := match s.verified with | some (1, _, _) => true | _ => false

/-- The device enters Run or Degraded from Assay: ports train, slots are wanted, burns are due (R53, R57, R257, R389). -/
def enterRun (s : State) : State :=
  let s := if degradedMask s = 0 then setMode s .run 2 else setMode s .degraded 3
  let s := s.modFab (fun f => { f with runSince := some s.clock, joinOver := false, ringSince := s.clock, ringOut := if ringOn s && f.ringOut == 2 then 0 else f.ringOut })
  let s := (s.portNums.filter (fun p => !s.isUp p)).foldl
    (fun a p => if (a.station (stationOf p)).passed then beginTraining a p else a) s
  let s := wantAuto s
  let s := if fromSlotB s then report s 0x0C 0 0x0A else s
  let s := match s.fab.ringIn with | some x => ringChange s x | none => s
  updatePins (s.modSec (fun x => { x with burnsDue := true }))

/-- No essential block has failed (Table 13.7). -/
def essentialOk (s : State) : Bool := [10, 12, 13].all (fun i => resultOf s i == 1) && decide (banksFailed s ≤ 1)

/-- Initialisation and the last station test have ended (R55). -/
def assayOver (s : State) : Bool :=
  s.assay.initDone && s.assay.testing.isEmpty && secondStepDone s && (stationOrder s).all (tested s)

/-- ASSAY_END: the thresholds are set from the cell count that Assay has left (R26). -/
def execAssayEnd (s : State) : Host.Outcome State Fault Refusal :=
  .next (if s.mode = .assay ∧ assayOver s ∧ essentialOk s then enterRun (setThresholds s) else s)

/-! Runtime Assay (R381 to R383). -/

/-- The response of ASSAY_STATION (Table 13.9). -/
def assayResponse (result test coverage lane us : Nat) : List Byte :=
  leBytes 4 (result + 256 * (test + 256 * (coverage + 256 * lane))) ++ leBytes 4 us ++ leBytes 4 0

/-- The station is fenced and reset: every descriptor toward its ports is gone, and its links are down (R382 steps 1, 2). -/
def fenceStation (s : State) (i : Nat) : State :=
  let ps := s.portNums.filter (fun p => stationOf p == i)
  let s := ps.foldl (fun a p => if (a.port p).contain.phase = 1 then containFinish a p else a) s
  let s := ps.foldl (fun a p => dlDown (a.modLink p (fun l => { l with excused := true })) p) s
  (s.setStation i {}).modAssay (fun a => { a with lastRun := i })

/-- The test of station `i` ends: it is loaded from the image, or unusable; the command answers. -/
def runtimeDone (s : State) (i : Nat) (b : AssayBlock) (o : AssayOutcome) (path : Path) (seq : Byte) : State :=
  let s := (writeRes s b o).bump (offAsy 0x10)
  let s := if o.pass then recoverMode (stationPass s i) else assayFail (stationFail s i) i
  respondTo s path seq stOk (assayResponse (if o.pass then 1 else 2) (if o.pass then 0 else o.test) 1 (o.lane.getD 0xFF) o.duration)

/-- ASSAY_STATION_HANG: a test still running at 20 ms is abandoned (R382). -/
def execAssayStationHang (s : State) : Host.Outcome State Fault Refusal :=
  .next (match s.assay.runtime, s.mbx.active with
    | some i, some x =>
      if s.clock < s.assay.runSince + 20000000 then s
      else
        let s := setRes (s.modAssay (fun a => { a with runtime := none })) i 2 1 0xA 0 20000
        respondTo (assayFail (stationFail s i) i) x.path x.seq stTimeout (assayResponse 2 0xA 1 0xFF 20000)
    | _, _ => s)

/-! The adaptive voltage loop (R376). -/

/-- The loop is frozen in Load, Assay and a runtime Assay (Table 13.3). -/
def avsFrozen (s : State) : Bool := s.mode == .reset || s.mode == .load || s.mode == .assay || s.assay.runtime.isSome

def avsMin (s : State) : Nat := match s.cfg.device with | some d => d.avsVmin | none => 700
def avsMax (s : State) : Nat := match s.cfg.device with | some d => d.avsVmax | none => 850

/-- The clock of island `i` runs: a station's while it is in use and not stopped (R96). -/
def islandRuns (s : State) (i : Nat) : Bool :=
  if i < 10 then (tfind s.cfg.stations i).isSome && !(s.station i).clockOff else true

/-- The smallest slack of the islands whose clocks run, and the slacks as ANL_CPM shows them. -/
def slackOf (s : State) (l : List Nat) (i : Nat) : Nat := if islandRuns s i then l.getD i 0 else 0

def minSlack (s : State) (l : List Nat) : Nat :=
  (((List.range 14).filter (islandRuns s)).map (fun i => l.getD i 0)).foldl min 255

/-- The request after one period. In the power-up Assay a retention pause holds AVS_VMIN_MV (R376, R378); which periods fall into one is
free. -/
def avsNext (s : State) (slack high : Nat) : Nat :=
  let v := s.assay.vreq
  if s.assay.avsFail then avsMax s
  else if s.mode = .assay ∧ Config.retentionPause s.clock = true then avsMin s
  else if avsFrozen s then avsMax s
  else if slack < 4 then min (avsMax s) (v + 10)
  else if 8 ≤ high then max (avsMin s) (v - 5) else v

/-- AVS_TICK, every 100 µs. A failed loop sends AVS_VMAX_MV at every period. -/
def execAvsTick (slacks : List Nat) (s : State) : Host.Outcome State Fault Refusal :=
  .next (if s.mode = .reset ∨ s.clock < s.assay.avsNext then s
    else
      let k := minSlack s slacks
      let high := if 10 < k ∧ !avsFrozen s then s.assay.highRun + 1 else 0
      let v := avsNext s k high
      let s := s.setRegs (offAnl 0x100) ((List.range 14).map (slackOf s slacks))
      let s := s.modAssay (fun a => { a with slack := k, highRun := min high 8, vreq := v, avsNext := s.clock + 100000 })
      if v ≠ s.assay.written ∨ s.assay.avsFail then avsWrite s v else s)

/-- AVS_RETRY: a write is acknowledged, or 10 µs after it sent again, up to three times, and AVS_FAIL comes after the fourth failure. -/
def execAvsRetry (acked : Bool) (s : State) : Host.Outcome State Fault Refusal :=
  .next (if !s.assay.avsWait then s
    else if acked then s.modAssay (fun a => { a with avsWait := false, avsFail := false })
    else if s.clock < s.assay.avsSent + 10000 then s
    else if s.assay.avsTries < 3 then
      ((s.modAssay (fun a => { a with avsTries := a.avsTries + 1, avsSent := s.clock })).bump (offAnl 0x08)).emit (.avs s.assay.written)
    else if s.assay.avsFail then s.modAssay (fun a => { a with avsWait := false })
    else report ((s.modAssay (fun a => { a with avsWait := false, avsFail := true })).setEvt (offAnl 0x04) 0) 0x0D 0 0x0E)

end Sys2Proof.Machine
end

