-- ==== Sys2Proof/Machine/Amend.lean ====
section
/-! DEFINITION. Amending a record in force: the comparison, the checks, the commit, and records sent in parts (R71 to R74,
R170, R179, R235, R271). -/

namespace Sys2Proof.Machine

/-! The record in force (R73). -/

/-- Bytes of a block replaced from offset `o` on. -/
def setBytes (l : List Byte) (o : Nat) (b : List Byte) : List Byte := l.take o ++ b ++ l.drop (o + b.length)

/-- A SCHED record with every BUCKET_SET 0, as the device stores it (R170). -/
def clearBuckets (r : RawRec) : RawRec :=
  if r.type = 0x08 then { r with basic := (elemOffs r laySched 1).foldl (fun b o => setBytes b (o + 6) [0]) r.basic } else r

/-- A record as it is in force: BUCKET_SET 0, and MEMBERS as commands and hosts have left it (R145). -/
def inForce (s : State) (r : RawRec) : RawRec :=
  let r := clearBuckets r
  if r.type = 0x09 then { r with basic := setBytes r.basic 8 (leBytes 8 (s.group r.inst).members.toNat) } else r

def currentRec (s : State) (r : RawRec) : Option RawRec := (s.records.find? (fun x => recKey x == recKey r)).map (inForce s)

/-- The records with `r` in its place. -/
def putRec : List RawRec → RawRec → List RawRec
  | [], r => [r]
  | x :: t, r => if recKey r < recKey x then r :: x :: t else if recKey r = recKey x then r :: t else x :: putRec t r

/-! Changed fields, each with its offset and the grant class that covers it. -/

/-- A field of the basic block is as it is in force, or as its default. -/
def sameFld (old : Option RawRec) (r : RawRec) (f : Fld) : Bool :=
  match old with
  | some q => fldVal q f == fldVal r f
  | none => f.dflt != .req && fldVal r f == dfltVal r f.dflt

def basicChanges (old : Option RawRec) (r : RawRec) (l : Layout) : List (Nat × Option Grant) :=
  l.flds.filterMap (fun f => if sameFld old r f then none else some (8 + f.off, f.grant))

/-- The changes of one entry; `at_` is where the same entry stands in the record in force. -/
def elemChanges (old : Option RawRec) (r : RawRec) (a : Arr) (o : Nat) (at_ : Option Nat) : List (Nat × Option Grant) :=
  a.flds.filterMap (fun f =>
    let same : Bool := match old, at_ with
      | some q, some x => bval q (x + f.off) f.size 0 == bval r (o + f.off) f.size 0
      | _, _ => false
    if same then none else some (8 + o + f.off, f.grant))

/-- The changes of array `k`: entries are compared by their number, wherever they stand (R179). -/
def arrChanges (old : Option RawRec) (r : RawRec) (l : Layout) (k : Nat) : List (Nat × Option Grant) :=
  match l.arrs[k]? with
  | none => []
  | some a =>
    let before := match old with | some q => elemOffs q l k | none => []
    (elemOffs r l k).zipIdx.flatMap (fun e => elemChanges old r a e.1 before[e.2]?)

def expertChanges (old : Option RawRec) (r : RawRec) (l : Layout) : List (Nat × Option Grant) :=
  let q := old.getD { type := r.type }
  let o := 8 + r.basic.length
  (if leAt r.expert 0 4 = leAt q.expert 0 4 then [] else [(o, none)])
    ++ l.xflds.filterMap (fun f =>
      if overrides r f.num ∧ leAt r.expert f.off f.size ≠ leAt q.expert f.off f.size then some (o + f.off, none) else none)

/-- Types that R72 never lets change, an instance of which no amendment brings into force. -/
def fixedType (t : Nat) : Bool := [0x01, 0x02, 0x03, 0x04, 0x06, 0x07, 0x0B, 0x0C, 0x0E, 0x0F, 0x10, 0x11, 0x12].contains t

/-- Every changed field of `r`. -/
def changes (s : State) (r : RawRec) (l : Layout) : List (Nat × Option Grant) :=
  let old := currentRec s r
  (if old.isNone && fixedType r.type then [(8, none)] else [])
    ++ basicChanges old r l ++ (List.range l.arrs.length).flatMap (arrChanges old r l) ++ expertChanges old r l

/-! Runs of lots (R235). -/

/-- The owner and slot that a list of runs gives a lot. -/
def lotUnder (l : List Run) (n : Nat) : Nat × Nat :=
  match l.find? (fun r => decide (r.firstLot ≤ n) && decide (n < r.firstLot + r.count)) with
  | some r => (r.tenant, r.firstSlot + (n - r.firstLot))
  | none => (0x1FF, 0)

/-- Lots whose owner or slot differs. -/
def movedLots (a b : List Run) : List Nat := (List.range 8192).filter (fun n => lotUnder a n != lotUnder b n)

/-- The runs of a POOL record with their offsets. -/
def runsAt (r : RawRec) : List (Nat × Run) := indexed r layPool 1 runAt

/-- The run that gives lot `n` an owner, with its offset. -/
def runOfLot (l : List (Nat × Run)) (n : Nat) : Option (Nat × Run) :=
  l.find? (fun e => decide (e.2.firstLot ≤ n) && decide (n < e.2.firstLot + e.2.count))

/-- The first run that names tenant `t`, or that held lot `n`. -/
def runOffset (old new : List (Nat × Run)) (t n : Nat) : Nat :=
  match new.find? (fun e => e.2.tenant == t) with
  | some e => e.1
  | none => ((runOfLot old n).map (·.1)).getD 8

/-- The offset of a run that no LOT_ASSIGN grant covers. -/
def deniedLot (s : State) (old new : List (Nat × Run)) : Option Nat :=
  (movedLots (old.map (·.2)) (new.map (·.2))).findSome? (fun n =>
    [(lotUnder (old.map (·.2)) n).1, (lotUnder (new.map (·.2)) n).1].findSome? (fun t =>
      if t = 0x1FF ∨ granted s .lotAssign t then none else some (runOffset old new t n)))

def oldRuns (s : State) : List (Nat × Run) :=
  match s.records.find? (fun r => r.type == 0x0A) with | some q => runsAt q | none => []

/-- The lots that an amendment of the POOL record moves. -/
def poolMoves (s : State) (r : RawRec) : List Nat := movedLots ((oldRuns s).map (·.2)) ((runsAt r).map (·.2))

/-! Grants (R65, R72, R73). -/

/-- A field of `r` may change. -/
def covered (s : State) (r : RawRec) (g : Option Grant) : Bool :=
  match g with
  | some .lotAssign => true
  | some c => granted s c r.inst
  | none => false

/-- The ports that CLASSIFY lets tenant `t`'s entries name: those of a tenant of the same grant entry, in force or at Load. -/
def classifyPort (s : State) (t p : Nat) : Bool :=
  match s.cfg.amend with
  | none => false
  | some a => a.grants.any (fun g => g.cls == .classify && decide (g.instLo ≤ t) && decide (t ≤ g.instHi)
      && (s.cfg.tenants.any (fun u => decide (g.instLo ≤ u.1) && decide (u.1 ≤ g.instHi) && u.2.cls.any (fun e => e.port == p))
        || s.loadPorts.any (fun u => decide (g.instLo ≤ u.1) && decide (u.1 ≤ g.instHi) && u.2 == p)))

/-- An entry that is added, or whose PORT is changed, names a port that R72 does not allow. -/
def deniedPort (s : State) (r : RawRec) : Option Nat :=
  let before : List (Nat × ClsEntry) := match currentRec s r with | some q => indexed q layTenant 1 clsAt | none => []
  if r.type = 0x05 then
    (indexed r layTenant 1 clsAt).zipIdx.findSome? (fun e =>
      if (before[e.2]?).any (fun o => o.2.port == e.1.2.port) || classifyPort s r.inst e.1.2.port then none else some e.1.1)
  else none

/-- The offset of the first changed field that no grant covers. -/
def deniedAt (s : State) (r : RawRec) (l : Layout) : Option Nat :=
  let cs := changes s r l
  let bad := (cs.filter (fun c => !covered s r c.2)).map (·.1) ++ (deniedPort s r).toList
    ++ (if r.type = 0x0A then (deniedLot s (oldRuns s) (runsAt r)).toList else [])
  match bad with
  | [] => none
  | o :: t => some (t.foldl min o)

/-! The checks on the result. -/

def changedUnder (s : State) (r : RawRec) (l : Layout) (g : Grant) : Bool := (changes s r l).any (fun c => c.2 == some g)

/-- A new gate list whose BASE lies less than 20 µs ahead (R179). -/
def baseEarly (s : State) (r : RawRec) (l : Layout) : Bool :=
  r.type == 0x08 && changedUnder s r l .gateList && decide ((readSched r).baseTime < s.now + 20000)

/-- A lot of a lost channel is assigned (R235). -/
def lostLot (s : State) (r : RawRec) : Option Nat :=
  if r.type ≠ 0x0A then none
  else (poolMoves s r).findSome? (fun n =>
    let t := (lotUnder ((runsAt r).map (·.2)) n).1
    if t ≠ 0x1FF ∧ chanLost s (n / 4096) then (runOfLot (runsAt r) n).map (·.1) else none)

/-- The bank to which an amendable offset of the FABRIC record belongs: BANK_TAG0, BANK_TAG1 or a ROUTE entry. -/
def bankAt (r : RawRec) (o : Nat) : Bool :=
  if o = 20 then false else if o = 24 then true else decide (8 + (elemOffs r layFabric 1).headD 0 + 64 ≤ o)

/-- A field of the bank in force changes (R271). -/
def liveBank (s : State) (r : RawRec) (l : Layout) : Option Nat :=
  if r.type ≠ 0x0D then none
  else ((changes s r l).find? (fun c => c.2 == some .routeEpoch && bankAt r c.1 == s.fab.epoch)).map (·.1)

/-- The first field of the amended record that a failure of another record is laid to. -/
def firstShared (t : Nat) : Nat := if t = 0x05 then 9 else 8

/-- A check that another record fails under the amended configuration. -/
def othersErr (c : State) (rs : List RawRec) (r : RawRec) : Option Nat :=
  if rs.any (fun x => recKey x != recKey r && x.type != 0x10 && (crossErr c true c.sec.secVersion c.sec.keySlot x).isSome) then
    some (firstShared r.type)
  else none

/-- The check value and offset of the first failing check, in the order of Table 2.6. -/
def amendErr (s : State) (r : RawRec) (l : Layout) : Option (Nat × Nat) :=
  let rs := putRec s.records r
  let c := { s with cfg := readAll rs }
  ((formErr r l).map (fun o => (0x0A, o))).or <|
  ((rangeErr c r l).map (fun o => (0x0C, o))).or <|
  (if baseEarly s r l then some (0x0C, 24) else none).or <|
  ((crossErr c true s.sec.secVersion s.sec.keySlot r).map (fun o => (0x0D, o))).or <|
  ((othersErr c rs r).map (fun o => (0x0D, o))).or <|
  ((lostLot s r).map (fun o => (0x0D, o))).or ((liveBank s r l).map (fun o => (0x0D, o)))

/-- What the amendment needs is held by background work: lots being scrubbed, or a flip or drain (R235, R271). -/
def amendBusy (s : State) (r : RawRec) (l : Layout) : Bool :=
  !s.hkRunning || (r.type == 0x0A && (poolMoves s r).any (fun n => lotState s n == 2))
    || (r.type == 0x0D && !(changes s r l).isEmpty && (s.fab.flip.isSome || drainRecent s))

/-! The commit. -/

/-- A shaper takes its amended fields (R170). -/
def amendShaper (x : Shaper) (e : ShaperEntry) : Shaper :=
  { x with nextRate := e.rate, burst := e.burst,
           tok := if e.bucketSet = 1 then tokens e.burst else if e.bucketSet = 2 then 0 else min x.tok (tokens e.burst) }

/-- A SCHED record takes force: shapers at once, a new list from its switch (R170, R179, R180). -/
def commitSched (s : State) (path : Path) (seq : Byte) (p : Nat) (x : SchedRec) (listChanged : Bool) : State :=
  let s := x.shapers.foldl (fun a e => { a with shapers := tset {} a.shapers e.id (amendShaper (tget {} a.shapers e.id) e) }) s
  if listChanged then
    s.modSched p (fun q => { q with pend := some { list := listOf x, ts := switchTime s p x.baseTime, path := path, seq := seq } })
  else s

/-- One lot at the commit of a LOT_ASSIGN amendment (R235). `old` is the state before it. The fill that it then waits for is work queued to
its channel, which leaves self-refresh (R227). -/
def commitLot (old : State) (runs : List Run) (s : State) (n : Nat) : State :=
  let o := lotUnder runs n
  if (s.lot n).owner = o.1 then s.modLot n (fun x => { x with slot := o.2 })
  else (lotViewers old n).foldl (fun a t => raiseVf a t 1) (touchChan (s.modLot n (fun _ => { st := 2, owner := o.1, slot := o.2 })) (n / 4096))

/-- The record takes force whole (R73 step 5), and extends the amendment chain (Table 14.14). -/
def commitRecord (s : State) (path : Path) (seq : Byte) (r : RawRec) (l : Layout) (bytes : List Byte) : State :=
  let kept := clearBuckets r
  let t := { s with records := putRec s.records kept, cfg := readInto s.cfg kept }
  let t :=
    if r.type = 0x08 then commitSched t path seq r.inst (readSched r) (changedUnder s r l .gateList)
    else if r.type = 0x09 then t.modGroup r.inst (fun g => { g with members := (readMcast r).members })
    else if r.type = 0x0A then (poolMoves s r).foldl (commitLot s ((runsAt r).map (·.2))) t
    else t
  (t.bump 0x10028).modSec (fun x => { x with chain := sha384 (x.chain ++ sha384 bytes) })

/-! The command (R72 to R74). -/

/-- A BAD_ARGUMENT answer of AMEND: the check value and the offset. -/
def amendBad (s : State) (path : Path) (seq : Byte) (check off : Nat) : State :=
  respondTo s path seq stBadArgument (leBytes 1 check ++ [0] ++ leBytes 2 off)

def dropStage (s : State) : State := s.modMbx (fun m => { m with staging := none })

/-- A complete record (R73). An answer other than OK leaves the staging as it was (R67). -/
def amendRecord (s : State) (path : Path) (seq : Byte) (validate : Bool) (bytes : List Byte) : State :=
  let r := recOf bytes
  match layoutOf r.type with
  | none => amendBad s path seq 0x0B 0
  | some l =>
    match deniedAt s r l with
    | some o => respondTo s path seq stDenied (leBytes 4 o)
    | none =>
      match amendErr s r l with
      | some (c, o) => amendBad s path seq c o
      | none =>
        if amendBusy s r l then respondTo s path seq stBusy []
        else if validate then respondTo (dropStage s) path seq stOk []
        else respondTo (commitRecord (dropStage s) path seq r l bytes) path seq stOk []

/-- A part, with the bytes staged before it: stored, or the last (R74 steps 3 and 4). -/
def amendStaged (s : State) (path : Path) (seq : Byte) (validate more : Bool) (all : List Byte) (total : Nat) : State :=
  if more then
    if total < all.length then amendBad (dropStage s) path seq 0x0A total
    else if !s.hkRunning then respondTo s path seq stBusy []
    else
      let s := s.modMbx (fun m => { m with staging := some { bytes := all, total := total, validateOnly := validate } })
      respondTo s path seq stOk (leBytes 4 all.length)
  else if all.length ≠ total then amendBad s path seq 0x0A all.length
  else amendRecord s path seq validate all

/-- AMEND with a legal mode: the part that PART_OFFSET and MORE make it (R74). A refusal that R74 does not tie to the end of the staging
leaves it as it was (R67, log entry 38). -/
def amendCmd (s : State) (path : Path) (seq : Byte) (validate more : Bool) (off : Nat) (bytes : List Byte) : State :=
  if off = 0 then
    if bytes.length < 8 then amendBad s path seq 0x0A bytes.length
    else if 8192 < framedSize bytes then amendBad (dropStage s) path seq 0x0A 4
    else amendStaged s path seq validate more bytes (framedSize bytes)
  else match s.mbx.staging with
    | none => amendBad s path seq 0 0
    | some g =>
      if off ≠ g.bytes.length ∨ validate ≠ g.validateOnly then amendBad (dropStage s) path seq 0 g.bytes.length
      else amendStaged s path seq validate more (g.bytes ++ bytes) g.total

end Sys2Proof.Machine
end

