-- ==== Sys2Proof/Machine/RegRead.lean ====
section
/-! DEFINITION. What a read of each BAR0 register returns, and which registers a read clears (chapter 15 and the register
tables of the other chapters). -/

namespace Sys2Proof.Machine

/-! GLB, ING (Tables 2.7 to 2.9, 2.13, 4.14 to 4.17, 5.4, 15.6). -/

def glbState (s : State) : Nat := fld s.resetCause 16 8 + fld s.modeCause 8 8 + modeNum s.mode

def trkCount (s : State) (retired fabric : Bool) : Nat :=
  s.tracker.countP (fun e => e.retired == retired && (!fabric || e.fabric))

def regGlb (s : State) (x : Nat) : Nat :=
  match x with
  | 0x000 => 0x0160A100 + fld s.chipId 4 4
  | 0x010 => glbState s
  | 0x100 => fld (trkCount s true false) 16 16 + fld (trkCount s false false) 0 16
  | 0x104 => if s.cfg.device.isNone then 0 else trkSharedSize s - trkSharedUsed s
  | 0x108 => fld (trkCount s true true) 16 14 + fld (trkCount s false true) 0 14
  | 0x10C => (s.reg (offGlb x)).toNat + s.ideQ.length
  | 0x120 => usable s
  | 0x124 => s.banksOut.toNat
  | 0x128 => if s.ingotLive then reservedPool s else 0
  | 0x12C => if s.ingotLive then sharedFree s else 0
  | _ => (s.reg (offGlb x)).toNat

/-- The header of the running ingot. -/
def runningHeader (s : State) : Option (Nat × IngotHeader) :=
  if s.ingotLive then s.verified.map (fun v => (v.1, v.2.1)) else none

def ingStat (s : State) : Nat :=
  flag (bothFailed s) 2 + (match runningHeader s with
    | some (i, h) => fld h.keySlot 8 8 + flag (i == 1) 3 + flag (i == 1) 1 + 1
    | none => 0)

def ingSeq (s : State) : Nat := match runningHeader s with | some (_, h) => h.seq.toNat | none => 0

def regIng (s : State) (x : Nat) : Nat :=
  if x = 0x00 then ingStat s
  else if x = 0x10 then s.ingCause0.toNat
  else if x = 0x14 then s.ingCause1.toNat
  else if x = 0x20 then ingSeq s
  else if x = 0x24 then (match runningHeader s with | some (_, h) => h.secVersion | none => 0)
  else if 0x40 ≤ x ∧ x < 0x60 then (match runningHeader s with | some (_, h) => leAt h.buildId (x - 0x40) 4 | none => 0)
  else (s.reg (0x10000 + x)).toNat

/-! MBX (Table 2.16): the path that does not hold the mailbox reads no response. -/

def mbxStat (s : State) : Nat :=
  (match s.mbx.owner with | none => 0 | some p => fld (pathNum p) 4 2) + flag s.mbx.done 1 + flag s.mbx.busy 0

def regMbx (s : State) (p : Path) (x : Nat) : Nat :=
  let mine := s.mbx.owner == some p
  if x = 0x000 then flag s.mbx.owner.isNone 0
  -- GO reads 1 until the command that it started has its response (Table 0.4): DEDUCED, log entry 95
  else if x = 0x004 then flag s.mbx.busy 0
  else if x = 0x008 then mbxStat s
  else if x = 0x00C then s.mbx.cmd.toNat
  else if x = 0x010 then (if mine then s.mbx.rsp.toNat else 0)
  else if 0x400 ≤ x ∧ x < 0x800 then (if mine then (tget 0 s.mbx.data ((x - 0x400) / 4)).toNat else 0)
  else if 0x1000 ≤ x ∧ x < 0x1020 then (mfMsixWord s ((x - 0x1000) / 4)).toNat
  else if x = 0x1800 then (s.reg (offMsix 0x800)).toNat
  else 0

/-! STN (Tables 3.11 to 3.15). -/

def laneStat (s : State) (i j : Nat) : Nat :=
  let v := s.lane i j
  (match laneSlot s i j with
    | some k => 2 ^ 11 + fld k 8 3 + fld (logicalLane s (8 * i + k) j) 0 4
    | none => 0) + flag v.los 7 + flag v.cdrLock 6 + flag v.aligned 5 + flag v.polarity 4

def laneEye (v : Lane) : Nat := flag v.eyeValid 31 + fld v.eyeWidth 16 10 + fld v.eyeHeight 0 9

def laneEq (v : Lane) : Nat :=
  fld v.ctle 25 5 + fld v.vga 20 5 + (v.dfe.zipIdx.map (fun e => twos 4 e.1 * 2 ^ (4 * e.2))).sum % 2 ^ 20

def regStn (s : State) (i x : Nat) : Nat :=
  let v := s.station i
  let j := x % 0x100 / 4
  let used := (laneSlot s i j).isSome
  if (tfind s.cfg.stations i).isNone then 0
  else if x = 0x10 then fld v.pllFail.toNat 4 4 + fld v.pllLock.toNat 0 4
  else if 0x100 ≤ x ∧ x < 0x140 then laneStat s i j
  else if 0x200 ≤ x ∧ x < 0x240 then (if used then laneEye (s.lane i j) else 0)
  else if 0x8100 ≤ x ∧ x < 0x8140 then (if used then laneEq (s.lane i j) else 0)
  else (s.reg (offStn i x)).toNat

/-! PRT (Tables 3.8, 4.8 to 4.10, 10.10). -/

def ltssmNum (l : Ltssm) : Nat :=
  match l with
  | .detect => 0 | .polling => 1 | .configuration => 2 | .l0 => 3 | .recovery => 4 | .l1 => 5 | .l2 => 6 | .disabled => 7
  | .loopback => 8 | .hotReset => 9

def lnkStat (l : Link) : Nat :=
  fld l.retimers 30 2 + fld (ltssmNum l.ltssm) 24 4 + fld l.rate 21 3 + fld l.width 16 5 + fld l.active 11 5 + flag l.flit 10
    + flag l.reversed 9 + flag l.dlUp 8 + flag l.widthShort 3 + flag l.speedShort 2 + flag l.quadFail 1 + 1

def containWord (s : State) (p : Nat) : Nat :=
  let c := (s.port p).contain
  fld (tagsRetired s p) 16 16 + fld c.phase 4 2 + fld c.cause 0 4

def regPrt (s : State) (p x : Nat) : Nat :=
  let l := (s.port p).link
  if cfgWidth s p = 0 then 0
  else match x with
  | 0x00 => lnkStat l
  -- CT_EGRESS of an upstream or downstream port reads 0 while its link is down: DEDUCED, log entry 100
  | 0x40 => fld (tagFormOf s p) 2 2 + flag (s.isFabric p || (l.dlUp && !l.flit)) 1 + flag (s.port p).tagRead 0
  | 0x44 => fld (tagShared s p) 16 14 + fld (if s.isFabric p then 0 else tagReserve s p ownerM) 0 14
  | 0x48 => fld (tagsRetired s p) 16 16 + fld (s.tracker.countP (fun e => e.egress == p && !e.retired && e.xlated)) 0 16
  | 0x90 => containWord s p
  | _ => (s.reg (offPrt p x)).toNat

/-! SCH (Tables 6.15 to 6.19). -/

def gclWord (e : Option GclEntry) : Nat := match e with | some x => fld x.mask.toNat 24 8 + fld x.interval 0 24 | none => 0

def schStat (s : State) (p : Nat) : Nat :=
  let q := (s.port p).sched
  fld (bitmap 8 (gateOpen s p)) 24 8
    + fld (match q.oper with | some g => bitmap 8 (closesClass g) | none => 0) 16 8
    + flag q.oper.isSome 15 + flag q.pend.isSome 14 + fld q.entry 7 7

def operField (s : State) (p : Nat) (f : GateList → Nat) : Nat :=
  match (s.port p).sched.oper with | some g => f g | none => 0

def pendTs (s : State) (p : Nat) : Nat := match (s.port p).sched.pend with | some d => d.ts | none => 0

def pendField (s : State) (p : Nat) (f : GateList → Nat) : Nat :=
  match (s.port p).sched.pend with | some d => (match d.list with | some g => f g | none => 0) | none => 0

def classCells (s : State) (p c : Nat) : Nat :=
  ((s.descs.filter (fun d => d.egress == p && d.tlp.tc.toNat == c)).map (·.cells)).sum

def regSchPage (s : State) (p x : Nat) : Nat :=
  if cfgWidth s p = 0 then 0
  else if x = 0x00 then schStat s p
  else if x = 0x04 then fld (schedRec s p).guardExtra 16 16 + (if (s.port p).link.dlUp then fld (guardBand s p) 0 16 else 0)
  else if x = 0x08 then operField s p (·.cycle)
  else if x = 0x10 then operField s p (fun g => g.base % 2 ^ 32)
  else if x = 0x14 then operField s p (fun g => g.base / 2 ^ 32)
  else if x = 0x18 then pendTs s p % 2 ^ 32
  else if x = 0x1C then pendTs s p / 2 ^ 32
  else if 0x40 ≤ x ∧ x < 0x60 then classCells s p ((x - 0x40) / 4)
  else if 0x60 ≤ x ∧ x < 0x80 then tget 0 (s.port p).sched.deficit ((x - 0x60) / 4)
  else if 0x800 ≤ x ∧ x < 0xA00 then operField s p (fun g => gclWord g.gcl[(x - 0x800) / 4]?)
  else if 0xA00 ≤ x ∧ x < 0xC00 then pendField s p (fun g => gclWord g.gcl[(x - 0xA00) / 4]?)
  else if x = 0xC00 then pendField s p (·.cycle)
  else (s.reg (offSch p x)).toNat

def regShaper (s : State) (i x : Nat) : Nat :=
  match tfind s.shapers i with
  | none => 0
  | some e =>
    if x = 0 then e.rate
    else if x = 4 then e.burst
    else if x = 8 then twos 32 (e.tok / 65536)
    else 2 ^ 31 + fld e.scope 28 2 + fld e.port 20 8 + fld e.tc 16 3 + fld e.owner 0 9

def regPolicer (s : State) (k x : Nat) : Nat :=
  match policerEntry s k with
  | none => 0
  | some (t, _, e) =>
    if x = 12 then 2 ^ 31 + flag e.hold 30 + fld e.tcMask.toNat 16 8 + fld t 0 8 else (s.reg (offPol k x)).toNat

/-- The port and entry of monitor `m`. -/
def findMon (s : State) (m : Nat) : Option (Nat × MonEntry) :=
  s.cfg.scheds.findSome? (fun e => (e.2.mons.find? (fun x => x.id == m)).map (fun x => (e.1, x)))

def regMon (s : State) (m x : Nat) : Nat :=
  match findMon s m with
  | none => 0
  | some (p, e) => if x = 0x8C then 2 ^ 31 + fld p 24 7 + fld e.tc 16 3 + fld e.owner 0 9 else (s.reg (offMon m x)).toNat

def regSch (s : State) (x : Nat) : Nat :=
  if x < 0x50000 then regSchPage s (x / 0x1000) (x % 0x1000)
  else if x < 0x60000 then regShaper s ((x - 0x50000) / 16) (x % 16)
  else if x < 0x62000 then regPolicer s ((x - 0x60000) / 16) (x % 16)
  else if 0x80000 ≤ x ∧ x < 0xC0000 then regMon s ((x - 0x80000) / 256) (x % 256)
  else 0

/-! MCG (Table 5.13). -/

def parkedCells (l : List Parked) : Nat := (l.map (·.cells)).sum

def spillUse (s : State) : Nat := (s.groups.map (fun e => parkedCells e.2.parked)).sum

def regGroup (s : State) (g x : Nat) : Nat :=
  let v := s.group g
  if (tfind s.cfg.mcasts g).isNone then 0
  else match x with
  | 0x00 => v.members.toNat % 2 ^ 32
  | 0x04 => v.members.toNat / 2 ^ 32
  | 0x08 => v.fallback.toNat % 2 ^ 32
  | 0x0C => v.fallback.toNat / 2 ^ 32
  | 0x10 => parkedCells v.parked
  | _ => (s.reg (offMcg g x)).toNat

def regMcg (s : State) (x : Nat) : Nat :=
  if x < 0x10000 then regGroup s (x / 64) (x % 64)
  else if x = 0x10000 then s.mcEntries.length
  else if x = 0x1000C then spillUse s
  else (s.reg (offMcgA x)).toNat

/-! TNT (Tables 4.18, 5.5, 7.11, 7.12). -/

/-- An owner that the registers know: a tenant with a record, or M. -/
def ownerHere (s : State) (o : Nat) : Bool := o == ownerM || (s.tenantRec o).isSome

/-- Classification entries of a tenant in force: none once it is evicted. -/
def clsInForce (s : State) (t : Nat) (r : TenantRec) : Nat := if (tfind s.evict t).isSome then 0 else r.cls.length

def tntInfo (s : State) (t : Nat) : Nat :=
  match s.tenantRec t with
  | none => 0
  | some r => fld ((tfind s.evict t).getD 1) 30 2 + fld r.vh 16 8 + fld (clsInForce s t r) 8 7 + fld r.pol.length 0 3

/-- Table 4.18. -/
def fwdReg (s : State) (o x : Nat) : Nat :=
  if !ownerHere s o then 0
  else if x = 8 then s.tracker.countP (fun e => e.owner == o) else (s.reg (offTnt (0x40000 + 16 * o + x))).toNat

/-- Table 5.5. -/
def bufReg (s : State) (o x : Nat) : Nat :=
  if !ownerHere s o then 0
  else match x with
  | 0x00 => usedOf s o 0
  | 0x04 => usedOf s o 1
  | 0x08 => usedOf s o 2
  | 0x0C => usedOf s o 3
  | 0x10 => if o = ownerM then 0 else thrOf s o 2
  | 0x14 => if o = ownerM then 0 else thrOf s o 3
  | 0x1C => if s.cfg.device.isNone then 0 else fld (minOf s o 0) 16 16 + fld (minOf s o 1) 0 16
  | _ => (s.reg (offTnt (0x50000 + 32 * o + x))).toNat

/-- A word of TNT that the state holds, of owner `o`. -/
def heldReg (s : State) (o off : Nat) : Nat := if ownerHere s o then (s.reg (offTnt off)).toNat else 0

def regTnt (s : State) (x : Nat) : Nat :=
  if x < 0x1000 then (if x % 16 = 0 then tntInfo s (x / 16) else 0)
  else if 0x40000 ≤ x ∧ x < 0x41010 then fwdReg s ((x - 0x40000) / 16) (x % 16)
  else if 0x50000 ≤ x ∧ x < 0x52020 then bufReg s ((x - 0x50000) / 32) (x % 32)
  else if 0x60000 ≤ x ∧ x < 0x61010 then heldReg s ((x - 0x60000) / 16) x
  else if 0x62000 ≤ x ∧ x < 0x62808 then heldReg s ((x - 0x62000) / 8) x
  else if 0x70000 ≤ x ∧ x < 0x72020 then heldReg s ((x - 0x70000) / 32) x
  else 0

/-! GAT (Tables 7.14, 7.15). -/

def regGate (s : State) (g x : Nat) : Nat :=
  if !validGate s g then 0
  else if x = 0 then
    if s.cfg.device.isNone then 0
    else 2 ^ 31 + fld (s.cfg.regions.countP (fun e => e.2.gate == g)) 16 14 + fld (tget {} s.cfg.gates g).default_ 0 2
  else (s.reg (offGat (16 * g + x))).toNat

/-- The region that GAT_RSEL selects. -/
def selRegion (s : State) : Option (Nat × RegionRec) :=
  let w := (s.reg (offGat 0x10000)).toNat
  let shared := bitN w 15
  s.cfg.regions.find? (fun e => e.2.gate == bitsN w 24 8 && e.2.slot == bitsN w 0 5 && e.2.shared == shared
    && (shared || e.2.tenant == bitsN w 16 8))

def regGat (s : State) (x : Nat) : Nat :=
  let sel (f : Nat × RegionRec → Nat) : Nat := match selRegion s with | some e => f e | none => 0
  if x < 0x1000 then regGate s (x / 16) (x % 16)
  else if x = 0x10010 then sel (fun e => e.2.base % 2 ^ 32)
  else if x = 0x10014 then sel (fun e => e.2.base / 2 ^ 32)
  else if x = 0x10018 then sel (fun e => 2 ^ 31 + fld e.2.sizeLog2 16 6 + fld e.2.subdis.toNat 8 8 + fld e.2.perm.toNat 0 7)
  else if x = 0x1001C then sel (fun e => e.1)
  else if 0x80000 ≤ x ∧ x < 0x80400 then (if validGate s ((x - 0x80000) / 4) then logLimit s ((x - 0x80000) / 4) else 0)
  else (s.reg (offGat x)).toNat

/-! CRU (Tables 8.13, 8.15). -/

/-- LOST_CAUSE: a channel that CH_MASK does not name reads NOT_NAMED (Table 8.14). -/
def chanCause (s : State) (c : Nat) : Nat :=
  let named := match s.cfg.pool with | some r => bitN r.chMask c | none => true
  if (s.chan c).st = 0 && !named then 1 else (s.chan c).cause

def regChan (s : State) (c x : Nat) : Nat :=
  let v := s.chan c
  match x with
  | 0x00 => fld v.st 30 2 + fld (chanCause s c) 26 4 + flag v.selfRef 25 + fld v.lots 12 13 + fld v.modules 0 2
  | 0x18 => fld v.passes 16 16 + fld (v.progress * 100 / (3600 * (poolRec s).patrolHours)) 0 7
  | 0x1C => fillPending s c
  | _ => (s.reg (offChan c x)).toNat

/-- CRU_LOTINFO, at its reset value until the POOL record is applied (R409). -/
def lotInfo (s : State) (l : Nat) : Nat :=
  if s.cfg.pool.isNone then 0 else fld (lotState s l) 29 3 + fld (s.lot l).owner 20 9 + fld (s.lot l).slot 0 13

def regCru (s : State) (x : Nat) : Nat :=
  let pool (f : PoolRec → Nat) : Nat := match s.cfg.pool with | some r => f r | none => 0
  if x < 0x200 then regChan s (x / 0x100) (x % 0x100)
  else if x = 0x404 then lotInfo s (bitsN (s.reg (offCru 0x400)).toNat 0 13)
  else if x = 0x410 then pool (fun r => r.spillLots * 245760)
  else if x = 0x414 then spillUse s
  else if x = 0x418 then s.vfs.countP (fun e => !e.2.jobs.isEmpty)
  else if x = 0x80000 then pool (fun r => fld r.speedMts 16 16 + fld r.srIdleUs 0 16)
  else if x = 0x80004 then pool (fun r => fld r.ueLimit 8 8 + fld r.fillShare 0 3)
  else (s.reg (offCru x)).toNat

/-! FAB (Tables 9.8, 9.11 to 9.13). -/

def fabStat (s : State) : Nat :=
  fld s.chipId 28 4 + fld (fabricRec s).rootChip 24 4 + flag s.fab.epoch 23 + flag s.fab.flip.isSome 22
    + flag (s.fabricMode && (fabricRec s).ringEn) 21 + fld s.fab.depth 18 3 + bitmap 16 (fun c => (tfind s.fab.drains c).isSome)

def ringInNum (f : Fab) : Nat :=
  if f.ringArmed then (match f.ringIn with | some .healthy => 0 | some .alarm => 1 | some .broken => 2 | none => 3) else 3

def fabLnk (v : FabLink) : Nat :=
  fld v.st 29 3 + fld v.cause 26 3 + flag v.parent 25 + flag v.child 24 + fld v.peerChip 20 4 + fld v.peerPort 13 7 + fld v.delay 0 12

/-- What the ring output drives: high impedance while it is off, and a driven ALARM stays (R287). -/
def ringOutNum (s : State) : Nat := if !ringOn s then 2 else if s.fab.ringOut = 1 then 1 else 0

/-- A ROUTE entry: unused members read 0xFF. -/
def routeWord (l : List Nat) : Nat := ((List.range 4).map (fun k => l.getD k 0xFF * 2 ^ (8 * k))).sum

def regFab (s : State) (x : Nat) : Nat :=
  let r := fabricRec s
  if x = 0x00 then fabStat s
  else if x = 0x04 then fld s.fab.lost.toNat 16 16 + s.fab.present.toNat
  else if x = 0x10 then (if isRoot s then 0 else twos 32 s.fab.toffset)
  else if x = 0x14 then fld (ringInNum s.fab) 2 2 + fld (ringOutNum s) 0 2
  else if x = 0x20 then (s.reg (offFab x)).toNat + flag s.fab.gopBusy 8
  else if x = 0x24 then (s.reg (offFab x)).toNat + flag s.fab.gopBusy 0
  else if 0x100 ≤ x ∧ x < 0x240 then fabLnk (s.fabLink ((x - 0x100) / 4))
  else if 0x800 ≤ x ∧ x < 0x880 then routeWord (tget [] r.routes ((x - 0x800) / 4))
  else if x = 0x880 then r.bankTag0.toNat
  else if x = 0x884 then r.bankTag1.toNat
  else if x = 0x80000 then fld r.epochDrainUs 16 16 + fld r.joinWindowMs 0 16
  else if x = 0x80004 then fld r.timeSyncUs 8 8 + fld r.presenceMiss 0 8
  else (s.reg (offFab x)).toNat

/-! FLT (Table 11.14). -/

def railBits (s : State) (v : RailSt) : Nat := bitmap 14 (fun i => tget .healthy s.cupel.rails i == v)

def tabInfo (e : FltEntry) : Nat :=
  2 ^ 31 + flag e.acked 30 + flag e.active 29 + fld e.level 26 3 + fld e.cls.kind 16 8 + fld e.cls.source 8 8 + fld e.cls.inst 0 8

def kindCfg (s : State) (k : Nat) : Nat :=
  if s.cfg.react.isNone || (kindOf k).isNone then 0
  else
    let c := kindInForce (reactEntries s) k
    flag c.2.2 16 + fld c.2.1 8 3 + fld c.1 0 3

def regFlt (s : State) (x : Nat) : Nat :=
  let sel (f : FltEntry → Nat) : Nat :=
    match tfind s.cupel.table (bitsN (s.reg (offFlt 0x80)).toNat 0 10) with | some e => f e | none => 0
  match x with
  | 0x00 => flag s.cupel.quenched 31 + flag s.alive 30 + flag s.faultN 29 + flag (ringOutNum s == 1) 28 + s.cupel.table.length
  | 0x04 => fld (unackAll s) 16 16 + fld (unackS4 s) 0 16
  | 0x08 => fld (railBits s .equal) 16 14 + railBits s .alarm
  | 0x84 => sel tabInfo
  | 0x88 => sel (fun e => e.cls.owner)
  | 0x8C => sel (fun e => e.count.toNat)
  | 0x80004 => kindCfg s (bitsN (s.reg (offFlt 0x80000)).toNat 0 8)
  | 0x80008 => match s.cfg.react with | some r => r.slotSafe.toNat | none => 0
  | 0x8000C => stormLimit s
  | _ => (s.reg (offFlt x)).toNat

/-! SLP (Tables 12.21, 12.22). -/

/-- The port of a slot is quarantined. -/
def slotQuarantined (s : State) (n : Nat) : Bool := match portOfSlot s n with | some p => (s.port p).quarantine | none => false

/-- SLP_STAT: what the slot power die holds stands as its last STAT frame told. -/
def slotStat (s : State) (n : Nat) : Nat :=
  let x := s.slot n
  let v := x.seen
  fld x.st 28 4 + fld (bitsN v 8 2) 26 2 + flag x.want 25 + flag (bitN v 10) 24 + flag (bitN v 11) 23 + flag (bitN v 12) 22
    + flag (bitN v 13) 21 + flag (bitN v 14) 20 + flag (slotQuarantined s n) 19 + flag x.expired 18 + flag x.lockout 17
    + fld (bitsN v 4 4) 12 4 + fld x.hallmark 8 4 + fld x.count 0 8

def regSlot (s : State) (n x : Nat) : Nat :=
  let v := s.slot n
  if x = 0x00 then slotStat s n
  else if x = 0x08 then fld v.feedBMv 16 16 + fld v.feedAMv 0 16
  else if x = 0x0C then fld v.ioutMa 16 16 + fld v.voutMv 0 16
  else if x = 0x10 then fld (v.ilimCode * 100000 / (slotRec s n).rsenseUohm) 16 16 + fld v.ilimCode 0 9
  else if x = 0x14 then (match v.retryUntil with | some t => fld (ceilDiv (t - s.clock) 1000000) 0 16 | none => 0)
  else if x = 0x18 then fld v.vendorId 16 16 + fld v.deviceId 8 8 + fld v.cls 0 3
  else if x = 0x20 then v.written.insertions.toNat
  else if x = 0x24 then v.written.hours.toNat
  else if x = 0x28 then v.written.trips.toNat
  else if x = 0x2C then v.written.energyWh.toNat
  else if x = 0x30 then fld (v.energy / 3600000000) 16 16 + fld (v.seconds / 1000) 0 12
  else if 0x40 ≤ x ∧ x < 0x50 then leAt v.serial (x - 0x40) 4
  else (s.reg (offSlp n x)).toNat

def regSlotX (s : State) (n x : Nat) : Nat :=
  match x, tfind s.cfg.slots n with
  | 0x0C, _ => flag (s.pd.safe.getLsbD n) 0
  | 0x00, some r => fld r.faultTmrUs 16 16 + fld r.rampFaultUs 0 16
  | 0x04, some r => fld r.feedWarnMv 16 16 + fld r.feedUvMv 0 16
  | 0x08, some r => fld r.retryMax 24 8 + fld r.swapGapUs 16 8 + fld r.rampMaxMs 8 8 + fld r.gateUa 0 6
  | _, _ => 0

def regSlp (s : State) (x : Nat) : Nat :=
  if x < 0x1800 then regSlot s (x / 0x100) (x % 0x100)
  else if 0x80000 ≤ x ∧ x < 0x80600 then regSlotX s ((x - 0x80000) / 0x40) (x % 0x40)
  else 0

/-! TIM, ASY, ANL, SEC (Tables 6.20, 13.13 to 13.14, 14.15). -/

def regTim (s : State) (x : Nat) : Nat :=
  let t := s.time
  match x with
  | 0x00 => s.now % 2 ^ 32
  | 0x04 => t.nowHi.toNat
  | 0x08 => t.nowFrac.toNat
  | 0x10 => flag t.setAt.isSome 4 + t.st
  | 0x14 => twos 32 t.offset
  | 0x18 => twos 32 (t.rate / 65536)
  | 0x30 => t.lastC.toNat % 2 ^ 32
  | 0x34 => t.lastC.toNat / 2 ^ 32
  | _ => (s.reg (offTim x)).toNat

def regAsy (s : State) (x : Nat) : Nat :=
  if x = 0 then flag s.assay.runtime.isSome 31 + fld s.assay.lastRun 24 4 + s.unusable.toNat else (s.reg (offAsy x)).toNat

def regAnl (s : State) (x : Nat) : Nat :=
  if x = 0 then fld s.assay.vreq 16 10 + fld s.assay.slack 8 8 + flag (avsFrozen s) 1 + flag s.assay.avsFail 0
  else if 0x200 ≤ x ∧ x < 0x238 then twos 10 (s.cupel.temps.getD ((x - 0x200) / 4) 0)
  else if x = 0x80000 then fld (avsMax s) 16 10 + fld (avsMin s) 0 10
  else (s.reg (offAnl x)).toNat

/-- A hold of R392 is in force. -/
def inHold (s : State) : Bool := match s.sec.holdUntil with | some t => decide (s.clock < t) | none => false

def holdLeft (s : State) : Nat :=
  if s.sec.lockout then 0xFFFF
  else match s.sec.holdUntil with | some t => ceilDiv (t - s.clock) 1000000000 | none => 0

def secStat (s : State) : Nat :=
  fld s.sec.lifeAtReset 30 2 + fld s.sec.level 28 2 + flag s.sec.scrubDone 27 + flag s.sec.scrubbing 26
    + flag (inHold s || s.sec.lockout) 25 + flag s.sec.challenge.isSome 24 + fld s.sec.fails 16 8

def regSec (s : State) (x : Nat) : Nat :=
  let lock (f : LockRec → Nat) : Nat := match s.cfg.lock with | some r => f r | none => 0
  if x = 0x00 then secStat s
  else if x = 0x08 then ((List.range 4).map (fun i => fld (tget {} s.keys.owner i).st (2 * i) 2)).sum
  else if x = 0x0C then s.keys.minSec
  else if x = 0x10 then holdLeft s
  else if 0x20 ≤ x ∧ x < 0x30 then bitsN s.keys.uid.toNat (8 * (x - 0x20)) 32
  else if x = 0x80000 then lock (fun r => fld r.failHoldS 16 16 + fld r.challengeLifeS 0 16)
  else if x = 0x80004 then lock (fun r => fld r.failMax 0 8)
  else (s.reg (offSec x)).toNat

/-! All of BAR0 (Table 15.1). -/

/-- The value that a read of the double word at `off` returns on a path. -/
def regVal (s : State) (p : Path) (off : Nat) : Nat :=
  let x := off % 0x100000
  match off / 0x100000 with
  | 0x0 => if x < 0x10000 then regGlb s x else if x < 0x20000 then regIng s (x - 0x10000)
           else if x < 0x30000 then regMbx s p (x - 0x20000) else 0
  | 0x1 => if x < 0xA0000 then regStn s (x / 0x10000) (x % 0x10000) else 0
  | 0x2 => if x < 0x50000 then regPrt s (x / 0x1000) (x % 0x1000) else 0
  | 0x3 => regSch s x
  | 0x4 => regMcg s x
  | 0x5 => regTnt s x
  | 0x6 => regGat s x
  | 0x7 => regCru s x
  | 0x8 => regFab s x
  | 0x9 => regFlt s x
  | 0xA => regSlp s x
  | 0xB => regTim s x
  | 0xC => regAsy s x
  | 0xD => regAnl s x
  | 0xE => regSec s x
  | _ => 0

/-! Registers that a full read clears (Table 0.4, R406). -/

def rcPrt (x : Nat) : Bool := (decide (0x10 ≤ x) && decide (x ≤ 0x34)) || (decide (0x50 ≤ x) && decide (x ≤ 0x68))
  || (decide (0x98 ≤ x) && decide (x ≤ 0xA4))

def rcSch (x : Nat) : Bool :=
  if x < 0x50000 then (let y := x % 0x1000; y == 0x24 || y == 0x28 || y == 0x2C)
  else if x < 0x60000 then false
  else if x < 0x62000 then x % 16 != 12
  else decide (0x80000 ≤ x) && decide (x < 0xC0000) && decide (x % 256 ≤ 0x88)

def rcMcg (x : Nat) : Bool :=
  if x < 0x10000 then (let y := x % 64; y == 0x14 || y == 0x18 || y == 0x1C)
  else x == 0x10004 || x == 0x10008 || (decide (0x20000 ≤ x) && decide (x < 0x20400) && (x % 16 == 0 || x % 16 == 4))

def rcTnt (x : Nat) : Bool :=
  if x < 0x40000 then false
  else if x < 0x50000 then x % 16 != 8
  else if x < 0x60000 then x % 32 == 0x18
  else if x < 0x62000 then x % 16 != 12
  else decide (x < 0x70000)

/-- A counter that a read of all four bytes clears. -/
def isRc (off : Nat) : Bool :=
  let x := off % 0x100000
  match off / 0x100000 with
  | 0x0 => x == 0x10C || x == 0x140
  | 0x2 => rcPrt (x % 0x1000)
  | 0x3 => rcSch x
  | 0x4 => rcMcg x
  | 0x5 => rcTnt x
  | 0x6 => decide (x < 0x1000) && (x % 16 == 4 || x % 16 == 8)
  | 0x7 => (decide (x < 0x200) && (let y := x % 0x100; y == 8 || y == 0xC || y == 0x10)) || (decide (0x480 ≤ x) && decide (x < 0x4C0))
  | 0x8 => decide (0x40 ≤ x) && decide (x < 0x60)
  | 0x9 => (decide (0x10 ≤ x) && decide (x ≤ 0x20)) || x == 0x30 || x == 0x34 || x == 0x38
  | 0xA => decide (x < 0x1800) && (let y := x % 0x100; y == 0x50 || y == 0x54 || y == 0x58)
  | 0xB => decide (0x20 ≤ x) && decide (x ≤ 0x2C)
  | 0xC => x == 0x10
  | 0xD => x == 0x08
  | 0xE => x == 0x14 || x == 0x18
  | _ => false

/-- What a read of all four bytes leaves behind. -/
def afterRead (s : State) (p : Path) (off : Nat) : State :=
  if off = 0x20000 then (claim s p).1
  else if off = offTim 0 then latchTime s
  else if off = offFab 0x38 then s.setReg off (clearBit32 (s.reg off) 31)
  else if isRc off then s.setReg off 0 else s

/-- Reads of MBX registers by the holder restart its idle time (R64). -/
def touchOn (s : State) (p : Path) (off : Nat) : State :=
  if 0x20000 ≤ off ∧ off < 0x30000 ∧ s.mbx.owner = some p then touchMbx s else s

/-- A read of one double word with byte enables (R406). A claim and the latch of TIM_NOWLO need any byte. -/
def readReg (s : State) (p : Path) (off : Nat) (be : BitVec 4) : State × W32 :=
  let v := w32 (regVal s p off)
  let s := touchOn s p off
  if be = 15 then (afterRead s p off, v) else if off = offTim 0 then (latchTime s, v) else (s, v)

/-- Double words read in ascending order. -/
def readRegs (s : State) (p : Path) (off : Nat) (be : Nat → BitVec 4) : Nat → State × List W32
  | 0 => (s, [])
  | n + 1 =>
    let (t, l) := readRegs s p off be n
    let (u, w) := readReg t p (off + 4 * n) (be n)
    (u, l ++ [w])

end Sys2Proof.Machine
end

