-- ==== Sys2Proof/Machine/Command.lean ====
section
/-! DEFINITION. What the mailbox commands do once their checks have passed: state, faults, containment, slots, time, snapshots,
epochs, groups, resume, injection and eviction (chapters 2, 5 to 7, 9 to 13). -/

namespace Sys2Proof.Machine

/-! GET_STATE (R69, R70, Table 2.18). -/

def warmResume (s : State) : Bool := match s.cfg.amend with | some r => r.warmResume | none => false

def stateFlags (s : State) : Nat :=
  flag (warmResume s) 0 + flag (s.time.st == 3) 1 + flag s.fabricMode 2 + flag s.alive 3

/-- The fields after INGOT_SLOT; in Load and Assay they read 0. -/
def stateTail (s : State) : List Byte :=
  if s.mode = .load ∨ s.mode = .assay then List.replicate 28 0
  else leBytes 4 (degradedMask s) ++ leBytes 2 (unackS4 s) ++ leBytes 2 (unackAll s) ++ leBytes 4 s.sec.level
    ++ leBytes 8 s.now ++ leBytes 4 (ingSeq s) ++ leBytes 4 (stateFlags s)

def ingotSlot (s : State) : Nat := match runningHeader s with | some (i, _) => i | none => 0xFF

/-- The response of GET_STATE. Table 2.4 says that SYSTEM_ID is reported in GET_STATE, and Table 2.18, which lists all 32 bytes, has no field
for it. DESIGN CHOICE: it is reported in the SPDM measurement alone (log entry 94). -/
def stateBytes (s : State) : List Byte :=
  leBytes 4 (modeNum s.mode + 256 * (s.modeCause + 256 * (s.resetCause + 256 * ingotSlot s))) ++ stateTail s

def cmdGetState (s : State) (path : Path) (seq : Byte) : State := respondTo s path seq stOk (stateBytes s)

/-! ACK_FAULT (R324, Table 11.6). -/

/-- The entries that an acknowledgement names. -/
def ackNames (op level entry : Nat) (x : Nat × FltEntry) : Bool :=
  if op = 0 then x.1 == entry else if op = 1 then decide (x.2.level ≤ level) else true

/-- ACK_FAULT has an argument out of range. -/
def ackBad (s : State) (op level entry : Nat) : Bool :=
  decide (2 < op) || (op == 0 && (tfind s.cupel.table entry).isNone) || (op == 1 && (level == 0 || decide (4 < level)))

def cmdAckFault (s : State) (path : Path) (seq : Byte) (op level entry : Nat) : State :=
  let n := s.cupel.table.countP (fun x => ackNames op level entry x && !x.2.acked)
  let s := s.modCupel (fun c => { c with
    table := c.table.map (fun x => if ackNames op level entry x then (x.1, { x.2 with acked := true }) else x) })
  let s := updatePins s
  respondTo s path seq stOk (leBytes 2 n ++ leBytes 2 (unackAll s) ++ leBytes 4 (unackS4 s))

/-! RELEASE_CONTAIN (R305, R306, R383). -/

/-- The port's station is under runtime Assay. -/
def underRuntime (s : State) (p : Nat) : Bool := s.assay.runtime == some (stationOf p)

def cmdReleaseContain (s : State) (path : Path) (seq : Byte) (p : Nat) : State :=
  let c := (s.port p).contain
  if c.phase = 1 ∨ c.phase = 3 ∨ underRuntime s p then respondTo s path seq stBusy []
  else if c.phase = 0 then respondTo s path seq stOk (leBytes 2 0 ++ leBytes 2 (tagsRetired s p))
  else
    let s := releasePort s p
    respondTo s path seq stOk (leBytes 2 c.cause ++ leBytes 2 (tagsRetired s p))

/-! SLOT_POWER (R349, R360, Tables 12.14 and 12.15). -/

/-- The response, with the slot as it stands after the command. -/
def slotResponse (s : State) (path : Path) (seq : Byte) (n result : Nat) : State :=
  let x := s.slot n
  respondTo s path seq stOk
    (leBytes 4 (result + 256 * (x.st + 256 * (bitsN x.seen 4 4 + 256 * x.hallmark))) ++ leBytes 4 (slotStat s n))

/-- What follows from WANT. -/
def wantResult (s : State) (n : Nat) : Nat :=
  let x := s.slot n
  if x.st = 10 then 5
  else if x.lockout then 6
  else if x.expired && !bitN (setAside s n) 0 then 3
  else if x.classBad && !bitN (setAside s n) 1 then 4
  else if !feedUsed s n false && !feedUsed s n true then 2
  else if x.st = 5 ∨ (mayRamp s n && ((feedUsed s n false && x.goodA) || (feedUsed s n true && x.goodB))) then 0 else 1

/-- WANT is set; in Maintenance and Factory by command, and after RESUME the slot may be powered again. A slot that has held its power
through a safe state, and so keeps SLOT_PERST_N asserted, gets the power on at once (log entry 68). -/
def setWant (s : State) (n : Nat) (forced : Bool) : State :=
  let x := s.slot n
  let t := s.modSlot n (fun x => { x with
    want := true, rearm := false, forced := x.forced || forced, cmdOn := s.mode == .maintenance || s.mode == .factory })
  if x.st = 5 ∧ bitN x.seen 12 then sendCmd t n .powerOn (bitsN x.seen 8 2) else t

def clearWant (s : State) (n : Nat) : State := s.modSlot n (fun x => { x with want := false, cmdOn := false, forced := false })

/-- FORCE_ON may not set aside what holds this slot: RESULT 3 EXPIRED or 4 CLASS, 0 where it may. -/
def forceBlock (s : State) (n : Nat) : Nat :=
  let ok := match cartRec s n with | some c => c.forceOk | none => 0
  let x := s.slot n
  if x.expired && !bitN ok 0 then 3 else if x.classBad && !bitN ok 1 then 4 else 0

/-- OFF_DRAIN: the drain of R309 begins where the slot is ON and its port is up; else as OFF. -/
def offDrain (s : State) (n : Nat) : State :=
  match portOfSlot s n with
  | some p =>
    if (s.slot n).st = 5 ∧ (s.port p).link.dlUp ∧ (s.port p).contain.phase = 0 then
      (s.modContain p (fun _ => { phase := 3, cause := 0, drainSince := s.clock })).modSlot n (fun x => { x with st := 7 })
    else commandedCut s n
  | none => commandedCut s n

/-- LOCKOUT, the count and an ended latch are cleared; FET_FAIL, GATE_STUCK and a BOTH_BAD whose feeds are still bad stay. -/
def clearLatch (s : State) (n : Nat) : State :=
  let s := s.modSlot n (fun x => { x with lockout := false, count := 0 })
  if latchEnded { s.slot n with latch := bitsN (s.slot n).seen 4 4 } then askClear s n else s

def cmdSlotPower (s : State) (path : Path) (seq : Byte) (n op : Nat) : State :=
  let x := s.slot n
  let fet := if x.st = 10 then 5 else 0
  if op = 0 then slotResponse s path seq n 0
  else if x.st = 7 ∨ x.st = 8 then respondTo s path seq stBusy []
  else if op = 1 then (let s := setWant s n false; slotResponse s path seq n (wantResult s n))
  else if op = 2 then
    (if forceBlock s n ≠ 0 then slotResponse s path seq n (forceBlock s n)
      else (let s := setWant s n true; slotResponse s path seq n (wantResult s n)))
  else if op = 3 then slotResponse (commandedCut (clearWant s n) n) path seq n 0
  else if op = 4 then slotResponse (offDrain (clearWant s n) n) path seq n 0
  else slotResponse (clearLatch s n) path seq n fet

/-! ASSAY_STATION (R381 to R383). -/

/-- A port of the station is up and not contained. -/
def stationInUse (s : State) (i : Nat) : Bool :=
  s.portNums.any (fun p => stationOf p == i && (s.port p).link.dlUp && (s.port p).contain.phase != 1 && (s.port p).contain.phase != 2)

def cmdAssayStation (s : State) (path : Path) (seq : Byte) (i : Nat) (run : RuntimeAssay) : State :=
  if s.assay.runtime.isSome then respondTo s path seq stBusy []
  else
    let s := fenceStation s i
    match run with
    | .ended o => runtimeDone s i (.station (Fin.ofNat 10 i)) o path seq
    | .hangs => s.modAssay (fun a => { a with runtime := some i, runSince := s.clock })

/-! SET_TIME (R187, R273). -/

/-- SET_TIME conflicts with the state: AT_NEXT_PPS without a PPS, or a chip that follows another. -/
def setTimeConflict (s : State) (atPps : Bool) : Bool := isFollower s || (atPps && (s.time.st == 0 || s.time.st == 3))

def cmdSetTime (s : State) (path : Path) (seq : Byte) (seconds : Nat) (atPps : Bool) : State :=
  if atPps then s.modTime (fun t => { t with setAt := some (w64 seconds) })
  else setTimeDone (stepTo s (1000000000 * seconds + s.now % 1000000000 : Nat)) path seq

/-! SNAPSHOT_AT (R281, R282). -/

/-- AT lies less than `lead` or more than 10 s ahead. -/
def leadBad (s : State) (at_ lead : Nat) : Bool := decide (at_ < s.now + lead) || decide (s.now + 10000000000 < at_)

def cmdSnapshotAt (s : State) (path : Path) (seq : Byte) (at_ : W64) (id : W32) : State :=
  if s.fab.snap.isSome then respondTo s path seq stBusy []
  else
    let s := if s.fabricMode then treeFlood s 0xFF (.snapshot at_ id) else s
    respondTo (s.modFab (fun f => { f with snap := some { at_ := at_.toNat, id := id, cmd := some (path, seq) } })) path seq stOk []

/-- The offsets of Tables 3.10 and 4.12 within a port's page, in order. -/
def snapPort : List Nat :=
  [0x10, 0x14, 0x18, 0x1C, 0x20, 0x24, 0x28, 0x2C, 0x30, 0x34, 0x50, 0x54, 0x58, 0x5C, 0x60, 0x64, 0x68]

/-- The words copied for an owner: Table 4.18, Table 5.5 and the two gate counters. -/
def snapOwner (s : State) (o : Nat) : List Nat :=
  (List.range 4).map (fun i => fwdReg s o (4 * i)) ++ (List.range 8).map (fun i => bufReg s o (4 * i))
    ++ [heldReg s o (0x60000 + 16 * o), heldReg s o (0x60004 + 16 * o)]

/-- The copy at AT; every value is the one before it. -/
def takeSnapshot (s : State) (id : W32) : State :=
  let t := (List.range 80).foldl (fun a p => a.setRegs (offFab (0x10000 + 0x80 * p)) (snapPort.map (regPrt s p))) s
  let t := (List.range 257).foldl (fun a o => a.setRegs (offFab (0x20000 + 0x40 * o)) (snapOwner s o)) t
  let t := t.setRegs (offFab 0x900) [id.toNat, s.now % 2 ^ 32, s.now / 2 ^ 32]
  report (t.setEvt (offFab 0x08) 12) 0x0A 0 0x7A

/-! ROUTE_EPOCH (R267). -/

def cmdRouteEpoch (s : State) (path : Path) (seq : Byte) (at_ : Nat) (newTag : W32) : State :=
  if s.fab.flip.isSome then respondTo s path seq stBusy []
  else
    let others := BitVec.ofNat 16 (bitmap 16 (fun c => c != s.chipId && present_ s c))
    let bad := drainRecent s || idleTag s != newTag
    let p : Prepare := { at_ := at_, waiting := others, refused := if bad then selfBit s else 0,
                         drains := drainRecent s, tags := idleTag s != newTag, parts := selfBit s, since := s.clock }
    let s := s.modFab (fun f => { f with prep := some p })
    judgePrepare (treeFlood s 0xFF (.prepare (Fin.ofNat 16 s.chipId) newTag))

/-! GROUP_ADMIN (R157). -/

def groupAdmin (s : State) (g op d : Nat) : State :=
  if op = 1 then s.modGroup g (fun x => { x with members := x.members ||| w64 (2 ^ d) })
  else if op = 2 then s.modGroup g (fun x => { x with members := x.members &&& ~~~ w64 (2 ^ d) })
  else s

/-- A GROUP_ADMIN names no group, operation or destination. -/
def groupBad (s : State) (g op d : Nat) : Bool :=
  match mcastRec s g with
  | none => true
  | some m => decide (2 < op) || (op != 0 && decide (m.dests.length ≤ d))

def cmdGroupAdmin (s : State) (path : Path) (seq : Byte) (g op d : Nat) : State :=
  let s := groupAdmin s g op d
  let live : Nat := match mcastRec s g with | some m => liveBitmap s g m | none => 0
  let x := s.group g
  respondTo s path seq stOk (leBytes 8 x.members.toNat ++ leBytes 8 live ++ leBytes 8 x.fallback.toNat)

/-! RESUME (R74). -/

/-- Faults remain: an S4 entry is unacknowledged or its cause holds. -/
def resumeConflict (s : State) : Bool := warmResume s && s4Holds s

/-- Run, or Degraded if any block is unusable; ports stay contained, and slots wait for SLOT_POWER. -/
def resumeNow (s : State) : State :=
  let s := if degradedMask s = 0 then setMode s .run 7 else setMode s .degraded 7
  let quiet (x : Nat × FabLink) : Nat × FabLink := if x.2.st = 3 then (x.1, { x.2 with st := 2 }) else x
  let s := s.modFab (fun f => { f with links := f.links.map quiet, takeEpoch := s.fabricMode, ringSince := s.clock, ringOut := if ringOn s && f.ringOut == 2 then 0 else f.ringOut })
  let s := s.cfg.slots.foldl (fun a e => a.modSlot e.1 (fun x => { x with rearm := true })) s
  updatePins s

def cmdResume (s : State) (path : Path) (seq : Byte) : State := respondTo (resumeNow s) path seq stOk []

/-! INJECT (R335, Table 11.12). -/

/-- A message from its 12 bytes, as Table 11.1 lays them out; TIME is Cupel's own. -/
def msgOf (s : State) (b : List Byte) : Msg :=
  let n := leAt b 0 12
  let c := bitsN n 21 48
  { source := bitsN n 88 8, inst := bitsN n 80 8, kind := bitsN n 72 8, severity := bitsN n 69 3, tenant := bitsN c 40 8,
    ownerValid := bitN c 39, ownerM := bitN c 38, port := bitsN c 31 7, detail := bitsN c 0 31, time := s.now % 2 ^ 21 }

def injectBad (b : List Byte) : Bool :=
  let op := leAt b 0 1
  decide (3 < op) || ((op == 1 || op == 2) && decide (13 < leAt b 1 1)) || (op != 0 && leAt b 2 2 == 0)

/-- A forced rail state lasts DURATION_US. -/
def injectRail (s : State) (r us : Nat) (v : RailSt) : State :=
  railFault (s.modCupel (fun c => { c with injectUntil := tput c.injectUntil r (s.clock + 1000 * us) })) r v true

def cmdInject (s : State) (path : Path) (seq : Byte) (b : List Byte) : State :=
  let op := leAt b 0 1
  if op = 0 then
    let i := (s.reg (offFlt 0x100)).toNat
    let s := accept s (msgOf s (b.drop 4)) true
    respondTo s path seq stOk (leBytes 4 (if (s.reg (offFlt 0x100)).toNat = i then 0xFFFFFFFF else i))
  else
    let s := if op = 3 then { s with d2d := { s.d2d with broken := true } }
      else injectRail s (leAt b 1 1) (leAt b 2 2) (if op = 1 then .alarm else .equal)
    respondTo s path seq stOk (leBytes 4 0xFFFFFFFF)

/-! EVICT_TENANT (R203, R204). -/

/-- A descriptor that has not started transmission. -/
def notStarted (s : State) (d : Desc) : Bool := (s.port d.egress).sched.txing != some d.id

/-- One of the tenant's descriptors is removed; its tracker entry stays open and its timer starts. -/
def evictDesc (s : State) (d : Desc) : State :=
  let s := match d.trk with | some i => modTrk s i (fun e => { e with start := some (e.start.getD s.clock) }) | none => s
  removeDesc s d

/-- The tenant's groups: parked copies go without reports, and hold nothing any more. -/
def evictGroups (s : State) (t : Nat) : State :=
  (s.cfg.mcasts.filter (fun e => e.2.tenant == t)).foldl
    (fun a e => a.modGroup e.1 (fun x => { x with parked := [], fallback := 0 })) s

/-- The steps of R203, and how many TLPs they removed. -/
def evictNow (s : State) (t : Nat) : State × Nat :=
  let s := { s with evict := tput s.evict t 2 }
  let ds := s.descs.filter (fun d => d.owner == t && notStarted s d)
  let xs := s.staging.filter (fun x => x.owner == t)
  let parked := ((s.cfg.mcasts.filter (fun e => e.2.tenant == t)).map (fun e => (s.group e.1).parked.length)).sum
  let ws := s.mcWaits.filter (fun w => w.x.owner == t)
  let s := ds.foldl evictDesc { s with staging := s.staging.filter (fun x => x.owner != t) }
  let s := ws.foldl (fun a w => mcUnref a w.entry) { s with mcWaits := s.mcWaits.filter (fun w => w.x.owner != t) }
  (abortJobs (evictGroups s t) t, ds.length + xs.length + ws.length + parked)

/-- No cell of the tenant's accounts remains and no descriptor of it is queued (R204). -/
def evictDone (s : State) (t : Nat) : Bool :=
  [0, 1, 2, 3].all (fun c => usedOf s t c == 0) && s.descs.all (fun d => d.owner != t)

/-- DISCARDED and STILL_OPEN. -/
def evictCounts (s : State) (t disc : Nat) : List Byte :=
  leBytes 4 disc ++ leBytes 4 (s.tracker.countP (fun e => e.owner == t && !e.retired))

def cmdEvict (s : State) (path : Path) (seq : Byte) (t : Nat) : State :=
  match tfind s.evict t with
  | some 2 => respondTo s path seq stBusy []
  | some _ => respondTo s path seq stOk (leBytes 8 0)
  | none =>
    let r := evictNow s t
    r.1.modMbx (fun m => { m with active := m.active.map (fun a => { a with arg := t, disc := r.2 }) })

/-- The command in progress, if it is one of code `code`. -/
def activeCmd (s : State) (code : Nat) : Option Active :=
  match s.mbx.active with | some a => if a.code = code then some a else none | none => none

/-- EVICT_COMPLETE: STATE reads EVICTED, and the command that evicts the tenant answers (R204). -/
def execEvictComplete (t : TenantId) (s : State) : Host.Outcome State Fault Refusal :=
  .next (if tfind s.evict t ≠ some 2 ∨ !evictDone s t then s
    else
      let s := report { s with evict := tput s.evict t 3 } 0x0C 0 0x12 none 0x7F (some t.val)
      match activeCmd s 0x0E with
      | some a => if a.arg = t.val then respondTo s a.path a.seq stOk (evictCounts s t a.disc) else s
      | none => s)

/-- EVICT_TIMEOUT, 10 ms after the command, where the condition of R204 is not met: the rest completes in the background. -/
def execEvictTimeout (s : State) : Host.Outcome State Fault Refusal :=
  .next (match activeCmd s 0x0E with
    | some a => if s.clock < a.since + 10000000 ∨ evictDone s a.arg then s else respondTo s a.path a.seq stTimeout (evictCounts s a.arg a.disc)
    | none => s)

/-- SET_TIME_TIMEOUT: no valid edge within 1.5 s (R187). -/
def execSetTimeTimeout (s : State) : Host.Outcome State Fault Refusal :=
  .next (match activeCmd s 0x07, s.time.setAt with
    | some a, some _ =>
      if s.clock < a.since + 1500000000 then s
      else respondTo (s.modTime (fun t => { t with setAt := none })) a.path a.seq stTimeout []
    | _, _ => s)

/-- SNAPSHOT_TAKE, at AT on this chip's counter (R282). -/
def execSnapshotTake (s : State) : Host.Outcome State Fault Refusal :=
  .next (match s.fab.snap with
    | some x =>
      if s.now < x.at_ ∨ !s.inRunModes then s else takeSnapshot (s.modFab (fun f => { f with snap := none })) x.id
    | none => s)

/-- PPS_EDGE (R183, R184, R187): a chip that follows another ignores it. -/
def execPpsEdge (s : State) : Host.Outcome State Fault Refusal :=
  .next (if !ppsOn s || isFollower s then s else if edgeValid s then validEdge s else badEdge s)

/-- HOLDOVER (R186): no valid edge for HOLDOVER's 1.5 s. -/
def execHoldover (s : State) : Host.Outcome State Fault Refusal :=
  .next (if ppsOn s ∧ !isFollower s ∧ (s.time.st = 1 ∨ s.time.st = 2) ∧ s.time.edgeAt + 1500000000 ≤ s.clock then enterHoldover s else s)

end Sys2Proof.Machine
end

