-- ==== Sys2Proof/Machine/Security.lean ====
section
/-! DEFINITION. Lifecycle burns, unlock levels, entry to Maintenance and Factory, and the SPDM responder (chapter 14). -/

namespace Sys2Proof.Machine

def lockRec (s : State) : LockRec := s.cfg.lock.getD {}

/-- The device runs in lifecycle Field-Return. -/
def fieldReturn (s : State) : Bool := s.sec.lifeAtReset == 3

/-! Burns (R385 to R389). -/

/-- Every owner slot that a mask names moves to REVOKED. -/
def revoke (k : KeyStore) (mask : BitVec 4) : KeyStore :=
  { k with owner := (List.range 4).foldl (fun t i =>
      if mask.getLsbD i then tset {} t i { tget {} t i with st := 2 } else t) k.owner }

/-- The burns of R389, in order. -/
def burnAll (s : State) : State :=
  let r := lockRec s
  let s := if s.keys.lifecycle = 1 ∧ r.lockOnLoad then { s with keys := { s.keys with lifecycle := 2 } }.setEvt (offSec 4) 3 else s
  let s := if s.keys.minSec < r.minSecVersion then { s with keys := { s.keys with minSec := r.minSecVersion } }.setEvt (offSec 4) 4 else s
  { s with keys := revoke s.keys r.revokeMask }

/-- LIFECYCLE_BURN: the burns that entry to Run or Degraded from Assay made due; none in Field-Return (R387). -/
def execLifecycleBurn (s : State) : Host.Outcome State Fault Refusal :=
  .next (if s.sec.burnsDue ∧ s.hkRunning then
      (if s.keys.lifecycle = 3 then s else burnAll s).modSec (fun x => { x with burnsDue := false })
    else s)

/-! Failures and successes (R391, R392). -/

/-- The bytes that a successful unlock returns. -/
def levelBytes (s : State) : List Byte := leBytes 4 s.sec.level

/-- A failed unlock: counted and reported, with a hold from the third on and a lockout at FAIL_MAX. -/
def authFail (s : State) (path : Path) (seq : Byte) : State :=
  let n := s.sec.fails + 1
  let r := lockRec s
  let s := report ((s.bump (offSec 0x14)).setEvt (offSec 4) 1) 0x0C 0 0x0F
  let s := s.modSec (fun x => { x with
    fails := n, holdUntil := if 3 ≤ n then some (s.clock + 1000000000 * r.failHoldS) else x.holdUntil,
    lockout := x.lockout || decide (r.failMax ≤ n) })
  respondTo s path seq stAuthFail []

/-- A level is reached; it is never lowered. -/
def reachLevel (s : State) (l : Nat) : State :=
  (s.modSec (fun x => { x with fails := 0, level := max x.level l })).setEvt (offSec 4) 0

/-- A hold or a lockout is in force. -/
def unlockHeld (s : State) : Bool := inHold s || s.sec.lockout

/-! PASSWORD_UNLOCK (R393). -/

def passwordBad (b : List Byte) : Bool :=
  let n := leAt b 0 1
  decide (n < 8) || decide (64 < n) || b.length != 4 + n

def passwordRight (s : State) (b : List Byte) : Bool := sha384 ((lockRec s).salt ++ b.drop 4) == (lockRec s).pwHash

/-- The check fails: a level is asked for, and the password does not match. -/
def passwordFails (s : State) (b : List Byte) : Bool := s.sec.level == 0 && !passwordRight s b

def cmdPassword (s : State) (path : Path) (seq : Byte) : State :=
  let s := if s.sec.level = 0 then reachLevel s 1 else s
  respondTo s path seq stOk (levelBytes s)

/-! Bilino (R394, R395). -/

/-- KEY of a challenge: an owner slot, or 0xFF for the vendor key. -/
def challengeKey (s : State) (level : Nat) : Nat := if level = 3 ∨ fieldReturn s then 0xFF else unlockSlot (lockRec s) s.sec.keySlot

/-- The challenge block of Table 14.9. -/
def challengeBlock (s : State) (level key : Nat) (nonce : BitVec 256) : List Byte :=
  leBytes 4 0x43424B59 ++ leBytes 4 (level + 256 * (key + 256 * (s.keys.lifecycle + 256 * modeNum s.mode)))
    ++ leBytes 16 s.keys.uid.toNat ++ leBytes 4 s.keys.minSec ++ leBytes 4 (ingSeq s) ++ leBytes 32 nonce.toNat
    ++ leBytes 8 s.now ++ leBytes 8 0

def challengeBad (s : State) (level : Nat) : Bool := (level != 2 && level != 3) || decide (level ≤ s.sec.level)

def challengeDenied (s : State) (level : Nat) : Bool :=
  (level == 2 && !(lockRec s).bilinoEn && !fieldReturn s) || unlockHeld s

def cmdChallenge (s : State) (path : Path) (seq : Byte) (level : Nat) : State :=
  let k := challengeKey s level
  let nonce := Config.nonce s.sec.nonces
  let b := challengeBlock s level k nonce
  let s := s.modSec (fun x => { x with
    nonces := x.nonces + 1, challenge := some { level := level, key := k, nonce := nonce, block := b, issued := s.clock } })
  respondTo s path seq stOk b

/-- No challenge is outstanding, or it is older than CHALLENGE_LIFE_S. -/
def noChallenge (s : State) : Bool :=
  match s.sec.challenge with
  | none => true
  | some c => decide (c.issued + 1000000000 * (lockRec s).challengeLifeS < s.clock)

/-- The nonce is the challenge's, and the signature verifies for its block under its key, whose slot is VALID. -/
def responseRight (s : State) (c : Challenge) (nonce : BitVec 256) (sig : Sig) : Bool :=
  nonce == c.nonce && sig.msg == c.block
    && (if c.key = 0xFF then sig.signer == s.keys.vendorKey
        else ownerKeyValid s.keys c.key && sig.signer == (tget {} s.keys.owner c.key).key)

def responseFails (s : State) (nonce : BitVec 256) (sig : Sig) : Bool :=
  match s.sec.challenge with | some c => !responseRight s c nonce sig | none => false

/-- The challenge is consumed. -/
def dropChallenge (s : State) : State := s.modSec (fun x => { x with challenge := none })

def cmdResponse (s : State) (path : Path) (seq : Byte) : State :=
  match s.sec.challenge with
  | some c => (let s := reachLevel (dropChallenge s) c.level; respondTo s path seq stOk (levelBytes s))
  | none => s

/-- UNLOCK_HOLD_END: the hold has lasted FAIL_HOLD_S. -/
def execUnlockHoldEnd (s : State) : Host.Outcome State Fault Refusal :=
  .next (match s.sec.holdUntil with
    | some t => if s.clock < t then s else s.modSec (fun x => { x with holdUntil := none })
    | none => s)

/-! Maintenance and Factory (R396 to R398). -/

/-- Every tenant is evicted under R203, without a grant and without a response. -/
def evictAll (s : State) : State :=
  (s.cfg.tenants.map (·.1)).foldl (fun a t => if (tfind a.evict t).isSome then a else (evictNow a t).1) s

def enterMaintenance (s : State) : State :=
  let s := leaveService (setMode s .maintenance 9)
  evictAll (updatePins (s.modSec (fun x => { x with scrubbing := true, scrubDone := false, bufScrubbed := false })))

def cmdEnterMaint (s : State) (path : Path) (seq : Byte) (target : Nat) : State :=
  if target = 0 then respondTo (enterMaintenance s) path seq stOk []
  else if !s.sec.scrubDone then respondTo s path seq stBusy []
  else respondTo (updatePins (setMode s .factory 9)) path seq stOk []

/-- Every tenant with a record reads EVICTED. -/
def allEvicted (s : State) : Bool := s.cfg.tenants.all (fun e => tfind s.evict e.1 == some 3)

/-- MAINT_BUFFER_SCRUB (R397 step 3): no cell, tracker entry, tag or quarantined IDE key is left. -/
def execMaintBufferScrub (s : State) : Host.Outcome State Fault Refusal :=
  .next (if !s.sec.scrubbing || s.sec.bufScrubbed || !allEvicted s then s
    else
      let s := s.descs.foldl removeDesc s
      clearBuffer { s.modSec (fun x => { x with bufScrubbed := true }) with staging := [] })

/-- Parked copies are lost without reports, and the holds that they imposed end. -/
def scrubParked (s : State) : State :=
  { s with groups := s.groups.filterMap (fun e =>
      let g : Group := { e.2 with parked := [], fallback := 0, pending := [] }
      if g = {} then none else some (e.1, g)) }

/-- SCRUB_DONE (R397 steps 4 and 5): every installed lot is zero, and the debug access opens. -/
def execScrubDone (s : State) : Host.Outcome State Fault Refusal :=
  .next (if !s.sec.scrubbing || !s.sec.bufScrubbed then s
    else
      let filled (l : Lot) : Lot := if l.st = 2 then { l with st := if l.owner = 0x1FF then 1 else 3 } else l
      let s := { scrubParked s with poolMem := [], poison := [], lots := s.lots.map (fun (e : Nat × Lot) => (e.1, filled e.2)) }
      s.modSec (fun x => { x with scrubbing := false, scrubDone := true }))

/-! The SPDM responder (R402). -/

/-- A block of Table 14.14. -/
def measurement (s : State) (i : Nat) : List Byte :=
  if i = 1 then Config.bootRomDigest
  else if i = 2 then s.sec.fwDigest
  else if i = 3 then s.sec.ownDigest
  else if i = 4 then
    leBytes 4 (s.keys.lifecycle + 256 * (s.sec.level + 256 * (modeNum s.mode + 256 * s.sec.keySlot))) ++ leBytes 4 s.sec.secVersion
      ++ leBytes 4 s.keys.minSec ++ leBytes 4 s.device.systemId.toNat
  else s.sec.chain

/-- The port answers configuration requests (R57, R331). -/
def answersCfg (s : State) (p : Nat) : Bool :=
  s.isUp p && (s.port p).link.dlUp
    && (s.inRunModes || s.mode == .maintenance || s.mode == .factory || (s.mode == .safe && s.fab.runSince.isSome))

/-- The response code and payload of a request. -/
def spdmAnswer (s : State) (r : SpdmReq) : Nat × List Byte :=
  let body := Config.spdmBody s.clock r
  match r with
  | .getVersion => (0x04, body)
  | .getCapabilities => (0x61, body)
  | .negotiateAlgorithms => (0x63, body)
  | .getDigests => (0x01, body)
  | .getCertificate slot => if slot = 0 then (0x02, body) else (0x7F, body)
  | .challenge slot _ => if slot = 0 then (0x03, body) else (0x7F, body)
  | .getMeasurements i signed =>
    if i = 0 then (0x60, [5] ++ if signed then body else [])
    else if i ≤ 5 then (0x60, measurement s i ++ if signed then body else [])
    else if i = 0xFF then (0x60, ([1, 2, 3, 4, 5].map (measurement s)).flatten ++ if signed then body else [])
    else (0x7F, body)
  | .other _ => (0x7F, body)

/-- SPDM_REQUEST: function 0 of an upstream port answers while the housekeeping controller runs. -/
def execSpdmRequest (port : PortId) (req : SpdmReq) (s : State) : Host.Outcome State Fault Refusal :=
  .next (if s.hkRunning ∧ answersCfg s port then (let r := spdmAnswer s req; s.emit (.spdm port r.1 r.2)) else s)

end Sys2Proof.Machine
end

