-- ==== Sys2Proof/Machine/Mailbox.lean ====
section
/-! DEFINITION. The mailbox commands: the order of checks of R66, and one meaning for each command row. -/

namespace Sys2Proof.Machine

/-- SLOT_POWER names a slot without a SLOT record, or no operation (R360). -/
def slotBad (s : State) (n op : Nat) : Bool := decide (23 < n) || (tfind s.cfg.slots n).isNone || decide (5 < op)

/-- Step 2 of R66: a wrong LEN, or a malformed payload. Reserved bytes have no effect (R17). -/
def argBad (s : State) (code : Nat) (b : List Byte) : Bool :=
  let n := b.length
  let x := leAt b 0 1
  match code with
  | 0x01 => n != 0
  | 0x02 => n != 4 || ackBad s x (leAt b 1 1) (leAt b 2 2)
  | 0x03 => n != 4 || (s.portRec x).isNone
  | 0x04 => decide (n < 8) || decide (1024 < n)
  | 0x05 => n != 4 || slotBad s x (leAt b 1 1)
  | 0x06 => n != 4 || decide (9 < x) || (tfind s.cfg.stations x).isNone
  | 0x07 => n != 16 || decide (18446744072 < leAt b 0 8)
  | 0x08 => n != 16 || leadBad s (leAt b 0 8) (propTime s)
  | 0x09 => n != 16 || leadBad s (leAt b 0 8) (2 * propTime s)
  | 0x0A => n != 4 || challengeBad s x
  | 0x0B => n != 128
  | 0x0C => n != 4 || decide (1 < x)
  | 0x0D => n != 16 || injectBad b
  | 0x0E => n != 4 || (s.tenantRec x).isNone
  | 0x0F => n != 8 || groupBad s (leAt b 0 2) (leAt b 2 1) (leAt b 3 1)
  | 0x10 => n != 0
  | _ => passwordBad b

/-- Step 3 of R66: the command is not legal in this mode, or conflicts with the state as its chapter says. -/
def conflicts (s : State) (code : Nat) (b : List Byte) (modes : List Mode) : Bool :=
  let x := leAt b 0 1
  match code with
  | 0x06 => !modes.contains s.mode || stationInUse s x
  | 0x07 => !modes.contains s.mode || setTimeConflict s (bitN (leAt b 8 4) 0)
  | 0x0A => !modes.contains s.mode || (x == 3 && s.mode != .maintenance)
  | 0x0B => !modes.contains s.mode || noChallenge s
  | 0x0C => if x = 0 then !s.inRunModes else s.mode != .maintenance
  | 0x10 => !modes.contains s.mode || resumeConflict s
  | _ => !modes.contains s.mode

/-- Step 4 of R66: a grant or the lock policy forbids it. -/
def denied (s : State) (code : Nat) (b : List Byte) : Bool :=
  let x := leAt b 0 1
  match code with
  | 0x03 => !granted s .containRelease x
  | 0x05 => leAt b 1 1 != 0 && !granted s .slotPower x
  | 0x09 => !granted s .routeEpoch 0
  | 0x0A => challengeDenied s x
  | 0x0B => unlockHeld s
  | 0x0C => decide (s.sec.level < 2 + x)
  | 0x0E => !granted s .tenantEvict x
  | 0x0F => leAt b 2 1 != 0 && !granted s .mcastMember (leAt b 0 2)
  | 0x10 => !warmResume s
  | 0x11 => !(lockRec s).passwordEn || unlockHeld s
  | _ => false

/-- Step 5 of R66. -/
def authFails (s : State) (code : Nat) (b : List Byte) (sig : Sig) : Bool :=
  match code with
  | 0x0B => responseFails s (BitVec.ofNat 256 (leAt b 0 32)) sig
  | 0x11 => passwordFails s b
  | _ => false

/-- Step 7 of R66: the command's own result. -/
def carryOut (s : State) (path : Path) (seq : Byte) (code : Nat) (b : List Byte) (run : RuntimeAssay) : State :=
  let x := leAt b 0 1
  match code with
  | 0x01 => cmdGetState s path seq
  | 0x02 => cmdAckFault s path seq x (leAt b 1 1) (leAt b 2 2)
  | 0x03 => cmdReleaseContain s path seq x
  | 0x04 => amendCmd s path seq (bitN x 0) (bitN x 1) (leAt b 4 4) (b.drop 8)
  | 0x05 => cmdSlotPower s path seq x (leAt b 1 1)
  | 0x06 => cmdAssayStation s path seq x run
  | 0x07 => cmdSetTime s path seq (leAt b 0 8) (bitN (leAt b 8 4) 0)
  | 0x08 => cmdSnapshotAt s path seq (w64 (leAt b 0 8)) (w32 (leAt b 8 4))
  | 0x09 => cmdRouteEpoch s path seq (leAt b 0 8) (w32 (leAt b 8 4))
  | 0x0A => cmdChallenge s path seq x
  | 0x0B => cmdResponse s path seq
  | 0x0C => cmdEnterMaint s path seq x
  | 0x0D => cmdInject s path seq b
  | 0x0E => cmdEvict s path seq x
  | 0x0F => cmdGroupAdmin s path seq (leAt b 0 2) (leAt b 2 1) (leAt b 3 1)
  | 0x10 => cmdResume s path seq
  | _ => cmdPassword s path seq

/-- A command answered with AUTH_FAIL; an UNLOCK_RESPONSE has consumed its challenge (R67, R395). -/
def failAuth (s : State) (path : Path) (seq : Byte) (code : Nat) : State :=
  authFail (if code = 0x0B then dropChallenge s else s) path seq

/-- The checks of R66 in their order, and the command. AMEND meets step 6 in its own course (R73, R74). -/
def runCode (s : State) (path : Path) (seq : Byte) (code : Nat) (b : List Byte) (sig : Sig) (run : RuntimeAssay) : State :=
  match legalModes code with
  | none => respondTo s path seq stBadCommand []
  | some modes =>
    if code = 0x09 ∧ !s.fabricMode then respondTo s path seq stBadCommand []
    else if argBad s code b then respondTo s path seq stBadArgument []
    else if conflicts s code b modes then respondTo (reportConflict s code seq path) path seq stStateConflict []
    else if denied s code b then respondTo s path seq stDenied []
    else if authFails s code b sig then failAuth s path seq code
    else if code ≠ 0x01 ∧ code ≠ 0x04 ∧ !s.hkRunning then respondTo s path seq stBusy []
    else carryOut s path seq code b run

/-- A command with its payload goes through the mailbox of its path (R64 to R66). -/
def issueWith (s : State) (path : Path) (seq : Byte) (code : Nat) (b : List Byte) (sig : Sig) (run : RuntimeAssay) : State :=
  if mayIssue s path then runCode (loadCmd s path seq code b) path seq code b sig run else s

def issue (s : State) (path : Path) (seq : Byte) (code : Nat) (b : List Byte) : State :=
  issueWith s path seq code b (Config.sigOf []) (Config.runtimeAssay 0 s.clock)

/-! One meaning for each row. -/

def execGetState (path : Path) (seq : Byte) (s : State) : Host.Outcome State Fault Refusal := .next (issue s path seq 0x01 [])

/-- The payload of ACK_FAULT. -/
def ackPayload (op level entry : Nat) : List Byte := leBytes 1 op ++ leBytes 1 level ++ leBytes 2 entry

def execAckFaultEntry (path : Path) (seq : Byte) (entry : W16) (s : State) : Host.Outcome State Fault Refusal :=
  .next (issue s path seq 0x02 (ackPayload 0 0 entry.toNat))

def execAckFaultUpToLevel (path : Path) (seq : Byte) (level : Byte) (s : State) : Host.Outcome State Fault Refusal :=
  .next (issue s path seq 0x02 (ackPayload 1 level.toNat 0))

def execAckFaultAll (path : Path) (seq : Byte) (s : State) : Host.Outcome State Fault Refusal :=
  .next (issue s path seq 0x02 (ackPayload 2 0 0))

def execReleaseContain (path : Path) (seq : Byte) (port : Byte) (s : State) : Host.Outcome State Fault Refusal :=
  .next (issue s path seq 0x03 (leBytes 4 port.toNat))

/-- The prefix of AMEND, and a record or a part of one. -/
def amendPayload (validate more : Bool) (off : W32) (bytes : List Byte) : List Byte :=
  leBytes 4 (flag validate 0 + flag more 1) ++ leBytes 4 off.toNat ++ bytes

def execAmend (path : Path) (seq : Byte) (validateOnly : Bool) (partOffset : W32) (bytes : List Byte) (s : State) :
    Host.Outcome State Fault Refusal :=
  .next (issue s path seq 0x04 (amendPayload validateOnly false partOffset bytes))

def execAmendPart (path : Path) (seq : Byte) (validateOnly : Bool) (partOffset : W32) (bytes : List Byte) (s : State) :
    Host.Outcome State Fault Refusal :=
  .next (issue s path seq 0x04 (amendPayload validateOnly true partOffset bytes))

/-- The payload of SLOT_POWER. -/
def slotPayload (slot : Byte) (op : Nat) : List Byte := leBytes 1 slot.toNat ++ leBytes 1 op ++ leBytes 2 0

def execSlotPowerRead (path : Path) (seq slot : Byte) (s : State) : Host.Outcome State Fault Refusal :=
  .next (issue s path seq 0x05 (slotPayload slot 0))

def execSlotPowerOn (path : Path) (seq slot : Byte) (s : State) : Host.Outcome State Fault Refusal :=
  .next (issue s path seq 0x05 (slotPayload slot 1))

def execSlotPowerForceOn (path : Path) (seq slot : Byte) (s : State) : Host.Outcome State Fault Refusal :=
  .next (issue s path seq 0x05 (slotPayload slot 2))

def execSlotPowerOff (path : Path) (seq slot : Byte) (s : State) : Host.Outcome State Fault Refusal :=
  .next (issue s path seq 0x05 (slotPayload slot 3))

def execSlotPowerOffDrain (path : Path) (seq slot : Byte) (s : State) : Host.Outcome State Fault Refusal :=
  .next (issue s path seq 0x05 (slotPayload slot 4))

def execSlotPowerClearLatch (path : Path) (seq slot : Byte) (s : State) : Host.Outcome State Fault Refusal :=
  .next (issue s path seq 0x05 (slotPayload slot 5))

def execAssayStation (path : Path) (seq station : Byte) (run : RuntimeAssay) (s : State) : Host.Outcome State Fault Refusal :=
  .next (issueWith s path seq 0x06 (leBytes 4 station.toNat) (Config.sigOf []) run)

def execSetTime (path : Path) (seq : Byte) (seconds : W64) (atNextPps : Bool) (s : State) : Host.Outcome State Fault Refusal :=
  .next (issue s path seq 0x07 (leBytes 8 seconds.toNat ++ leBytes 4 (flag atNextPps 0) ++ leBytes 4 0))

/-- The payload of SNAPSHOT_AT and ROUTE_EPOCH: a time and a word. -/
def timePayload (at_ : W64) (w : W32) : List Byte := leBytes 8 at_.toNat ++ leBytes 4 w.toNat ++ leBytes 4 0

def execSnapshotAt (path : Path) (seq : Byte) (at_ : W64) (snapId : W32) (s : State) : Host.Outcome State Fault Refusal :=
  .next (issue s path seq 0x08 (timePayload at_ snapId))

def execRouteEpoch (path : Path) (seq : Byte) (at_ : W64) (newTag : W32) (s : State) : Host.Outcome State Fault Refusal :=
  .next (issue s path seq 0x09 (timePayload at_ newTag))

def execUnlockChallenge (path : Path) (seq level : Byte) (s : State) : Host.Outcome State Fault Refusal :=
  .next (issue s path seq 0x0A (leBytes 4 level.toNat))

/-- The signature is an operand of the row; its 96 bytes are held as zeros. -/
def execUnlockResponse (path : Path) (seq : Byte) (nonce : BitVec 256) (sig : Sig) (s : State) : Host.Outcome State Fault Refusal :=
  .next (issueWith s path seq 0x0B (leBytes 32 nonce.toNat ++ List.replicate 96 0) sig (Config.runtimeAssay 0 s.clock))

def execEnterMaintTarget0 (path : Path) (seq : Byte) (s : State) : Host.Outcome State Fault Refusal :=
  .next (issue s path seq 0x0C (leBytes 4 0))

def execEnterMaintTarget1 (path : Path) (seq : Byte) (s : State) : Host.Outcome State Fault Refusal :=
  .next (issue s path seq 0x0C (leBytes 4 1))

/-- The payload of INJECT. -/
def injectPayload (op block us : Nat) (m : List Byte) : List Byte := leBytes 1 op ++ leBytes 1 block ++ leBytes 2 us ++ m

def execInjectMessage (path : Path) (seq : Byte) (msg : Msg) (s : State) : Host.Outcome State Fault Refusal :=
  .next (issue s path seq 0x0D (injectPayload 0 0 0 ((msgBytes msg).take 12)))

def execInjectRailAlarm (path : Path) (seq block : Byte) (durationUs : W16) (s : State) : Host.Outcome State Fault Refusal :=
  .next (issue s path seq 0x0D (injectPayload 1 block.toNat durationUs.toNat (List.replicate 12 0)))

def execInjectRailEqual (path : Path) (seq block : Byte) (durationUs : W16) (s : State) : Host.Outcome State Fault Refusal :=
  .next (issue s path seq 0x0D (injectPayload 2 block.toNat durationUs.toNat (List.replicate 12 0)))

def execInjectD2dBreak (path : Path) (seq : Byte) (durationUs : W16) (s : State) : Host.Outcome State Fault Refusal :=
  .next (issue s path seq 0x0D (injectPayload 3 0 durationUs.toNat (List.replicate 12 0)))

def execEvictTenant (path : Path) (seq tenant : Byte) (s : State) : Host.Outcome State Fault Refusal :=
  .next (issue s path seq 0x0E (leBytes 4 tenant.toNat))

/-- The payload of GROUP_ADMIN. -/
def groupPayload (group : W16) (op : Nat) (dest : Byte) : List Byte :=
  leBytes 2 group.toNat ++ leBytes 1 op ++ leBytes 1 dest.toNat ++ leBytes 4 0

def execGroupAdminRead (path : Path) (seq : Byte) (group : W16) (dest : Byte) (s : State) : Host.Outcome State Fault Refusal :=
  .next (issue s path seq 0x0F (groupPayload group 0 dest))

def execGroupAdminAdd (path : Path) (seq : Byte) (group : W16) (dest : Byte) (s : State) : Host.Outcome State Fault Refusal :=
  .next (issue s path seq 0x0F (groupPayload group 1 dest))

def execGroupAdminRemove (path : Path) (seq : Byte) (group : W16) (dest : Byte) (s : State) : Host.Outcome State Fault Refusal :=
  .next (issue s path seq 0x0F (groupPayload group 2 dest))

def execResume (path : Path) (seq : Byte) (s : State) : Host.Outcome State Fault Refusal := .next (issue s path seq 0x10 [])

def execPasswordUnlock (path : Path) (seq : Byte) (password : List Byte) (s : State) : Host.Outcome State Fault Refusal :=
  .next (issue s path seq 0x11 (leBytes 4 password.length ++ password))

end Sys2Proof.Machine
end

