-- ==== Sys2Proof/Machine/RegWrite.lean ====
section
/-! DEFINITION. What a write of each register does: BAR0, the bridges, the functions of a VH and the VFs (chapters 4 to 11 and 15).
The manual gives no places to the capabilities of configuration space: a register is numbered by its offset in its own capability,
above a base for each capability. -/

namespace Sys2Proof.Machine

/-! BAR0: access types (Table 0.4, R406, R407). -/

/-- The fields of a register that a write of 1 clears, 0 for none. -/
def w1cMask (off : Nat) : Nat :=
  let x := off % 0x100000
  match off / 0x100000 with
  | 0x2 => if 0x50000 ≤ x then 0
           else match x % 0x1000 with | 0x04 => 0x3FF | 0x4C => 0x1F | 0x94 => 0xF | _ => 0
  | 0x3 => if x < 0x50000 ∧ x % 0x1000 = 0x20 then 0xF else 0
  | 0x4 => if x < 0x10000 ∧ x % 64 = 0x24 then 0x1F else 0
  | 0x7 => if x < 0x200 ∧ x % 0x100 = 4 then 0xF else 0
  | 0x8 => if x = 0x08 then 0x1FFF else if x = 0x24 then 2 else 0
  | 0x9 => if x = 0x0C then 0x1F else 0
  | 0xA => if x < 0x1800 ∧ x % 0x100 = 4 then 0x3FF else 0
  | 0xB => if x = 0x1C then 0x3F else 0
  | 0xD => if x = 0x04 then 1 else if x = 0x0C then 0x3FFF else 0
  | 0xE => if x = 0x04 then 0x1F else 0
  | _ => 0

/-- The fields of a register that software reads and writes, 0 for none. -/
def rwMask (s : State) (off : Nat) : Nat :=
  let x := off % 0x100000
  match off / 0x100000 with
  | 0x1 => if x < 0xA0000 ∧ x % 0x10000 = 0x8000 ∧ (tfind s.cfg.stations (x / 0x10000)).isSome then 0xFFFF else 0
  | 0x6 => if x = 0x10000 then 0xFFFF801F else 0
  | 0x7 => if x = 0x400 then 0x1FFF else 0
  | 0x8 => if x = 0x28 ∨ x = 0x2C then 0xFFFFFFFF else 0
  | 0x9 => if x = 0x80 then 0x3FF else if x = 0x80000 then 0xFF else 0
  | _ => 0

/-- A plain register takes a write. -/
def writePlain (s : State) (off : Nat) (be : BitVec 4) (v : W32) : State :=
  let c := w1cMask off
  let r := rwMask s off
  if c ≠ 0 then s.setReg off (w1cWrite (s.reg off) (v &&& w32 c) be)
  else if r ≠ 0 then s.setReg off (rwWrite (s.reg off) v be &&& w32 r)
  else s

/-- FAB_GOPCTL: with GO, an operation starts (R279, R280). -/
def writeGop (s : State) (be : BitVec 4) (v : W32) : State :=
  let new := rwWrite (s.reg (offFab 0x20)) v be
  let s := gopWrite s (bitsN new.toNat 16 8) (bitsN new.toNat 0 3)
  let op := bitsN new.toNat 0 3
  if !(be.getLsbD 1 && bitN v.toNat 8) then s
  else if op = 2 then cancelBarrier s
  else if s.fab.gopBusy then s
  else if op = 0 then startBarrier s (bitsN new.toNat 16 8)
  else if op = 1 then startBroadcast s
  else if op = 3 ∧ be.getLsbD 3 ∧ bitsN v.toNat 24 8 = 0xA5 then startFabricReset s
  else s

/-- The command of MBX_CMD with the payload of MBX_DATA is started by GO. -/
def goCmd (s : State) (p : Path) : State :=
  let w := s.mbx.cmd.toNat
  let seq := BitVec.ofNat 8 (bitsN w 24 8)
  let code := bitsN w 0 8
  let b := payloadOf s.mbx (bitsN w 8 11)
  let s := s.modMbx (fun m => { m with busy := true, active := some { path := p, seq := seq, code := code, since := s.clock } })
  runCode s p seq code b (Config.sigOf ((b.drop 32).take 96)) (Config.runtimeAssay (leAt b 0 1) s.clock)

/-- The MBX block (Table 2.16, R64): only the holder's writes count, and while BUSY neither a command nor its data change. -/
def writeMbx (s : State) (p : Path) (x : Nat) (be : BitVec 4) (v : W32) : State :=
  if 0x1000 ≤ x ∧ x < 0x1020 then
    let i := (x - 0x1000) / 4
    flushMf (s.setReg (offMsix (4 * i)) (rwWrite (mfMsixWord s i) v be ^^^ (if i % 4 = 3 then 1 else 0)))
  else if s.mbx.owner ≠ some p then s
  else
    let s := touchMbx s
    if x = 0x004 then
      let bit (i : Nat) : Bool := be.getLsbD 0 && bitN v.toNat i
      if s.mbx.busy then s else if bit 0 then (let t := goCmd s p; if bit 1 && !t.mbx.busy then releaseMbx t else t)
      else if bit 1 then releaseMbx s else s
    else if x = 0x008 then (if be.getLsbD 0 && bitN v.toNat 1 then s.modMbx (fun m => { m with done := false }) else s)
    else if s.mbx.busy then s
    else if x = 0x00C then s.modMbx (fun m => { m with cmd := rwWrite m.cmd v be &&& 0xFF07FFFF })
    else if 0x400 ≤ x ∧ x < 0x800 then
      let i := (x - 0x400) / 4
      s.modMbx (fun m => { m with data := tset 0 m.data i (rwWrite (tget 0 m.data i) v be) })
    else s

/-- A write of one double word of BAR0. -/
def writeReg (s : State) (p : Path) (off : Nat) (be : BitVec 4) (v : W32) : State :=
  if 0x20000 ≤ off ∧ off < 0x30000 then writeMbx s p (off - 0x20000) be v
  else if off = offFab 0x20 then writeGop s be v
  else
    let s := writePlain s off be v
    if off = offFlt 0x0C ∧ be.getLsbD 0 ∧ bitN v.toNat 2 then s.modCupel (fun c => { c with ovf := 0 }) else s

/-- Double words written in ascending order, with the byte enables of the first and the last. -/
def writeRegs (s : State) (p : Path) (off : Nat) (be : Nat → BitVec 4) : Nat → List W32 → State
  | _, [] => s
  | i, v :: r => writeRegs (writeReg s p (off + 4 * i) (be i) v) p off be (i + 1) r

/-! A bridge's configuration space. -/

/-- Bits that a 16-bit field at bit `lo` of a word has. -/
def half (w : W32) (lo : Nat) : Nat := bitsN w.toNat lo 16

/-- Window `i` of a list; one that has not been written is closed, its base above its limit. -/
def winAt (l : List (Nat × Nat)) (i : Nat) : Nat × Nat := l.getD i (0x100000, 0xFFFFF)

def setWin (l : List (Nat × Nat)) (i : Nat) (w : Nat × Nat) : List (Nat × Nat) :=
  (List.range (max l.length (i + 1))).map (fun k => if k = i then w else winAt l k)

/-- Base and limit registers of a memory window, as the Base Specification lays them out. -/
def winWord (w : Nat × Nat) : W32 := w32 (fld (w.1 / 2 ^ 20) 4 12 + fld (w.2 / 2 ^ 20) 20 12)

def winOfWord (w : Nat × Nat) (v : W32) : Nat × Nat :=
  (w.1 / 2 ^ 32 * 2 ^ 32 + bitsN v.toNat 4 12 * 2 ^ 20, w.2 / 2 ^ 32 * 2 ^ 32 + bitsN v.toNat 20 12 * 2 ^ 20 + 0xFFFFF)

def ioWord (w : Nat × Nat) : W32 := w32 (fld (w.1 / 4096) 4 4 + fld (w.2 / 4096) 12 4)

def ioOfWord (w : Nat × Nat) (v : W32) : Nat × Nat :=
  (w.1 / 65536 * 65536 + bitsN v.toNat 4 4 * 4096, w.2 / 65536 * 65536 + bitsN v.toNat 12 4 * 4096 + 0xFFF)

/-- The Type 1 header: Command, bus numbers, windows and Bridge Control. -/
def writeHeader (b : Bridge) (x : Nat) (be : BitVec 4) (v : W32) : Bridge :=
  let mem (i : Nat) (f : Nat × Nat → Nat × Nat) : Bridge := { b with memWin := setWin b.memWin i (f (winAt b.memWin i)) }
  let io (f : Nat × Nat → Nat × Nat) : Bridge := { b with ioWin := setWin b.ioWin 0 (f (winAt b.ioWin 0)) }
  match x with
  | 0x04 => if be.getLsbD 1 then { b with cmdSerr := bitN v.toNat 8 } else b
  | 0x18 => { b with secondary := if be.getLsbD 1 then bitsN v.toNat 8 8 else b.secondary,
                     subordinate := if be.getLsbD 2 then bitsN v.toNat 16 8 else b.subordinate }
  | 0x1C => io (fun w => ioOfWord w (rwWrite (ioWord w) v be))
  | 0x20 => mem 0 (fun w => winOfWord w (rwWrite (winWord w) v be))
  | 0x24 => mem 1 (fun w => winOfWord w (rwWrite (winWord w) v be))
  | 0x28 => mem 1 (fun w => ((rwWrite (w32 (w.1 / 2 ^ 32)) v be).toNat * 2 ^ 32 + w.1 % 2 ^ 32, w.2))
  | 0x2C => mem 1 (fun w => (w.1, (rwWrite (w32 (w.2 / 2 ^ 32)) v be).toNat * 2 ^ 32 + w.2 % 2 ^ 32))
  | 0x30 => io (fun w =>
      let n := rwWrite (w32 (fld (w.1 / 65536) 0 16 + fld (w.2 / 65536) 16 16)) v be
      (half n 0 * 65536 + w.1 % 65536, half n 16 * 65536 + w.2 % 65536))
  | 0x3C => if be.getLsbD 2 then { b with brSerr := bitN v.toNat 17 } else b
  | _ => b

/-- PCI Express capability (base 0x1000): Device Control, Link Control, Device Control 2. -/
def writePcie (b : Bridge) (x : Nat) (be : BitVec 4) (v : W32) : Bridge :=
  match x with
  | 0x08 => if be.getLsbD 0 then { b with errEnables := BitVec.ofNat 4 (bitsN v.toNat 0 4) } else b
  | 0x10 => { b with aspm := if be.getLsbD 0 then BitVec.ofNat 2 (bitsN v.toNat 0 2) else b.aspm,
                     hawDisable := if be.getLsbD 1 then bitN v.toNat 9 else b.hawDisable }
  | 0x28 => { b with atomicBlock := if be.getLsbD 0 then bitN v.toNat 7 else b.atomicBlock,
                     prefixBlock := if be.getLsbD 1 then bitN v.toNat 15 else b.prefixBlock }
  | _ => b

/-- The AER bits that a bridge implements (R296). -/
def uncBits : W32 := w32 (2 ^ 4 + 2 ^ 5 + 2 ^ 13 + 2 ^ 14 + 2 ^ 15 + 2 ^ 17 + 2 ^ 18 + 2 ^ 20 + 2 ^ 21 + 2 ^ 22 + 2 ^ 23 + 2 ^ 24 + 2 ^ 25)
def corBits : W32 := w32 (2 ^ 0 + 2 ^ 6 + 2 ^ 7 + 2 ^ 8 + 2 ^ 12 + 2 ^ 14 + 2 ^ 15)

/-- The first entry of an error's bit leaves the header log. -/
def dropHdr : List (Nat × List Nat) → Nat → List (Nat × List Nat)
  | [], _ => []
  | e :: r, bit => if e.1 = bit then r else e :: dropHdr r bit

/-- A write to the status register: each bit written 1 gives up its first header, and stays set while the log holds another of it.
First Error Pointer then names the oldest entry, unless the error that it names is still there. PRESUMED, log entry 101. -/
def clearUnc (b : Bridge) (v : W32) (be : BitVec 4) : Bridge :=
  let n := w1cWrite b.uncStatus v be
  let gone := (List.range 32).filter (fun i => w32Bit b.uncStatus i && !w32Bit n i)
  let log := gone.foldl dropHdr b.hdrLog
  let n := log.foldl (fun a e => if gone.contains e.1 then setBit32 a e.1 else a) n
  { b with uncStatus := n, hdrLog := log,
           firstErr := if gone.contains b.firstErr || !w32Bit n b.firstErr then (match log with | e :: _ => e.1 | [] => b.firstErr)
                       else b.firstErr }

/-- AER (base 0x2000). Clearing the status that the first error pointer names moves the header log on (R297). Multiple Header Recording Enable is
held as written; R297 gives the log its four entries whatever it holds (log entry 101). -/
def writeAer (b : Bridge) (x : Nat) (be : BitVec 4) (v : W32) : Bridge :=
  match x with
  | 0x04 => clearUnc b v be
  | 0x08 => { b with uncMask := rwWrite b.uncMask v be &&& uncBits }
  | 0x0C => { b with uncSev := rwWrite b.uncSev v be &&& uncBits }
  | 0x10 => { b with corStatus := w1cWrite b.corStatus v be }
  | 0x14 => { b with corMask := rwWrite b.corMask v be &&& corBits }
  | 0x18 => if be.getLsbD 1 then { b with mhrEn := bitN v.toNat 10 } else b
  | _ => b

/-- ACS (0x3000), multicast blocking (0x4000), DPC (0x5000) and KEX (0x6000). -/
def writeExt (b : Bridge) (x : Nat) (be : BitVec 4) (v : W32) : Bridge :=
  match x with
  | 0x3004 => if be.getLsbD 2 then { b with acsCtl := BitVec.ofNat 7 (bitsN v.toNat 16 7) } else b
  | 0x3008 => { b with egressVec := rwWrite b.egressVec v be }
  | 0x4018 => { b with blockAll := w64 ((rwWrite (w32 (b.blockAll.toNat % 2 ^ 32)) v be).toNat + b.blockAll.toNat / 2 ^ 32 * 2 ^ 32) }
  | 0x401C => { b with blockAll := w64 (b.blockAll.toNat % 2 ^ 32 + (rwWrite (w32 (b.blockAll.toNat / 2 ^ 32)) v be).toNat * 2 ^ 32) }
  | 0x5004 => if be.getLsbD 2 then { b with dpcEnable := BitVec.ofNat 2 (bitsN v.toNat 16 2) } else b
  | 0x600C => { b with kexLast := w1cWrite b.kexLast (v &&& 1) be }
  | _ => b

def writeBridge (b : Bridge) (x : Nat) (be : BitVec 4) (v : W32) : Bridge :=
  if x < 0x1000 then writeHeader b x be v
  else if x < 0x2000 then writePcie b (x - 0x1000) be v
  else if x < 0x3000 then writeAer b (x - 0x2000) be v
  else writeExt b x be v

/-- In Safe a configuration write takes effect only in the AER status bits; DPC Trigger Status has its own command (R331). -/
def safeBridgeReg (x : Nat) : Bool := x == 0x2004 || x == 0x2010

/-- ACS, DPC and the downstream bridge's link control stand in downstream bridges only. -/
def bridgeReg (s : State) (x : PortChip) (r : Nat) : Bool :=
  match vhOfBridge s x with
  | none => false
  | some v => !(v.upPort == x.port && v.upChip == x.chip && (r / 0x1000 == 3 || r / 0x1000 == 5))

/-! Functions of a VH. -/

/-- The value of a 64-bit register after a write of its low or high word; `keep` are the low bits that stay 0. -/
def write64 (old : Nat) (high : Bool) (be : BitVec 4) (v : W32) : Nat :=
  if high then old % 2 ^ 32 + (rwWrite (w32 (old / 2 ^ 32)) v be).toNat * 2 ^ 32
  else (rwWrite (w32 (old % 2 ^ 32)) v be).toNat + old / 2 ^ 32 * 2 ^ 32

def alignTo (n size : Nat) : Nat := n / size * size

/-- A BAR of `size` bytes after a write of one of its words. -/
def writeBar (old : Option Nat) (size : Nat) (high : Bool) (be : BitVec 4) (v : W32) : Option Nat :=
  some (alignTo (write64 (old.getD 0) high be v) size)

/-- INDEX_POS outside 12..47 is stored as 12 (R158). -/
def clampPos (n : Nat) : Nat := if n < 12 ∨ 47 < n then 12 else n

/-- The group that MCX_SEL names exists in the VH. -/
def selGroup (s : State) (vn : Nat) : Bool := (groupOf s vn (s.vh vn).mcxSel).isSome

def modRing (x : Vh) (f : RptRing → RptRing) : Vh := { x with rings := tset {} x.rings x.mcxSel (f (tget {} x.rings x.mcxSel)) }

/-- The Kerene Multicast Extension (Table 5.14). -/
def writeMcx (s : State) (vn r : Nat) (be : BitVec 4) (v : W32) : State :=
  let x := s.vh vn
  let n (old : Nat) : Nat := (rwWrite (w32 old) v be).toNat
  let ring (f : RptRing → RptRing) : State := if selGroup s vn then s.modVh vn (fun y => modRing y f) else s
  match r with
  | 0x08 => if be.getLsbD 0 then s.modVh vn (fun y => { y with mcxEnable := bitN v.toNat 0 }) else s
  | 0x0C => if be.getLsbD 0 then s.modVh vn (fun y => { y with mcxIndexPos := clampPos (bitsN v.toNat 0 6) }) else s
  | 0x10 => s.modVh vn (fun y => { y with mcxBase := w64 (alignTo (write64 x.mcxBase.toNat false be v) 4096) })
  | 0x14 => s.modVh vn (fun y => { y with mcxBase := w64 (write64 x.mcxBase.toNat true be v) })
  | 0x18 => s.modVh vn (fun y => { y with mcxCount := n x.mcxCount % 2048 })
  | 0x1C => s.modVh vn (fun y => { y with mcxSel := n x.mcxSel % 1024 })
  | 0x20 => ring (fun q => { q with addr := w64 (alignTo (write64 q.addr.toNat false be v) 32) })
  | 0x24 => ring (fun q => { q with addr := w64 (write64 q.addr.toNat true be v) })
  | 0x28 => if be.getLsbD 0 then ring (fun q => { q with en := bitN v.toNat 4, log2 := max 4 (bitsN v.toNat 0 4) }) else s
  | _ => s

/-- Every VF of the VH takes its BARs from the SR-IOV VF BAR, in the order of their numbers (R237, R238). -/
def setVfBars (s : State) (vn base size : Nat) (two : Bool) : State :=
  (vhTenants s vn).zipIdx.foldl (fun a e =>
    a.modVf e.1 (fun x => if two then { x with bar2 := some (base + size * e.2) } else { x with bar0 := some (base + size * e.2) })) s

/-- The VF BAR in force: the first VF's. -/
def vfBarOf (s : State) (vn : Nat) (two : Bool) : Option Nat :=
  match vhTenants s vn with
  | t :: _ => if two then (s.vf t).bar2 else (s.vf t).bar0
  | [] => none

def writeVfBar (s : State) (vn : Nat) (two high : Bool) (be : BitVec 4) (v : W32) : State :=
  let size := if two then 2 ^ windowLog2 s else 0x20000
  match writeBar (vfBarOf s vn two) size high be v with
  | some b => setVfBars s vn b size two
  | none => s

/-- The standard Multicast capability of the upstream bridge (base 0x100). -/
def writeMc (s : State) (vn r : Nat) (be : BitVec 4) (v : W32) : State :=
  let x := s.vh vn
  match r with
  | 0x04 => s.modVh vn (fun y => { y with mcNumGroup := if be.getLsbD 2 then bitsN v.toNat 16 6 else y.mcNumGroup,
                                          mcEnable := if be.getLsbD 3 then bitN v.toNat 31 else y.mcEnable })
  | 0x08 => s.modVh vn (fun y => { y with mcBase := w64 (alignTo (write64 x.mcBase.toNat false be v) 4096),
                                          mcIndexPos := if be.getLsbD 0 then bitsN v.toNat 0 6 else y.mcIndexPos })
  | 0x0C => s.modVh vn (fun y => { y with mcBase := w64 (write64 x.mcBase.toNat true be v) })
  | _ => s

/-- Functions 1 and 2 and what a VH holds once: the MF's BARs (0x200), the VF BARs and VF Memory Space Enable (0x300), Max_Payload_Size
(0x400) and the primary bus number (0x500). -/
def writeFn (s : State) (vn r : Nat) (be : BitVec 4) (v : W32) : State :=
  let x := s.vh vn
  let mf := vn == s.device.managerVh
  match r with
  | 0x200 => if mf then s.modVh vn (fun y => { y with mfBar0 := writeBar x.mfBar0 0x1000000 false be v }) else s
  | 0x204 => if mf then s.modVh vn (fun y => { y with mfBar0 := writeBar x.mfBar0 0x1000000 true be v }) else s
  | 0x208 => if mf then s.modVh vn (fun y => { y with mfBar2 := writeBar x.mfBar2 0x200000 false be v }) else s
  | 0x20C => if mf then s.modVh vn (fun y => { y with mfBar2 := writeBar x.mfBar2 0x200000 true be v }) else s
  | 0x300 => writeVfBar s vn false false be v
  | 0x304 => writeVfBar s vn false true be v
  | 0x308 => writeVfBar s vn true false be v
  | 0x30C => writeVfBar s vn true true be v
  | 0x310 => if be.getLsbD 0 then s.modVh vn (fun y => { y with vfMem := bitN v.toNat 3 }) else s
  | 0x400 => if be.getLsbD 0 then s.modVh vn (fun y => { y with mps := 128 * 2 ^ min (bitsN v.toNat 5 3) 5 }) else s
  | 0x500 => if be.getLsbD 0 then s.modVh vn (fun y => { y with primaryBus := bitsN v.toNat 0 8 }) else s
  | _ => s

def writeVh (s : State) (vn r : Nat) (be : BitVec 4) (v : W32) : State :=
  if r < 0x100 then writeMcx s vn r be v
  else if r < 0x200 then writeMc s vn (r - 0x100) be v
  else writeFn s vn r be v

/-! A VF's BAR0 (Table 8.3, R224). -/

/-- A double word of the ring; one of a descriptor in progress is ignored (R240). -/
def writeRing (s : State) (t i : Nat) (be : BitVec 4) (v : W32) : State :=
  if (s.vf t).jobs.any (fun j => j.entry == i / 8) then s
  else s.modVf t (fun x => { x with ring := tset 0 x.ring i (rwWrite (tget 0 x.ring i) v be) })

/-- A double word of the VF's BAR0: the control page and VIEW_PAGE; above 128 KiB stands Device Control of its own function. -/
def writeVf (s : State) (t off : Nat) (be : BitVec 4) (v : W32) : State :=
  if off = 0x08 then s.modVf t (fun x => { x with evt := BitVec.ofNat 6 (w1cWrite (w32 x.evt.toNat) v be).toNat })
  else if off = 0x0C then s.modVf t (fun x => { x with evtMask := BitVec.ofNat 6 (rwWrite (w32 x.evtMask.toNat) v be).toNat })
  else if off = 0x10 then s.modVf t (fun x => { x with tail := BitVec.ofNat 6 (rwWrite (w32 x.tail.toNat) v be).toNat })
  else if 0x400 ≤ off ∧ off < 0xC00 then writeRing s t ((off - 0x400) / 4) be v
  else if 0xC00 ≤ off ∧ off < 0xC40 then
    let i := (off - 0xC00) / 4
    flushMsix (s.modVf t (fun x => { x with
      msix := tset 0 x.msix i (rwWrite (msixWord x i) v be ^^^ (if i % 4 = 3 then 1 else 0)) })) t
  else if off = 0x10404 then
    (if be.getLsbD 0 then s.modVf t (fun x => { x with viewPage := BitVec.ofNat 3 (bitsN v.toNat 0 3) }) else s)
  else if off = 0x20008 then
    (if be.getLsbD 1 then s.modVf t (fun x => { x with mrrs := 128 * 2 ^ min (bitsN v.toNat 12 3) 5 }) else s)
  else s

/-- ASPM Control and Hardware Autonomous Width Disable of a downstream port take effect only through the VH that the port's VH field names; the
PORT record of another chip's port is not known here (R98). -/
def linkCtlOpen (s : State) (x : PortChip) : Bool :=
  if x.chip = s.chipId ∧ s.isDown x.port then
    (match s.portRec x.port, vhNumOf s x with | some r, some vn => r.vh == vn | _, _ => false)
  else true

/-- A write to bridge register `r`. What a VH holds once of the Multicast capability is written through any of its bridges (R144). -/
def writeBridgeReg (s : State) (x : PortChip) (r : Nat) (be : BitVec 4) (v : W32) : State :=
  if r = 0x4004 ∨ r = 0x4008 ∨ r = 0x400C then (match vhNumOf s x with | some vn => writeMc s vn (r - 0x4000) be v | none => s)
  else if r = 0x1010 ∧ !linkCtlOpen s x then s
  else s.modBridge (bridgeKey s x) (fun b => writeBridge b r be v)

/-- A VF answers its tenant (R203, R246). -/
def vfOpenTo (s : State) (t : Nat) : Bool :=
  (s.tenantRec t).isSome && (tfind s.evict t).isNone && (s.vf t).flr.isNone && s.inRunModes

/-! REGISTER_WRITE. -/

/-- What a path reaches in the present mode: in Load and Assay the MBX block alone (R414). -/
def windowOpen (s : State) (p : Path) (off : Nat) : Bool :=
  pathOpen s p && ((s.mode != .load && s.mode != .assay) || (decide (0x20000 ≤ off) && decide (off < 0x30000)))

/-- Configuration writes take effect. -/
def cfgWrites (s : State) : Bool := s.inRunModes || s.mode == .maintenance || s.mode == .factory

def execRegisterWrite (target : RegTarget) (be : BitVec 4) (value : W32) (s : State) : Host.Outcome State Fault Refusal :=
  .next (match target with
    | .bar0 p off => if windowOpen s p off ∧ off % 4 = 0 ∧ off < 0x1000000 then writeReg s p off be value else s
    | .bridge chip port r =>
      let x : PortChip := { port := port, chip := chip }
      if bridgeReg s x r ∧ (cfgWrites s ∨ (s.mode = .safe ∧ safeBridgeReg r)) then writeBridgeReg s x r be value else s
    | .vh vn r =>
      if (s.vhRec vn).isSome ∧ (cfgWrites s ∨ (s.mode = .safe ∧ 0x200 ≤ r ∧ r < 0x210)) then writeVh s vn r be value else s
    | .vf t off => if vfOpenTo s t ∧ off % 4 = 0 then writeVf s t off be value else s)

/-! Bridge writes that have rows of their own. -/

/-- MC_RECEIVE_WRITE (R145): each bit adds or removes the bridge's port, on this chip or another, in a group of its VH, where the grant allows
it. -/
def mcReceive (s : State) (x : PortChip) (vn : Nat) (bits : W64) : State :=
  (s.cfg.mcasts.filter (fun e => e.2.vh == vn && decide (e.2.vhIndex < 64))).foldl (fun a e =>
    match e.2.dests.idxOf? x with
    | none => a
    | some k =>
      if !granted a .mcastMember e.1 ∨ (a.group e.1).members.getLsbD k = bits.getLsbD e.2.vhIndex then a
      else groupAdmin a e.1 (if bits.getLsbD e.2.vhIndex then 1 else 2) k) s

def execMcReceiveWrite (a : ChipPort) (bits : W64) (s : State) : Host.Outcome State Fault Refusal :=
  let x : PortChip := { port := a.port, chip := a.chip }
  .next (match vhNumOf s x with
    | some vn => if cfgWrites s then mcReceive s x vn bits else s
    | none => s)

/-- DPC is enabled at a port's bridge. -/
def dpcOn (s : State) (p : Nat) : Bool := (s.bridge p).dpcEnable == 1 || (s.bridge p).dpcEnable == 2

/-- DPC_SOFTWARE_TRIGGER: it acts while DPC is enabled, and is ignored while DPC Trigger Status reads 1 (R304). -/
def execDpcSoftwareTrigger (port : PortId) (s : State) : Host.Outcome State Fault Refusal :=
  .next (if s.isDown port ∧ s.inRunModes ∧ dpcOn s port ∧ !dpcHeld s port then dpcContain s port 2 3 else s)

/-- The host's clear of DPC Trigger Status releases a port contained with cause DPC_SOFTWARE, DPC_ERROR or SURPRISE_DOWN, but not
while its station is under runtime Assay (Table 10.5, R383). -/
def execDpcTriggerStatusClear (port : PortId) (s : State) : Host.Outcome State Fault Refusal :=
  .next (let c := (s.port port).contain
    if s.isDown port ∧ s.mode ≠ .reset ∧ c.phase = 2 ∧ (c.cause = 1 ∨ c.cause = 2 ∨ c.cause = 3) ∧ !underRuntime s port then
      releasePort s port
    else s)

/-! The I3C target (R411 to R414). -/

/-- R405 allows the access: aligned, 1 to 16 double words, within one block of 64 bytes. -/
def accessOk (off n : Nat) : Bool := off % 4 == 0 && decide (1 ≤ n) && decide (n ≤ 16) && decide (off % 64 + 4 * n ≤ 64)

/-- Double words from bytes, least significant first. -/
def wordsFrom : Nat → List Byte → List W32
  | 0, _ => []
  | k + 1, l => if l = [] then [] else w32 (leNat (l.take 4)) :: wordsFrom k (l.drop 4)

/-- I3C_WRITE: the write is carried out, or discarded with the rejection kept for the next status. -/
def execI3cWrite (off : Nat) (bytes : List Byte) (s : State) : Host.Outcome State Fault Refusal :=
  .next (if s.mode = .reset then s
    else
      let off := off % 0x1000000
      let n := bytes.length / 4
      if bytes.length % 4 ≠ 0 then s
      else if !accessOk off n || !windowOpen s .i3c off then { s with i3c := { s.i3c with rejected := true } }
      else writeRegs s .i3c off (fun _ => 15) 0 (wordsFrom n bytes))

/-- I3C_READ_SETUP replaces an earlier one. -/
def execI3cReadSetup (off : Nat) (count : Nat) (s : State) : Host.Outcome State Fault Refusal :=
  .next (if s.mode = .reset then s else { s with i3c := { s.i3c with setup := some (off % 0x1000000, count % 256) } })

/-- I3C_PRIVATE_READ: the status, and the double words where it is OK. -/
def execI3cPrivateRead (s : State) : Host.Outcome State Fault Refusal :=
  .next (if s.mode = .reset then s
    else
      let w := if s.i3c.rejected then 128 else 0
      let t := { s with i3c := { s.i3c with setup := none, rejected := false } }
      let say (n : Nat) : State := t.emit (.i3cRead (BitVec.ofNat 8 (w + n)) [])
      match s.i3c.setup with
      | none => say 3
      | some (off, n) =>
        if !accessOk off n then say 1
        else if !windowOpen s .i3c off then say 2
        else (let r := readRegs t .i3c off (fun _ => 15) n; r.1.emit (.i3cRead (BitVec.ofNat 8 w) r.2)))

/-- I3C_ADDRESS_ASSIGN: SETDASA or ENTDAA gives the target its dynamic address. -/
def execI3cAddressAssign (addr : BitVec 7) (s : State) : Host.Outcome State Fault Refusal :=
  .next (if s.mode = .reset then s else { s with i3c := { s.i3c with dynamic := some addr.toNat } })

end Sys2Proof.Machine
end

