-- ==== Sys2Proof/Machine/CfgSpace.lean ====
section
/-! DEFINITION. What a read of the device's own configuration space returns: of each register the bits that the manual and the state give; the
others are free (log entry 19). Registers are numbered as REGISTER_WRITE numbers them (log entry 73). -/

namespace Sys2Proof.Machine

/-- A register as far as it is given: `value` in the bits of `mask`. -/
structure CfgWord where
  mask  : Nat
  value : Nat
  deriving DecidableEq, Repr

def CfgWord.free : CfgWord := ⟨0, 0⟩
def CfgWord.whole (v : Nat) : CfgWord := ⟨0xFFFFFFFF, v⟩

/-- The given bits, over free ones. -/
def CfgWord.over (w : CfgWord) (free : W32) : W32 := w32 (w.value &&& w.mask) ||| (free &&& ~~~ w32 w.mask)

/-- The header of an extended capability; its version and next pointer are not given. -/
def capHeader (id : Nat) : CfgWord := ⟨0xFFFF, id⟩

/-- The vendor-specific header: VSEC ID, revision and length. -/
def vsecHeader (id rev len : Nat) : CfgWord := .whole (fld len 20 12 + fld rev 16 4 + fld id 0 16)

/-! Bridges. -/

/-- Bridge `x` is the upstream bridge of its VH. -/
def isUpBridge (s : State) (x : PortChip) : Bool :=
  match vhOfBridge s x with | some v => v.upPort == x.port && v.upChip == x.chip | none => false

/-- The bus above a bridge. -/
def primaryOf (s : State) (x : PortChip) : Nat :=
  match vhOfBridge s x, vhNumOf s x with
  | some v, some n =>
    if v.upPort = x.port ∧ v.upChip = x.chip then (s.vh n).primaryBus else (s.bridge (bridgeKey s { port := v.upPort, chip := v.upChip })).secondary
  | _, _ => 0

/-- The Type 1 header. -/
def headerWord (s : State) (x : PortChip) (b : Bridge) (r : Nat) : CfgWord :=
  match r with
  | 0x04 => ⟨2 ^ 8, flag b.cmdSerr 8⟩
  | 0x18 => ⟨0xFFFFFF, fld b.subordinate 16 8 + fld b.secondary 8 8 + fld (primaryOf s x) 0 8⟩
  | 0x1C => ⟨0xF0F0, (ioWord (winAt b.ioWin 0)).toNat⟩
  | 0x20 => .whole (winWord (winAt b.memWin 0)).toNat
  | 0x24 => ⟨0xFFF0FFF0, (winWord (winAt b.memWin 1)).toNat⟩
  | 0x28 => .whole ((winAt b.memWin 1).1 / 2 ^ 32)
  | 0x2C => .whole ((winAt b.memWin 1).2 / 2 ^ 32)
  | 0x30 => .whole (fld ((winAt b.ioWin 0).1 / 65536) 0 16 + fld ((winAt b.ioWin 0).2 / 65536) 16 16)
  | 0x3C => ⟨2 ^ 17, flag b.brSerr 17⟩
  | _ => .free

/-- Max_Payload_Size as Device Control codes it. -/
def mpsCode (n : Nat) : Nat := Nat.log2 (n / 128)

/-- The Target Link Speed in force: none written stands for TARGET_RATE. -/
def targetSpeedOf (s : State) (p : Nat) : Nat := let t := (s.port p).link.targetRate; if t = 0 then targetRateOf s p else t

/-- PCI Express capability: Device Control with MPS; Link Capabilities without L0s, with ASPM L1 and its exit latency of 4 to 8 µs, and the
greatest rate and width (R75, R78, R96); Link Control and Status as they stand (R98); Device Control 2 with the timeout fields 0 (R298). -/
def pcieWord (s : State) (x : PortChip) (b : Bridge) (r : Nat) : CfgWord :=
  let here := x.chip = s.chipId
  let l := (s.port x.port).link
  match r with
  | 0x08 =>
    let mps := match vhNumOf s x with | some n => (s.vh n).mps | none => 128
    ⟨0xEF, fld (mpsCode mps) 5 3 + b.errEnables.toNat⟩
  | 0x0C =>
    ⟨0x00038C00 + (if here then 0x3FF else 0), fld 3 15 3 + 2 ^ 11 + (if here then fld (cfgWidth s x.port) 4 6 + fld (targetRateOf s x.port) 0 4 else 0)⟩
  | 0x10 =>
    let ctl := flag b.hawDisable 9 + b.aspm.toNat
    if !here then ⟨0x203, ctl⟩
    else if l.dlUp then ⟨0x23FF0233, 2 ^ 29 + fld l.width 20 6 + fld l.rate 16 4 + ctl + flag l.disable 4⟩
    else ⟨0x20000233, ctl + flag l.disable 4⟩
  | 0x28 => ⟨0x809F, flag b.prefixBlock 15 + flag b.atomicBlock 7⟩
  | 0x30 => if here then ⟨0xF, targetSpeedOf s x.port⟩ else .free
  | _ => .free

/-- AER: errors that a bridge does not raise read 0, so do the ECRC capabilities and enables, and Multiple Header Recording Capable reads 1
(R296, R297). The header and prefix logs show the oldest entry. -/
def aerWord (b : Bridge) (r : Nat) : CfgWord :=
  let entry (i : Nat) : CfgWord := match b.hdrLog with | e :: _ => .whole (e.2.getD i 0) | [] => .free
  match r with
  | 0x00 => capHeader 0x0001
  | 0x04 => .whole b.uncStatus.toNat
  | 0x08 => .whole b.uncMask.toNat
  | 0x0C => .whole b.uncSev.toNat
  | 0x10 => .whole b.corStatus.toNat
  | 0x14 => .whole b.corMask.toNat
  | 0x18 => ⟨0x7FF, flag b.mhrEn 10 + 2 ^ 9 + fld b.firstErr 0 5⟩
  | 0x1C => entry 0
  | 0x20 => entry 1
  | 0x24 => entry 2
  | 0x28 => entry 3
  | 0x38 => entry 4
  | _ => .free

/-- ACS: all seven features of Table 4.3, their controls as written (R201), and the egress control vector. -/
def acsWord (b : Bridge) (r : Nat) : CfgWord :=
  match r with
  | 0x00 => capHeader 0x000D
  | 0x04 => ⟨0x7F007F, fld b.acsCtl.toNat 16 7 + 0x7F⟩
  | 0x08 => .whole b.egressVec.toNat
  | _ => .free

/-- MC_Receive of a bridge: bit i where its port is a member of the group with index i (R145). -/
def receiveBits (s : State) (x : PortChip) : Nat :=
  match vhNumOf s x with
  | none => 0
  | some vn => bitmap 64 (fun i =>
      match groupOf s vn i with
      | some (g, m) => decide (m.dests.idxOf x < m.dests.length) && (s.group g).members.getLsbD (m.dests.idxOf x)
      | none => false)

/-- The Multicast capability: base, index position, count and enable once per VH; MC_Receive and MC_Block_All per bridge; MC_Max_Group 63 and
no overlay (R144). -/
def mcWord (s : State) (x : PortChip) (b : Bridge) (r : Nat) : CfgWord :=
  let v := match vhNumOf s x with | some n => s.vh n | none => {}
  match r with
  | 0x00 => capHeader 0x0012
  | 0x04 => ⟨0x803F003F, flag v.mcEnable 31 + fld v.mcNumGroup 16 6 + 63⟩
  | 0x08 => .whole (v.mcBase.toNat % 2 ^ 32 / 4096 * 4096 + fld v.mcIndexPos 0 6)
  | 0x0C => .whole (v.mcBase.toNat / 2 ^ 32)
  | 0x10 => .whole (receiveBits s x % 2 ^ 32)
  | 0x14 => .whole (receiveBits s x / 2 ^ 32)
  | 0x18 => .whole (b.blockAll.toNat % 2 ^ 32)
  | 0x1C => .whole (b.blockAll.toNat / 2 ^ 32)
  | 0x28 => ⟨0x3F, 0⟩
  | _ => .free

/-- DPC Trigger Reason (R304): for DPC_SOFTWARE the extension's, for DPC_ERROR what triggered, for every other cause the unmasked
uncorrectable error. -/
def dpcReasonRead (s : State) (p : Nat) : Nat :=
  let c := (s.port p).contain
  if c.cause = 2 then 3 else if c.cause = 1 then (s.bridge p).dpcReason.toNat else 0

/-- DPC: neither RP Extensions nor Poisoned TLP Egress Blocking; Software Trigger; Completion Control as CONTAIN_CPL, inverted; Trigger Status
for every cause (R304). -/
def dpcWord (s : State) (x : PortChip) (b : Bridge) (r : Nat) : CfgWord :=
  let here := x.chip = s.chipId
  match r with
  | 0x00 => capHeader 0x001D
  | 0x04 =>
    let w := fld b.dpcEnable.toNat 16 2 + 2 ^ 7
    if here then ⟨0x4700E0, w + flag (containStatus s x.port == .ur) 18⟩ else ⟨0x4300E0, w⟩
  | 0x08 =>
    if !here then .free
    else if dpcHeld s x.port then ⟨if (s.port x.port).contain.cause = 2 then 0x67 else 7,
      fld (if (s.port x.port).contain.cause = 2 then 1 else 0) 5 2 + fld (dpcReasonRead s x.port) 1 2 + 1⟩
    else ⟨1, 0⟩
  | _ => .free

/-- The Kerene Error Extension (Table 10.3). KEX_CTNSTAT of an upstream bridge reads 0 except while its port is contained. -/
def kexWord (s : State) (x : PortChip) (b : Bridge) (r : Nat) : CfgWord :=
  match r with
  | 0x00 => capHeader 0x000B
  | 0x04 => vsecHeader 0x0162 1 0x14
  | 0x08 =>
    if x.chip ≠ s.chipId then ⟨0xFFFFFFC0, 0⟩
    else
      let c := (s.port x.port).contain
      .whole (if isUpBridge s x && !dpcHeld s x.port then 0 else fld c.phase 4 2 + fld c.cause 0 4)
  | 0x0C => .whole b.kexLast.toNat
  | 0x10 => .whole b.kexFlow.toNat
  | _ => .free

/-- PTM: Responder and Root Capable, granularity 1 ns; absent with PTM_EN clear (R188). -/
def ptmWord (s : State) (r : Nat) : CfgWord :=
  if !(timeRec s).ptmEn then .whole 0
  else match r with
  | 0x00 => capHeader 0x001F
  | 0x04 => ⟨0xFF06, fld 1 8 8 + 6⟩
  | _ => .free

/-! What a VH holds once. -/

/-- A ring register of the group that MCX_SEL names; 0 where it names none (R158). -/
def ringWord (s : State) (vn : Nat) (f : RptRing → Nat) : CfgWord :=
  .whole (if selGroup s vn then f (tget {} (s.vh vn).rings (s.vh vn).mcxSel) else 0)

/-- The Kerene Multicast Extension (Table 5.14). -/
def mcxWord (s : State) (vn r : Nat) : CfgWord :=
  let v := s.vh vn
  match r with
  | 0x00 => capHeader 0x000B
  | 0x04 => vsecHeader 0x0160 1 0x30
  | 0x08 => .whole (flag v.mcxEnable 0)
  | 0x0C => .whole (fld v.mcxIndexPos 0 6)
  | 0x10 => .whole (v.mcxBase.toNat % 2 ^ 32)
  | 0x14 => .whole (v.mcxBase.toNat / 2 ^ 32)
  | 0x18 => .whole v.mcxCount
  | 0x1C => .whole v.mcxSel
  | 0x20 => ringWord s vn (fun q => q.addr.toNat % 2 ^ 32)
  | 0x24 => ringWord s vn (fun q => q.addr.toNat / 2 ^ 32)
  | 0x28 => ringWord s vn (fun q => flag q.en 4 + fld q.log2 0 4)
  | 0x2C => ringWord s vn (fun q => q.next)
  | _ => .free

/-- One word of a 64-bit BAR; `low` are its type bits. -/
def barWord (base : Option Nat) (low : Nat) (high : Bool) : CfgWord :=
  let b := base.getD 0
  .whole (if high then b / 2 ^ 32 else b % 2 ^ 32 / 16 * 16 + low)

/-- Functions 1 and 2: the MF's BARs (R404) with its MSI-X table of two entries (R415); SR-IOV of the PF presentation, which has no BARs of
its own (R237). -/
def fnWord (s : State) (vn r : Nat) : CfgWord :=
  let v := s.vh vn
  let n := (vhTenants s vn).length
  match r with
  | 0x200 => barWord v.mfBar0 4 false
  | 0x204 => barWord v.mfBar0 4 true
  | 0x208 => barWord v.mfBar2 4 false
  | 0x20C => barWord v.mfBar2 4 true
  | 0x210 => ⟨0x7FF0000, fld 1 16 11⟩
  | 0x214 => .whole 0x21000
  | 0x218 => .whole 0x21800
  | 0x300 => barWord (vfBarOf s vn false) 4 false
  | 0x304 => barWord (vfBarOf s vn false) 4 true
  | 0x308 => barWord (vfBarOf s vn true) 12 false
  | 0x30C => barWord (vfBarOf s vn true) 12 true
  | 0x310 => ⟨9, flag v.vfMem 3 + 1⟩
  | 0x314 => .whole (fld n 16 16 + fld n 0 16)
  | 0x318 => ⟨0xFFFF, n⟩
  | 0x31C => .whole (fld 1 16 16 + 1)
  | 0x400 => ⟨0xE0, fld (mpsCode v.mps) 5 3⟩
  | 0x500 => ⟨0xFF, v.primaryBus⟩
  | _ => if 0x320 ≤ r ∧ r < 0x338 then .whole 0 else .free

/-- A register of a VF's own function (R230, R238, R245, R246). -/
def vfCfgWord (s : State) (t r : Nat) : CfgWord :=
  let v := s.vf t
  match r with
  | 0x20004 => ⟨2 ^ 28, 2 ^ 28⟩
  | 0x20008 => ⟨0x20F000, flag (!(vfOpen s t).isEmpty) 21 + fld (mpsCode v.mrrs) 12 3⟩
  | 0x20024 => ⟨0x380, 0x380⟩
  | 0x20104 => ⟨4, flag v.bme 2⟩
  | 0x20210 => ⟨0x7FF0000, fld 3 16 11⟩
  | 0x20214 => .whole 0xC00
  | 0x20218 => .whole 0xE00
  | _ => .free

/-! Functions. -/

/-- A function of the device, as a configuration request names it. -/
inductive CfgFn where
  | bridge (x : PortChip) | mf (vn : Nat) | pf (vn : Nat) | vf (t : Nat)
  deriving DecidableEq, Repr

/-- The function of the VH of port `p` that an ID names: function 0 the upstream bridge, 1 the MF, 2 the PF presentation, 3 and up the VFs,
and device i of the internal bus the bridge of DS[i] (R197, R237). -/
def cfgFn (s : State) (p : Nat) (id : W16) : Option CfgFn :=
  match vhOfPort s p with
  | none => none
  | some vn => match s.vhRec vn with
    | none => none
    | some v => match busHit s vn v id with
      | .own =>
        let f := id.toNat % 256
        if f = 0 then some (.bridge { port := v.upPort, chip := v.upChip })
        else if f = 1 then some (.mf vn)
        else if f = 2 then some (.pf vn)
        else ((vhTenants s vn)[f - 3]?).map .vf
      | .internal i => (v.ds[i]?).map .bridge
      | _ => none

/-- A register of a bridge: its own capabilities, and above 0x8000 in the upstream bridge what the VH holds once. -/
def bridgeWord (s : State) (x : PortChip) (r : Nat) : CfgWord :=
  let b := s.bridge (bridgeKey s x)
  let y := r % 0x1000
  match r / 0x1000 with
  | 0 => headerWord s x b y
  | 1 => pcieWord s x b y
  | 2 => aerWord b y
  | 3 => if isUpBridge s x then .whole 0 else acsWord b y
  | 4 => mcWord s x b y
  | 5 => if isUpBridge s x then .whole 0 else dpcWord s x b y
  | 6 => kexWord s x b y
  | 7 => if y < 0x100 then ptmWord s y else .whole 0     -- at 0x7100 L1 PM Substates, which is absent (R75)
  | 8 => match vhNumOf s x with
    | some vn => if isUpBridge s x && decide (y < 0x100) then mcxWord s vn y else .free
    | none => .free
  | _ => .free

def cfgWord (s : State) (f : CfgFn) (r : Nat) : CfgWord :=
  match f with
  | .bridge x => bridgeWord s x r
  | .mf vn => fnWord s vn r
  | .pf vn => fnWord s vn r
  | .vf t => vfCfgWord s t r

/-- KEX_FLOWCNT is cleared by a read of all its bytes (Tables 0.4 and 10.3). -/
def afterCfgRead (s : State) (f : CfgFn) (r : Nat) (be : BitVec 4) : State :=
  match f with
  | .bridge x => if r = 0x6010 ∧ be = 15 then s.modBridge (bridgeKey s x) (fun b => { b with kexFlow := 0 }) else s
  | _ => s

/-- A configuration read `t` that entered at port `p` of one of the device's own functions. -/
def readCfg (s : State) (p : Nat) (t : Tlp) : State × W32 :=
  let r := t.addr.toNat
  let free := Config.cfgRead t.cid r s.clock
  match cfgFn s p t.cid with
  | some f => (afterCfgRead s f r t.firstBe, (cfgWord s f r).over free)
  | none => (s, free)

end Sys2Proof.Machine
end

