-- ==== Sys2Proof/Machine/Debug.lean ====
section
/-! DEFINITION. The debug master and the JTAG instructions that burn the key store (R386 to R388, R399, R400). -/

namespace Sys2Proof.Machine

/-- The scrub of R397 is done, or the device is in Factory, which keeps the scrubbed state (R398). -/
def debugOpen (s : State) : Bool := s.mode == .factory || (s.mode == .maintenance && s.sec.scrubDone)

/-- The interface answers (Tables 14.4, 14.7). -/
def debugInterface (s : State) (v : DebugVia) : Bool :=
  match s.sec.lifeAtReset with
  | 0 => true
  | 3 => decide (3 ≤ s.sec.level)
  | _ => match v with | .uart => decide (1 ≤ s.sec.level) | .jtag => decide (2 ≤ s.sec.level) && debugOpen s

/-- The grant of Table 14.12: read, write. -/
def debugGrant (s : State) (g : Nat) : Perms :=
  if debugOpen s then 3
  else if g < 2 then 0
  else if s.mode = .maintenance ∨ ((s.inRunModes ∨ s.mode = .safe) ∧ 1 ≤ s.sec.level) then 1 else 0

/-- A sealed region that covers a byte refuses the debug master before the scrub. -/
def sealedAt (s : State) (g a : Nat) : Option Nat :=
  if debugOpen s then none
  else (s.cfg.regions.find? (fun e => e.2.gate == g && covers e.2 a && e.2.perm.getLsbD 6)).map
    (fun e => if e.2.shared then e.2.slot else 32 + e.2.slot)

/-- Why the debug master may not access a chunk: the cause and the region. -/
def debugJudge (s : State) (g : Nat) (need : Perms) (a : Nat) : Option (Nat × Nat) :=
  match sealedAt s g a with
  | some n => some (5, n)
  | none => if need &&& debugGrant s g = need then none else some (1, 0xFF)

/-- The first chunk that refuses: its byte, the cause and the region (R216); 64 bytes lie in at most two. -/
def debugCheck (s : State) (g : Nat) (need : Perms) (a n : Nat) : Option (Nat × Nat × Nat) :=
  let b := (a / 512 + 1) * 512
  match debugJudge s g need a with
  | some (c, r) => some (a, c, r)
  | none => if a + n ≤ b then none else (debugJudge s g need b).map (fun x => (b, x.1, x.2))

/-- A read that has no data. -/
def debugNone (s : State) (write : Bool) (n : Nat) : State := if write then s else s.emit (.debugRead true (List.replicate n 0xFF))

/-- R400. -/
def debugRefuse (s : State) (g : Nat) (write : Bool) (a n bad cause region : Nat) : State :=
  let x : Denied := { gate := g, tenant := 0x1FF, kind := if write then .mwr else .mrd, start := a }
  let s := rejectAt s 0x0C x cause bad region (fun b => report b 0x0C 0 0x10 none 0x7F (some cause))
  debugNone ((s.bump (offSec 0x18)).setEvt (offSec 4) 2) write n

/-- The debug master holds no claim on the mailbox: in its block it reads as a path that does not hold it, and its writes have no
effect. -/
def debugRegs (s : State) (write : Bool) (a n : Nat) (data : List Byte) : State :=
  let p : Path := if s.mbx.owner = some .mf then .i3c else .mf
  let mbx := decide (0x20000 ≤ a) && decide (a < 0x30000)
  let k := n / 4
  if n % 4 ≠ 0 ∨ !accessOk a k ∨ 0x1000000 ≤ a then debugNone (report s 0x0C 0 0x35 (some ownerM)) write n
  else if write then (if mbx then s else writeRegs s p a (fun _ => 15) 0 (wordsFrom k data))
  else
    let r := readRegs s p a (fun _ => 15) k
    (if mbx then s else r.1).emit (.debugRead false (r.2.map (fun w => leBytes 4 w.toNat)).flatten)

/-- A byte address of a channel stands in its memory. -/
def inChannel (s : State) (c a n : Nat) : Bool := (s.chan c).st == 2 && decide (a + n ≤ (s.chan c).lots * 2 ^ 26)

/-- An access that the grant allows. -/
def debugAccess (s : State) (g : Nat) (write : Bool) (a n : Nat) (data : List Byte) : State :=
  if g = 2 then debugRegs s write a n data
  else if g = 3 then
    if 0x200000 < a + n then debugNone s write n
    else if write then { s with hkMem := memWrite s.hkMem a (data.take n) }
    else s.emit (.debugRead false (memRead s.hkMem a n))
  else if !inChannel s g a n then debugNone s write n
  else if write then poolWrite s g a ((data.take n).map some)
  else
    let r := poolRead s g a n none
    r.1.emit (.debugRead r.2.2 r.2.1)

/-- DEBUG_MASTER_ACCESS: at most 64 bytes, at gates 0 to 3. -/
def execDebugMasterAccess (via : DebugVia) (gate : Fin 4) (write : Bool) (addr : Nat) (len : Nat) (data : List Byte) (s : State) :
    Host.Outcome State Fault Refusal :=
  .next (if s.mode = .reset ∨ !debugInterface s via ∨ len = 0 ∨ 64 < len then s
    else match debugCheck s gate (if write then 2 else 1) addr len with
      | some (bad, c, r) => debugRefuse s gate write addr len bad c r
      | none => debugAccess s gate write addr len data)

/-- JTAG_KEY_PROVISION: an EMPTY owner slot becomes VALID; in Blank the lifecycle becomes Provisioned (R385, R386, R388). -/
def execJtagKeyProvision (slot : Fin 4) (key : Nat) (s : State) : Host.Outcome State Fault Refusal :=
  let k := s.keys
  .next (if s.pwrgd ∧ s.sec.lifeAtReset ≤ 1 ∧ k.lifecycle ≤ 1 ∧ (tget {} k.owner slot).st = 0 then
      { s with keys := { k with owner := tset {} k.owner slot { st := 1, key := key }, lifecycle := 1 } }
    else s)

/-- JTAG_FIELD_RETURN: in Factory, from Locked; the four owner slots are revoked in the same burn. -/
def execJtagFieldReturn (s : State) : Host.Outcome State Fault Refusal :=
  .next (if s.mode = .factory ∧ s.keys.lifecycle = 2 then { s with keys := { revoke s.keys 15 with lifecycle := 3 } } else s)

end Sys2Proof.Machine
end

