-- ==== Sys2Proof/Machine/Reset.lean ====
section
/-! DEFINITION. Resets: power-on reset, chip reset with the slots' warnings, and the slot power die's own (R36, R61 to R63, R280,
R422, R425). -/

namespace Sys2Proof.Machine

/-- What a slot keeps over a reset of the slot power die: the levels of its presence pins, and since when its gates are off (R353). -/
def slotKept (now : Nat) (x : Slot) : Slot :=
  { pinA := x.pinA, pinB := x.pinB, offSince := if gateOn x || x.gap then now else x.offSince }

/-- The slot power die is in reset: every gate off, SLOT_PERST_N and PWRFAIL_WARN_N asserted, its safe-action copy cleared (R36). -/
def resetPowerDie (s : State) : State :=
  { s with pd := { vccGood := s.pd.vccGood }, slots := tmap {} (slotKept s.clock) s.slots }

/-- Every slot's gates are off. -/
def slotsOff (s : State) : Bool := s.slots.all (fun e => !gateOn e.2)

/-- A slot as a chip reset begins: a powered one warns, keeps its gate and has SLOT_PERST_N asserted (R62). -/
def slotAtReset (now : Nat) (x : Slot) : Slot :=
  if gateOn x then
    { slotKept now x with loc := 8, warn := true, perst := true, warnKind := 3, warnSince := now, gateA := x.gateA, gateB := x.gateB, feed := x.feed }
  else slotKept now x

/-- Cupel's last S4 record, the only sticky registers in BAR0 beside RESET_CAUSE (R63). -/
def stickyReg (off : Nat) : Bool := decide (offFlt 0x50 ≤ off) && decide (off < offFlt 0x70)

/-- A chip reset of cause `cause` (R62, R63): the switch die enters reset at once. -/
def chipReset (s : State) (cause : Nat) : State :=
  let t : State :=
    { pending := s.pending, clock := s.clock, resetCause := cause, pwrgd := s.pwrgd, perstN := s.perstN, keys := s.keys,
      sec := { nonces := s.sec.nonces }, cupel := { qCount := s.cupel.qCount }, picks := s.picks, fab := { ringIn := s.fab.ringIn }, nextId := s.nextId,
      regs := s.regs.filter (fun e => stickyReg e.1), bridges := tmap {} stickyBridge s.bridges,
      poolMem := s.poolMem, poison := s.poison, hkMem := s.hkMem, out := s.out,
      slots := tmap {} (slotAtReset s.clock) s.slots,
      pd := { s.pd with resetting := true, resetSince := s.clock } }
  if slotsOff t then resetPowerDie t else t

/-- The slot power die's reset ends: seated cartridges are debounced anew (R340), and it tells what it finds. -/
def debounceAll (s : State) : State :=
  (List.range 24).foldl (fun a n => modPdSlot a n (fun x =>
    if x.pinA && x.pinB && x.loc == 0 then { x with loc := 1, pinsSince := s.clock } else x)) s

/-- What STAT tells of the slots that a reset has left: the pins of a seated cartridge, told at the end of the reset, count as a change. -/
def wakePowerDie (s : State) : State := debounceAll (s.modPd (fun p => { p with inReset := false, lastGood := s.clock }))

/-- Reset is left for Load: the fetch of slot A begins, and UNLOCK_LEVEL reads 2 in Provisioned (R40, R53, R388). -/
def enterLoad (s : State) : State :=
  let s := wakePowerDie (setMode s .load 0)
  let s := { s with d2d := { s.d2d with lastGood := s.clock } }
  { s.modSec (fun x => { x with lifeAtReset := s.keys.lifecycle, level := if s.keys.lifecycle = 1 then 2 else 0 }) with
    xspi := true, fetchStep := 0 }

/-- Load begins with power-good present, PERST_N deasserted and every slot off (R58, R62). -/
def leaveReset (s : State) : State :=
  if s.mode = .reset ∧ s.pwrgd ∧ s.perstN ∧ slotsOff s then enterLoad (resetPowerDie s) else s

/-- 1 ns of time base time with no command waiting. Reset ends as soon as its conditions hold, by whatever event they came to hold (R58, log
entry 44). -/
def idleNs (s : State) : State := tick (leaveReset s)

/-- Everything but the one-time key store is as unpowered (R63, R422); the model's clock, its free-value counters and what it has sent
out go on. -/
def powerOn (s : State) (good : Bool) : State :=
  { State.reset with
    pending := s.pending, clock := s.clock, pwrgd := good, perstN := s.perstN, keys := s.keys, sec := { nonces := s.sec.nonces },
    cupel := { qCount := s.cupel.qCount }, picks := s.picks, fab := { ringIn := s.fab.ringIn }, out := s.out, slots := tmap {} (slotKept s.clock) s.slots,
    pd := { vccGood := good || s.pd.vccGood } }

/-- POWER_ON_RESET: PWRGD is present after a low of 100 ns or more. -/
def execPowerOnReset (lowNs : Nat) (s : State) : Host.Outcome State Fault Refusal :=
  .next (if lowNs < 100 then s else powerOn s true)

/-- POWER_GOOD_LOST: PWRGD has fallen for 100 ns or more; the slot power die cuts without warning. -/
def execPowerGoodLost (lowNs : Nat) (s : State) : Host.Outcome State Fault Refusal :=
  .next (if lowNs < 100 then s else powerOn s false)

/-- PERST_N_ASSERT (R59, R61). -/
def execPerstNAssert (lowNs : Nat) (s : State) : Host.Outcome State Fault Refusal :=
  .next (if lowNs < 1000 then s
    else
      let t := { s with perstN := false }
      if s.mode = .factory ∨ s.mode = .reset then t else chipReset t 2)

/-- PERST_N_DEASSERT (R58). -/
def execPerstNDeassert (s : State) : Host.Outcome State Fault Refusal := .next (leaveReset { s with perstN := true })

/-- SLOT_WARN_CUT_TIMER (R62): the slot's t_warn is over and its gates turn off; with the last slot the slot power die enters reset,
and Load begins where PERST_N has been deasserted meanwhile. -/
def execSlotWarnCutTimer (n : SlotId) (s : State) : Host.Outcome State Fault Refusal :=
  .next (if !s.pd.resetting ∨ s.clock < s.pd.resetSince + 1000 * pdWarnUs s n then s
    else
      let s := s.modSlot n (slotKept s.clock)
      if slotsOff s then leaveReset (resetPowerDie s) else s)

/-- SLOT_POWER_DIE_RESET: a dip of VCC_PD below 4.20 V for 2 µs or more (R36, R425). Its link is lost until chip reset: the switch die
learns of it as D2D_LOST. -/
def execSlotPowerDieReset (mv durNs : Nat) (s : State) : Host.Outcome State Fault Refusal :=
  let off (x : Slot) : Slot := unseat s.clock x
  .next (if 4200 ≤ mv ∨ durNs < 2000 then s
    else if s.mode = .reset then resetPowerDie { s with pd := { s.pd with vccGood := false } }
    else { s with pd := { inReset := s.pd.inReset, vccGood := false, lost := true }, slots := tmap {} off s.slots })

/-- VCC_PD_RESET_RELEASE: VCC_PD reaches 4.50 V. -/
def execVccPdResetRelease (mv : Nat) (s : State) : Host.Outcome State Fault Refusal :=
  .next (if mv < 4500 ∨ s.pd.vccGood then s
    else
      let t := { s with pd := { s.pd with vccGood := true } }
      if s.pd.inReset then t else debounceAll t)

/-- FABRIC_RESET_START: 1 µs after the message, a chip reset; Factory ignores it (R59, R280). -/
def execFabricResetStart (s : State) : Host.Outcome State Fault Refusal :=
  .next (match s.fab.resetAt with
    | some t => if s.mode = .factory ∨ s.mode = .reset ∨ s.clock < t then s else chipReset s 3
    | none => s)

end Sys2Proof.Machine
end

