-- ==== Sys2Proof/Machine/Serve.lean ====
section
/-! DEFINITION. Requests that crossbar ports 10 and 11 serve: VF BAR0 with the telemetry view, the pool window, and the MF's BARs
(R102, R224, R230, R238, R239, R246, R405, R406). -/

namespace Sys2Proof.Machine

/-! Reads of a VF's BAR0 (Table 8.3, Table 7.13). -/

/-- Lots that a tenant's window maps, each once. -/
def viewedLots (s : State) (t : Nat) : List Nat :=
  (((poolRec s).runs.map (fun r => (runLots r).filter (fun l => r.tenant == t || sharedFor s t l))).flatten).eraseDups

def vfPoolStat (s : State) (t : Nat) : Nat :=
  flag (chanLost s 0) 30 + flag (chanLost s 1) 31 + fld ((viewedLots s t).countP (fun l => lotState s l == 3)) 0 13

/-- The value of a word of the control page. -/
def vfWord (s : State) (t off : Nat) : Nat :=
  let v := s.vf t
  match off with
  | 0x00 => (match s.tenantRec t with | some r => fld r.vh 16 8 | none => 0) + t
  | 0x04 => vfPoolStat s t
  | 0x08 => v.evt.toNat
  | 0x0C => v.evtMask.toNat
  | 0x10 => v.tail.toNat
  | 0x14 => v.head.toNat
  | 0x18 => flag (!v.jobs.isEmpty) 8 + v.reads.length
  | 0x20 => v.winRej.toNat
  | 0x24 => v.ueCnt.toNat
  | 0x28 => v.winLast % 2 ^ 32
  | 0x2C => fld v.winCause 28 4 + fld (v.winLast / 2 ^ 32) 0 8
  | 0x44 => v.ntfy.length
  | 0xE00 => v.pba.toNat
  | _ => if 0x400 ≤ off ∧ off < 0xC00 then (tget 0 v.ring ((off - 0x400) / 4)).toNat
    else if 0xC00 ≤ off ∧ off < 0xC40 then (msixWord v ((off - 0xC00) / 4)).toNat else 0

/-- Monitors bound to owner `t`, in ascending MON_ID. -/
def ownedMons (s : State) (t : Nat) : List Nat :=
  (List.range 1024).filter (fun m => match findMon s m with | some (_, e) => e.owner == t | none => false)

def ownedGroups (s : State) (t : Nat) : List Nat := (s.cfg.mcasts.filter (fun e => e.2.tenant == t)).map (·.1)

/-- The BAR0 register that the view shows at an offset, none where nothing is shown. -/
def viewOff (s : State) (t x : Nat) : Option Nat :=
  let page := (s.vf t).viewPage.toNat
  if x = 0 then some (offTnt (16 * t))
  else if 0x100 ≤ x ∧ x < 0x110 then some (offTnt (0x40000 + 16 * t + (x - 0x100)))
  else if 0x200 ≤ x ∧ x < 0x220 then some (offTnt (0x50000 + 32 * t + (x - 0x200)))
  else if 0x300 ≤ x ∧ x < 0x310 then some (offTnt (0x60000 + 16 * t + (x - 0x300)))
  else if x = 0x310 ∨ x = 0x314 then some (offTnt (0x62000 + 8 * t + (x - 0x310)))
  else if 0x320 ≤ x ∧ x < 0x340 then some (offTnt (0x70000 + 32 * t + (x - 0x320)))
  else if 0x1000 ≤ x ∧ x < 0x9000 then
    ((ownedMons s t)[128 * page + (x - 0x1000) / 256]?).map (fun m => offMon m (x % 256))
  else if 0x9000 ≤ x ∧ x < 0x10000 then
    ((ownedGroups s t)[448 * page + (x - 0x9000) / 64]?).map (fun g => offMcg g ((x - 0x9000) % 64))
  else none

/-- A read of one double word of a VF's BAR0; a full read clears its RC registers, through the view too (R224, R406). -/
def readVf (s : State) (t off : Nat) (be : BitVec 4) : State × W32 :=
  let full := be == 15
  if off < 0x1000 then
    if off = 0x40 then (let r := popNtfy s t; (if full then r.1 else s, r.2))
    else
      let w := w32 (vfWord s t off)
      if full ∧ off = 0x20 then (s.modVf t (fun v => { v with winRej := 0 }), w)
      else if full ∧ off = 0x24 then (s.modVf t (fun v => { v with ueCnt := 0 }), w)
      else (s, w)
  else if 0x10000 ≤ off ∧ off < 0x20000 then
    let x := off - 0x10000
    if x = 0x400 then (s, w32 (fld (ownedGroups s t).length 16 11 + fld (ownedMons s t).length 0 11))
    else if x = 0x404 then (s, w32 (s.vf t).viewPage.toNat)
    else match viewOff s t x with
      | some o => readReg s .mf o be
      | none => (s, 0)
  else (s, 0)

/-- Double words of a VF's BAR0 in ascending order. -/
def readVfs (s : State) (t off : Nat) (be : Nat → BitVec 4) : Nat → State × List W32
  | 0 => (s, [])
  | n + 1 =>
    let (a, l) := readVfs s t off be n
    let (b, w) := readVf a t (off + 4 * n) (be n)
    (b, l ++ [w])

def writeVfs (s : State) (t off : Nat) (be : Nat → BitVec 4) : Nat → List W32 → State
  | _, [] => s
  | i, w :: r => writeVfs (writeVf s t (off + 4 * i) (be i) w) t off be (i + 1) r

/-- Byte enables of the `i`-th of `n` double words of a request. -/
def beAt (t : Tlp) (n i : Nat) : BitVec 4 := if i = 0 then t.firstBe else if i + 1 = n then t.lastBe else 15

def wordBytes (l : List W32) : List Byte := (l.map (fun w => leBytes 4 w.toNat)).flatten

/-- A request that crossbar port 10 completes with UR, or drops (R296). -/
def cruUr (s : State) (o : Owner) (src : Src) (q : Tlp) : State :=
  let s := if q.kind = .mwr then s else cruAnswer s src o (mkCpl q q.tag (vfRid s o) .ur (reqBytes q))
  flowError s 0x0B 0x35 aerUr o 0x7F none (some q)

/-- An access to BAR0 of tenant `t`'s own VF; UR during an FLR (R246). -/
def serveVfBar0 (s : State) (t off : Nat) (src : Src) (q : Tlp) : State :=
  let n := ceilDiv (accessLen q) 4
  if (s.vf t).flr.isSome ∨ q.kind = .atomic ∨ q.kind = .dmwr then cruUr s t src q
  else if q.kind = .mwr then writeVfs s t off (beAt q n) 0 (wordsFrom n q.data)
  else
    let r := readVfs s t off (beAt q n) n
    (readCpls q (vfRid s t) (mpsOf s t) off (wordBytes r.2) false (q.len / mpsOf s t + 2)).foldl (fun a c => cruAnswer a src t c) r.1

/-- A request of tenant `o` is delivered to crossbar port 10. -/
def deliverCru (s : State) (o : Owner) (src : Src) (trusted : Bool) (q : Tlp) : State :=
  if q.kind = .cpl then engineCpl s o q
  else match vfHitOf s o q.addr.toNat with
    | some (_, 0, off) => serveVfBar0 s o off src q
    | some (_, _, off) => serveWindow s o off src trusted q none
    | none => cruUr s o src q

/-! The MF's BARs (R405). -/

/-- A completion that the housekeeping controller forms; it belongs to the request's owner. -/
def hkAnswer (s : State) (src : Src) (o : Owner) (c : Tlp) : State := answer s 11 0x7F src o c

/-- A request that breaks the rules of BAR0: UR, or dropped, and reported to M. -/
def mfRefuse (s : State) (o : Owner) (src : Src) (q : Tlp) : State :=
  let s := if q.kind = .mwr then s else hkAnswer s src o (mkCpl q q.tag (Config.completerId 0x7F) .ur (reqBytes q))
  report s 0x0C 0 0x35 (some ownerM)

def serveMf0 (s : State) (o : Owner) (off : Nat) (src : Src) (q : Tlp) : State :=
  let n := accessLen q / 4
  if q.kind = .atomic ∨ q.kind = .dmwr ∨ accessLen q % 4 ≠ 0 ∨ !accessOk off n ∨ !pathOpen s .mf then mfRefuse s o src q
  else if q.kind = .mwr then writeRegs s .mf off (beAt q n) 0 (wordsFrom n q.data)
  else
    let r := readRegs s .mf off (beAt q n) n
    hkAnswer r.1 src o { mkCpl q q.tag (Config.completerId 0x7F) .sc (4 * n) with data := wordBytes r.2, len := 4 * n, addr := w64 (off % 128) }

/-- The enabled bytes of a write go to the controller's SRAM. -/
def putHk (s : State) (off : Nat) (q : Tlp) : State :=
  { s with hkMem := poolPut s.hkMem off (q.data.zipIdx.map (fun x => if byteEnabled q q.data.length x.2 then some x.1 else none)) }

/-- MF BAR2: any memory request to the controller's SRAM. -/
def serveMf2 (s : State) (o : Owner) (off : Nat) (src : Src) (q : Tlp) : State :=
  let cid := Config.completerId 0x7F
  let mps := (s.vh s.device.managerVh).mps
  match q.kind with
  | .mwr => putHk s off q
  | .dmwr => hkAnswer (putHk s off q) src o (mkCpl q q.tag cid .sc 4)
  | .atomic =>
    let w := atomicWidth q
    let old := memRead s.hkMem off w
    let t := { s with hkMem := memWrite s.hkMem off (leBytes w (atomicNew q.atomicOp w (leNat old) q.data)) }
    hkAnswer t src o { mkCpl q q.tag cid .sc w with data := old, len := w }
  | _ => (readCpls q cid mps off (memRead s.hkMem off q.len) false (q.len / mps + 2)).foldl (fun a c => hkAnswer a src o c) s

/-- A TLP is delivered to crossbar port 11: an MF access; completions and messages there are the firmware's. -/
def deliverHk (s : State) (o : Owner) (src : Src) (q : Tlp) : State :=
  if !isMem q.kind then s
  else match mfHit s s.device.managerVh q.addr.toNat with
    | some (0, off) => serveMf0 s o off src q
    | some (_, off) => serveMf2 s o off src q
    | none => s

end Sys2Proof.Machine
end

