-- ==== Sys2Proof/Machine/Ingest.lean ====
section
/-! DEFINITION. A TLP enters at a port: classification, policing, the route stage, the targets' own rules, and admission
(R99, R104 to R114, R137, R144, R172, R201, R202, R264, R302, R309, R331, R364). -/

namespace Sys2Proof.Machine

/-! Refusals. -/

def srcAt (s : State) (p : Nat) : Src := { chip := s.chipId, port := p }

/-- The station of port `p` answers a non-posted request `t` of owner `o` that entered from `src`; nothing else is answered. -/
def refuseNp (s : State) (p : Nat) (src : Src) (o : Owner) (t : Tlp) (st : CplStatus) : State :=
  if isNonPosted t.kind then answerStatus s (stationOf p) p src o t st else s

/-- UR, or a drop, that a bridge logs and Cupel hears of as `kind` (Table 10.2). -/
def urReject (s : State) (p : Nat) (src : Src) (o : Owner) (t : Tlp) (kind bit : Nat) (d : Option PortChip) : State :=
  flowError (refuseNp s p src o t .ur) (stationOf p) kind bit o p d (some t) none p

/-- What `t` does where a gate rejects it (Table 7.6). -/
def gateRefuse (s : State) (p : Nat) (src : Src) (o : Owner) (t : Tlp) (d : Option PortChip) (x : Denied) (matched : Bool)
    (c bad n : Nat) : State :=
  let blk := if x.gate < 16 then 0x0C else stationOf p
  gateReject (refuseNp s p src o t (if matched then .ca else .ur)) blk (if x.gate < 16 then 0x7F else p) o d (some t) x matched c bad n

/-- What has been decided about a TLP before it is staged. -/
structure Entering where
  p       : PortId
  src     : Src
  owner   : Owner
  trusted : Bool := false
  red     : Option Nat := none
  farug   : Option Farug := none

/-- A TLP joins the staging queue of its port. -/
def stageIn (s : State) (e : Entering) (t : Tlp) (d : Dest) : State :=
  stage s { id := 0, key := .port e.p (creditOf t), tlp := t, src := e.src, owner := e.owner, cls := acctClass s e.owner t, dest := d,
            ingress := e.p, trusted := e.trusted, red := e.red, farug := e.farug,
            epoch := match e.farug with | some f => f.epoch | none => s.fab.epoch }

/-- A TLP without a fabric route at its first ingress (R264). -/
def noRouteIn (s : State) (e : Entering) (t : Tlp) (f : Farug) : State :=
  countNoRoute (refuseNp s e.p e.src e.owner t .ur) (stationOf e.p) e.owner e.p (farDest (some f))

/-! Targets. -/

/-- A TLP routed to a contained port of this chip (R302). -/
def toContained (s : State) (e : Entering) (t : Tlp) (q : Nat) : State :=
  if isNonPosted t.kind then (refuseNp s e.p e.src e.owner t (containStatus s q)).bump (offPrt q 0xA0) else countCtnDrop s q e.owner

/-- A request routed to a draining port (R309): reported S0. -/
def toDraining (s : State) (e : Entering) (t : Tlp) (q : Nat) : State :=
  let s := if isNonPosted t.kind then refuseNp s e.p e.src e.owner t .ur else countCtnDrop s q e.owner
  reportPort s q 0x84 (some e.owner)

/-- A TLP goes on toward port `q` of this chip, or is refused there. -/
def toLocal (s : State) (e : Entering) (t : Tlp) (q : Nat) : State :=
  let x := s.port q
  if x.contain.phase = 1 ∨ x.contain.phase = 2 then toContained s e t q
  else if x.contain.phase = 3 ∧ t.kind ≠ .cpl then toDraining s e t q
  else if x.quarantine ∧ t.kind ≠ .cpl ∧ !isCfg t.kind then countQblock (refuseNp s e.p e.src e.owner t .ur) q (some e.owner)
  else if !x.link.dlUp then
    (if t.kind = .cpl ∨ t.kind = .msg then s else urReject s e.p e.src e.owner t 0x35 aerUr (some { port := q, chip := s.chipId }))
  else stageIn s e t (.port q)

/-- A TLP goes on toward a destination. One for another chip takes its Farug header here, under the present epoch (R111, R266). -/
def toDest (s : State) (e : Entering) (t : Tlp) (d : Dest) : State :=
  match d with
  | .port q => toLocal s e t q
  | .remote c q =>
    let f := stampFarug e.src e.owner t.tc.toNat e.trusted s.fab.epoch c q
    (match tlpRoute s t f with
      | .none => noRouteIn s e t f
      | _ => stageIn s { e with farug := some f } t d)
  | d => stageIn s e t d

/-- A completion of the device's own configuration space. What a write changes there is the effect of REGISTER_WRITE and the other
rows for bridge and function registers. -/
def cfgAnswer (s : State) (p : Nat) (src : Src) (o : Owner) (t : Tlp) : State :=
  let c := mkCpl t t.tag t.cid .sc 4
  if t.kind = .cfgrd0 ∨ t.kind = .cfgrd1 then
    let r := readCfg s p t
    answer r.1 (stationOf p) p src o { c with data := leBytes 4 r.2.toNat, len := 4 }
  else answer s (stationOf p) p src o c

/-- A configuration request that leaves toward the bus below becomes Type 0 there (R103); one under selective IDE is never altered (R129). -/
def asType0 (t : Tlp) (b : Bool) : Tlp :=
  if !b || t.ide then t else match t.kind with | .cfgrd1 => { t with kind := .cfgrd0 } | .cfgwr1 => { t with kind := .cfgwr0 } | _ => t

/-- The route stage's verdict is carried out. -/
def carryVerdict (s : State) (e : Entering) (t : Tlp) (v : Verdict) : State :=
  match v with
  | .goes d b => toDest s e (asType0 t b) d
  | .many l => l.foldl (fun a x => toDest a e t (toPort a x)) s
  | .own => cfgAnswer s e.p e.src e.owner t
  | .consumed => s
  | .drop => s
  | .ur k b d => urReject s e.p e.src e.owner t k b d
  | .gate x m c b n =>
    gateRefuse s e.p e.src e.owner t (some x)
      { gate := gateP2P x.port, tenant := e.owner, kind := t.kind, priv := isPriv t e.trusted, exe := isExe t, rid := t.rid,
        start := t.addr.toNat } m c b n
  | .mfGate g off m c b n =>
    gateRefuse s e.p e.src e.owner t none
      { gate := g, tenant := e.owner, kind := t.kind, priv := isPriv t e.trusted, exe := isExe t, rid := t.rid, start := off } m c b n
  | .vfBar _ off => rejectVfBar (refuseNp s e.p e.src e.owner t .ur) (stationOf e.p) e.p e.owner e.trusted t off
  | .noGroup _ => noGroupDrop s e.owner e.p
  | .wrongTenant g => wrongTenantDrop s g e.owner e.p

/-! Policing (R171, R172). -/

/-- A red TLP under DROP: a bridge logs it, and Cupel does not hear of it. -/
def dropRed (s : State) (p : Nat) (src : Src) (o : Owner) (t : Tlp) : State :=
  let s := refuseNp s p src o t .ur
  match flowBridge s (some o) p none with
  | none => s
  | some x => logAt s x true true aerUr 0x35 o (some t)

/-- A classified request is metered and routed. -/
def routeIn (s : State) (p : PortId) (o : Owner) (trusted : Bool) (t : Tlp) : State :=
  let e : Entering := { p := p, src := srcAt s p, owner := o, trusted := trusted }
  let go (a : State) (red : Option Nat) : State := carryVerdict a { e with red := red } t (routeVerdict a p o trusted t)
  match policerOf s o t.tc.toNat with
  | none => go s none
  | some (k, r) =>
    match colour s k (tlpBytes t) with
    | (.green, a) => go (a.bump (offPol k 0)) none
    | (.yellow, a) => go (a.bump (offPol k 4)) none
    | (.red, a) =>
      let a := a.bump (offPol k 8)
      if r.hold then go a (some k) else dropRed a p e.src o t

/-! Classification (R105, R106). -/

/-- The header and PASID words of PRT_CLSLOG (Table 4.13). -/
def clsLog (t : Tlp) : List Nat := hdrWords t ++ [match t.pasid with | some q => 2 ^ 31 + q.value.toNat | none => 0]

/-- A request that matches no entry. -/
def classMiss (s : State) (p : Nat) (t : Tlp) : State :=
  let s := s.bump (offPrt p 0x68)
  let s := if w32Bit (s.reg (offPrt p 0x4C)) 0 then s else s.setRegs (offPrt p 0x70) (clsLog t)
  reportPort ((refuseNp s p (srcAt s p) ownerM t .ur).setEvt (offPrt p 0x4C) 0) p 0x30

/-! Error messages from below (R295, Table 10.4). -/

def isErrMsg (t : Tlp) : Bool := t.kind == .msg && (t.msgCode == 0x30 || t.msgCode == 0x31 || t.msgCode == 0x33)

/-- The message goes to Cupel, and may trigger DPC. -/
def hearErrMsg (s : State) (p : Nat) (o : Owner) (t : Tlp) : State :=
  let s := reportPort s p (if t.msgCode = 0x30 then 0x28 else 0x29) (some o) (some t.msgCode.toNat)
  let b := s.bridge p
  if (t.msgCode = 0x33 ∧ b.dpcEnable = 1) ∨ (t.msgCode ≠ 0x30 ∧ b.dpcEnable = 2) then
    dpcContain s p 1 (if t.msgCode = 0x33 then 2 else 1)
  else s

/-- PME_Turn_Off at an upstream port with the L2 flag (R96): it is acknowledged, and the link may then enter L2. PRESUMED, log entry 92. -/
def pmeOff (s : State) (p : Nat) : State :=
  if s.isUp p && (match s.portRec p with | some r => r.l2 | none => false) then
    present (s.modLink p (fun l => { l with pmeOff := true })) (stationOf p) (srcAt s p) ownerM (.port p) { kind := .msg, msgCode := 0x1B, route := .toRoot }
  else s

def classifyIn (s : State) (p : PortId) (t : Tlp) : State :=
  match classify s p t.rid t.pasid with
  | none => classMiss s p t
  | some (o, trusted) =>
    let s := routeIn (sampleTaps s p false o t) p o trusted t
    let s := if t.kind = .msg ∧ t.msgCode = 0x19 then pmeOff s p else s
    if s.isDown p && isErrMsg t then hearErrMsg s p o t else s

/-! Modes and ports that answer without classification. -/

/-- Before Run or Degraded (R11): nothing is logged, and the answers belong to M. -/
def earlyIn (s : State) (p : Nat) (t : Tlp) : State :=
  if !s.isUp p then s else refuseNp s p (srcAt s p) ownerM t (if isCfg t.kind then .rrs else .ur)

/-- The function that a configuration request names is the device's own in the VH of port `p`. -/
def ownFunction (s : State) (p : Nat) (t : Tlp) : Bool :=
  match vhOfPort s p with
  | none => false
  | some vn => match s.vhRec vn with
    | none => false
    | some v => match busHit s vn v t.cid with | .own => true | .internal _ => true | _ => false

/-- An upstream port in Safe (R331): its own functions and the MF's BARs answer. -/
def safeIn (s : State) (p : PortId) (t : Tlp) : State :=
  let c := classify s p t.rid t.pasid
  let o := match c with | some x => x.1 | none => ownerM
  if isCfg t.kind ∧ ownFunction s p t then cfgAnswer s p (srcAt s p) o t
  else match mfHit s s.device.managerVh t.addr.toNat with
    | some (bar, off) =>
      if isMem t.kind ∧ c.isSome ∧ vhOfPort s p = some s.device.managerVh then
        let trusted := match c with | some x => x.2 | none => false
        carryVerdict s { p := p, src := srcAt s p, owner := o, trusted := trusted } t (mfVerdict s o trusted t bar off)
      else refuseNp s p (srcAt s p) o t .ur
    | none => refuseNp s p (srcAt s p) o t .ur

/-- A quarantined port (R364): error messages go on to classification. -/
def quarantinedIn (s : State) (p : PortId) (t : Tlp) : State :=
  if isErrMsg t then classifyIn s p t else countQblock (refuseNp s p (srcAt s p) ownerM t .ur) p none

/-- A request enters at a port. -/
def requestIn (s : State) (p : PortId) (t : Tlp) : State :=
  if s.mode = .load ∨ s.mode = .assay ∨ (s.mode = .safe ∧ s.fab.runSince.isNone) then earlyIn s p t
  else if deaf s p then s
  else if t.malformed then linkError s p true aerMalformed (some t)
  else if s.mode = .safe then (if s.isUp p then safeIn s p t else s)
  else if (s.port p).quarantine then quarantinedIn s p t
  else classifyIn s p t

/-- The staging that a port's credits of a type advertise: of 48 KiB per station, its share by configured width, divided 3:1:2 (R136). -/
def creditShare (s : State) (p : Nat) (c : Fin 3) : Nat :=
  let w := ((List.range 8).map (slotWidth s (stationOf p))).sum
  (if w = 0 then 49152 else 49152 * cfgWidth s p / w) * [3, 1, 2].getD c 0 / 6

/-- Bytes of a port and type in staging: credits that have not returned to the link partner. -/
def stagedBytes (s : State) (p : Nat) (c : Fin 3) : Nat :=
  ((s.staging.filter (fun x => match x.key with | .port q d => q.val == p && d == c | .block _ => false)).map (fun x => tlpBytes x.tlp)).sum

/-- A TLP arrives beyond the credit that the port advertised: Receiver Overflow (Table 10.2). -/
def overCredit (s : State) (p : Nat) (t : Tlp) : Bool := decide (creditShare s p (creditOf t) < stagedBytes s p (creditOf t) + tlpBytes t)

/-- A port takes requests: an upstream or downstream port with DL_UP. -/
def takesRequests (s : State) (p : Nat) : Bool := s.mode != .reset && (s.isUp p || s.isDown p) && (s.port p).link.dlUp

/-- REQUEST_RECEIVED. -/
def execRequestReceived (port : PortId) (tlp : Tlp) (s : State) : Host.Outcome State Fault Refusal :=
  .next (if !takesRequests s port ∨ tlp.kind = .cpl then s
    else if overCredit s port tlp ∧ !deaf s port then linkError s port true aerOverflow
    else requestIn s port tlp)

/-- ERROR_MESSAGE_RECEIVED. -/
def execErrorMessageReceived (port : PortId) (tlp : Tlp) (s : State) : Host.Outcome State Fault Refusal :=
  .next (if takesRequests s port ∧ s.isDown port ∧ isErrMsg tlp then requestIn s port tlp else s)

/-! Admission (R113, R121, R136, R137). -/

/-- A destination of a posted TLP that a TLP toward `d` may not pass: the same one, or a group with a copy toward it. -/
def coversDest (s : State) (y d : Dest) : Bool :=
  y == d || (match y with
    | .group g => (match mcastRec s g with | some m => m.dests.any (fun c => toPort s c == d) | none => false)
    | _ => false)

/-- A posted TLP of the same domain stands before `x`, which may not pass it (R112). -/
def behindPosted (s : State) (x : Staged) : Bool :=
  !isPosted x.tlp.kind
    && s.staging.any (fun y => decide (y.id < x.id) && isPosted y.tlp.kind && y.src == x.src && y.owner == x.owner && y.tlp.tc == x.tlp.tc
      && !attrPass x.tlp y.tlp && coversDest s y.dest x.dest)

/-- A request that must take a tracker entry: toward a downstream port, toward a fabric port at its source chip, or from crossbar
port 10 or 11 (R121, R125). -/
def mustTrack (s : State) (x : Staged) (e : Nat) : Bool :=
  isNonPosted x.tlp.kind && (s.isDown e || (s.isFabric e && x.src.chip == s.chipId) || (decide (0x7E ≤ x.src.port) && x.src.chip == s.chipId))

/-- The egress of a staged TLP, with the header that it carries. -/
def egressFor (s : State) (x : Staged) : Option Nat × Option Farug :=
  match x.dest with
  | .port q => (some q, none)
  | .remote c q =>
    let f := x.farug.getD (stampFarug x.src x.owner x.tlp.tc.toNat x.trusted x.epoch c q)
    (match tlpRoute s x.tlp f with | .send m => (some m, some f) | .hold m => (some m, some f) | .none => (none, some f))
  | _ => (none, none)

/-- Where a staged TLP for another chip is for. -/
def stagedDest (x : Staged) : Option (Nat × Nat) := match x.dest with | .remote c q => some (c, q) | _ => none

/-- A staged TLP whose destination has been contained since (R302), or has lost its route (R264). -/
def refuseStaged (s : State) (x : Staged) (q : Option Nat) : State :=
  let s := noteEnded (unstage s x.id) x.isOpen x.id x.id x.ingress
  let at_ := if x.ingress < 80 then x.ingress else 0
  match q with
  | some q =>
    if isNonPosted x.tlp.kind then (answerStatus s 12 q x.src x.owner x.tlp (containStatus s q)).bump (offPrt q 0xA0)
    else countCtnDrop s q x.owner
  | none =>
    let s := countNoRoute s (if x.ingress < 80 then stationOf at_ else 0x0A) x.owner (if x.ingress < 80 then x.ingress else 0x7F) (stagedDest x)
    let s := if isErrForward x.owner x.tlp then s.bump (offGlb 0x140) else s
    if isNonPosted x.tlp.kind ∧ x.src.chip = s.chipId then answerStatus s 12 at_ x.src x.owner x.tlp .ur else s

/-- The destination port is contained; what R331 exempts still goes. -/
def shutTo (s : State) (q : Nat) (x : Staged) : Bool :=
  let c := (s.port q).contain
  (c.phase == 1 || c.phase == 2) && !s.isFabric q
    && !(s.isUp q && c.cause == 9 && x.tlp.kind == .cpl && (x.src.port == q || x.src.port == 0x7F))

/-- A TLP joins its class queue. -/
def queueStaged (s : State) (x : Staged) (e : Nat) (f : Option Farug) : State :=
  let n := tlpCells x.tlp
  enqueue (takeCells { takeBanks (unstage s x.id) n with nextId := s.nextId + 1 } x.owner x.cls e n)
    { id := s.nextId, tlp := x.tlp, src := x.src, owner := x.owner, cls := x.cls, egress := e, origin := x.id, bytes := tlpBytes x.tlp, cells := n,
      banks := banksFor s n, ingress := x.ingress, isOpen := x.isOpen, needTrk := mustTrack s x e, enq := replicaOf s (stationOf e), farug := f }

/-- A TLP for crossbar port 10 or 11 is delivered once it is complete: its cells are allocated, read and free again in this step. One whose
read meets a double-bit error is lost (R27, R120). -/
def deliverStaged (s : State) (x : Staged) (ecc : Option (Nat × Bool)) : State :=
  if x.isOpen then s
  else
    let n := tlpCells x.tlp
    let l := banksFor s n
    let s := eccSeen (freeBanks (takeBanks (unstage s x.id) n) l) x.owner (egressOf x.dest) l ecc
    if isDouble ecc then s
    else if x.dest = .crucible then deliverCru s x.owner x.src x.trusted x.tlp else deliverHk s x.owner x.src x.tlp

/-- The admit stage for one TLP. Its cells are taken where R137 admits it; one that waits is counted once in TNT_BUFWAIT. -/
def admitOne (s : State) (ecc : Option (Nat × Bool)) (x : Staged) : State :=
  if x.red.isSome ∨ behindPosted s x then s
  else if behindWait s x then countWait s x
  else match x.dest with
    | .group _ => s
    | .port q =>
      if shutTo s q x then refuseStaged s x (some q)
      else if mayAdmit s x.owner x.cls q (tlpCells x.tlp) then queueStaged s x q none else countWait s x
    | .remote _ _ =>
      (match egressFor s x with
        | (some m, f) => if mayAdmit s x.owner x.cls m (tlpCells x.tlp) then queueStaged s x m f else countWait s x
        | (none, _) => refuseStaged s x none)
    | d => if mayAdmit s x.owner x.cls (egressOf d) (tlpCells x.tlp) then deliverStaged s x ecc else countWait s x

/-- The TLPs of a queue that may try: the first of a port's, and the first of each account of a block's. -/
def admitHeads (s : State) (k : StageKey) : List Staged :=
  let l := s.staging.filter (fun x => x.key == k)
  match k with
  | .port _ _ => l.take 1
  | .block _ => l.filter (fun x => l.all (fun y => decide (x.id ≤ y.id) || acct y.owner y.cls != acct x.owner x.cls))

/-- The TLPs that may try do so in order, up to the first that leaves the queue. -/
def admitFirst (s : State) (ecc : Option (Nat × Bool)) : List Staged → State
  | [] => s
  | x :: r =>
    let t := admitOne s ecc x
    if t.staging.any (fun y => y.id == x.id) then admitFirst t ecc r else t

/-- ADMIT: one TLP of the queue that may try is admitted. In a block's queue the accounts try in order of forming. `ecc` is what crossbar
port 10 or 11 finds where it reads the TLP's cells. -/
def execAdmit (a : Admission) (s : State) : Host.Outcome State Fault Refusal :=
  .next (admitFirst s a.ecc (admitHeads s a.key))

end Sys2Proof.Machine
end

