-- ==== Sys2Proof/Machine/Complete.lean ====
section
/-! DEFINITION. Completions, the tracker's sweeps, the ends of containment and drain, and TLPs that arrive over the fabric
(R107, R126 to R131, R259 to R264, R269, R270, R284, R294, R301, R307, R309). -/

namespace Sys2Proof.Machine

/-! Completions (R126, R128). -/

/-- Where the request of an entry under a fabric tag was for. -/
def trkDest (e : Trk) : Option (Nat × Nat) := if e.fabric then some (e.dstChip, e.dstPort) else none

/-- A late completion of owner `o` at port `p` is discarded; `dest` is where its request was for. -/
def lateCpl (s : State) (p : Nat) (o : Owner) (dest : Option (Nat × Nat) := none) : State :=
  let s := (s.bump (offPrt p 0x60)).bump (offTnt (0x40004 + 16 * o))
  reportPort (s.setEvt (offPrt p 0x4C) 2) p 0x32 (some o) none dest

/-- An unexpected completion is discarded; it has no owner. -/
def unexpectedCpl (s : State) (p : Nat) : State := reportPort ((s.bump (offPrt p 0x64)).setEvt (offPrt p 0x4C) 3) p 0x33

/-- A completion at port `p` answers requests that left by port `e`: the same port, or any two fabric ports of the chip (R125). -/
def sameSpace (s : State) (p e : Nat) : Bool := e == p || (s.isFabric p && s.isFabric e)

/-- The entry that a completion at port `p` selects: an IDE one by its key, a fabric tag, or a device tag, with the Requester ID too at
an upstream port (R123, R125, R128). -/
def lookupTrk (s : State) (p : Nat) (c : Tlp) : Option Trk :=
  s.tracker.find? (fun e =>
    if c.ide then e.ide && !e.retired && sameSpace s p e.egress && e.rid == c.rid && e.origTag == c.tag
    else e.xlated && decide (e.devTag = c.tag.toNat) &&
      (if s.isFabric p then e.fabric else !e.fabric && e.egress == p && (!s.isUp p || e.rid == c.rid)))

/-- A key of the IDE quarantine list that a completion matches. -/
def quarantinedKey (s : State) (p : Nat) (c : Tlp) : Option IdeKey :=
  s.ideQ.find? (fun k => c.ide && sameSpace s p k.egress && k.rid == c.rid && k.tag == c.tag)

/-- Where the completion of an entry goes: to the requester; a peer's completion is redirected by ACS (Table 4.3). -/
def cplTarget (s : State) (p : Nat) (e : Trk) (c : Tlp) : Dest :=
  let peer := s.isDown p && e.src.chip == s.chipId && s.isDown e.src.port && acsBit s p 3 && !c.relaxed
  match vhOfPort s p with
  | some vn => (match s.vhRec vn with
    | some v => if peer then toUp s v else destOfSrc s e.src
    | none => destOfSrc s e.src)
  | none => destOfSrc s e.src

/-- An open entry's completion: its entry closes where it is the last, and the completion goes on with the original tag. -/
def forwardCpl (s : State) (p : PortId) (e : Trk) (c : Tlp) : State :=
  let left := e.bytes - c.data.length
  let s := if e.single ∨ left = 0 ∨ c.status ≠ .sc then freeTrk s e.id else modTrk s e.id (fun x => { x with bytes := left })
  toDest (sampleTaps s p false e.owner c) { p := p, src := srcAt s p, owner := e.owner } { c with tag := e.origTag } (cplTarget s p e c)

/-- An untracked completion at an upstream port (R107, R110): its tenant is that of the destination port's entry for the Requester
ID. -/
def untrackedCpl (s : State) (p : PortId) (c : Tlp) : State :=
  match vhOfPort s p with
  | none => unexpectedCpl s p
  | some vn => match s.vhRec vn with
    | none => unexpectedCpl s p
    | some v => match cplDest s v p (s.isUp p) c with
      | some (.port q) => (match cplTenant s q c.rid with
        | some o => toDest (sampleTaps s p false o c) { p := p, src := srcAt s p, owner := o } c (.port q)
        | none => unexpectedCpl s p)
      | _ => unexpectedCpl s p

def cplIn (s : State) (p : PortId) (c : Tlp) : State :=
  match lookupTrk s p c with
  | some e => if e.retired then lateCpl s p e.owner (trkDest e) else forwardCpl s p e c
  | none => match quarantinedKey s p c with
    | some k => lateCpl s p k.owner
    | none => if s.isUp p then untrackedCpl s p c else unexpectedCpl s p

/-- COMPLETION_RECEIVED at an upstream or downstream port. -/
def execCompletionReceived (port : PortId) (tlp : Tlp) (s : State) : Host.Outcome State Fault Refusal :=
  .next (if !takesRequests s port ∨ tlp.kind ≠ .cpl ∨ s.mode = .load ∨ s.mode = .assay ∨ deaf s port then s
    else if overCredit s port tlp then linkError s port true aerOverflow
    else if tlp.malformed then linkError s port true aerMalformed (some tlp)
    else cplIn s port tlp)

/-! The sweep (R307). -/

/-- An open entry's timer has passed its limit before this sweep. -/
def timedOut (s : State) (e : Trk) : Bool :=
  !e.retired && (match e.start with | some t => decide (t + 1000 * e.timeout < s.clock) | none => false)

/-- A completion timeout: counted, logged and reported, and the entry retires; with CA where the request went to a LOST chip (R284). -/
def timeOut (s : State) (e : Trk) : State :=
  let p := e.egress
  let lost := e.fabric && s.fab.lost.getLsbD e.dstChip
  let s := (s.bump (offPrt p 0xA4)).bump (offTnt (0x62000 + 8 * e.owner))
  let s := s.setEvt (offPrt p 0x94) 2
  let s := flowError s 0x0A 0x37 aerTimeout e.owner p (some { port := e.dstPort, chip := e.dstChip }) (some { e.hdr with tag := e.origTag })
  retire s e (if lost then .ca else containStatus s p)

def execCompletionTimeout (s : State) : Host.Outcome State Fault Refusal :=
  .next ((s.tracker.filter (timedOut s)).foldl timeOut s)

/-- TAG_QUARANTINE_END: retired entries whose time is over are freed with their tags. -/
def execTagQuarantineEnd (s : State) : Host.Outcome State Fault Refusal :=
  .next { s with tracker := s.tracker.filter (fun e => !(e.retired && decide (e.until_ ≤ s.clock))) }

def execIdeQuarantineEnd (s : State) : Host.Outcome State Fault Refusal :=
  .next { s with ideQ := s.ideQ.filter (fun k => decide (s.clock < k.until_)) }

/-! Ends of containment and drain. -/

/-- CONTAINMENT_COMPLETE: steps 3, 4 and 6 of R301. -/
def execContainmentComplete (port : PortId) (s : State) : Host.Outcome State Fault Refusal :=
  .next (if (s.port port).contain.phase = 1 then containFinish s port else s)

/-- The drain of a port may end (R309). -/
def drainOver (s : State) (p : Nat) : Bool :=
  s.tracker.all (fun e => e.egress != p || e.retired) || decide ((s.port p).contain.drainSince + 1000 * cplTimeout s p + 2000 ≤ s.clock)

/-- ORDERLY_DRAIN_END: the port is contained with cause ORDERLY, and its slot is powered off. -/
def execOrderlyDrainEnd (port : PortId) (s : State) : Host.Outcome State Fault Refusal :=
  .next (if (s.port port).contain.phase = 3 ∧ drainOver s port then
      let s := (contain s port 5).setEvt (offPrt port 0x94) 3
      match slotOfPort s port with
      | some n => commandedCut s n
      | none => s
    else s)

/-! The fabric (R259 to R264, R269, R270). -/

/-- A misdelivered TLP is discarded, counted and reported S2 to M (R264). -/
def misdelivered (s : State) (p : Nat) : State := reportPort (s.bump (offFab 0x58)) p 0x74 (some ownerM)

/-- The owner that a Farug header carries. -/
def farugOwner (f : Farug) : Owner := if f.ownerM then ownerM else f.tenant

/-- A TLP for another chip crosses this one: by its header alone, with HOPS one lower. -/
def transit (s : State) (p : PortId) (f : Farug) (t : Tlp) : State :=
  let o := farugOwner f
  if f.hops = 0 then s.bump (offFab 0x50)
  else
    let g := { f with hops := f.hops - 1 }
    match fabRoute s g with
    | .none => countNoRoute (if isErrForward o t then s.bump (offGlb 0x140) else s) (stationOf p) o p (farDest (some f))
    | _ => stageIn (sampleTaps s p false o t)
        { p := p, src := { chip := f.srcChip, port := f.srcPort }, owner := o, trusted := f.trusted, farug := some g } t (.remote f.dstChip f.dstPort)

/-- The newest epoch of which this chip knows: the one that a flip ahead of it begins, or its own. -/
def newEpoch (f : Fab) : Bool := if f.flip.isSome then !f.epoch else f.epoch

/-- A TLP for this chip is counted in its source's epoch (R269). -/
def countArrival (s : State) (f : Farug) : State :=
  let k := epochKey f.srcChip f.epoch
  s.modFab (fun b => { b with
    rcvd := tset 0 b.rcvd k (tget 0 b.rcvd k + 1)
    newSeen := if f.epoch = newEpoch b then b.newSeen ||| BitVec.ofNat 16 (2 ^ f.srcChip) else b.newSeen })

/-- An old-epoch TLP that comes after a new-epoch one of the same chip (R270). -/
def isLateEpoch (s : State) (f : Farug) : Bool := f.epoch != newEpoch s.fab && s.fab.newSeen.getLsbD f.srcChip

/-- The gate of the target port of this chip for a request that came over the fabric (R111, R114, R146): direct peer-to-peer, returned
under Upstream Forwarding, or a multicast copy. The second part says the last. -/
def arrivalGate (s : State) (f : Farug) (t : Tlp) : GateResult × Bool :=
  let o := farugOwner f
  match vhOfPort s f.dstPort with
  | none => (.pass, false)
  | some vn => match s.vhRec vn with
    | none => (.pass, false)
    | some v =>
      let copy := t.kind == .mwr && (mcIndex s vn t.addr.toNat).isSome
      let fromHost := f.srcChip == v.upChip && f.srcPort == v.upPort && (belowOf s v t.rid).isNone
      if o = ownerM ∨ !s.isDown f.dstPort ∨ isCfg t.kind ∨ (fromHost ∧ !copy) then (.pass, copy)
      else (p2pCheck s f.dstPort o f.trusted t, copy)

/-- A direct peer-to-peer request that its gate rejects goes to the upstream port where its source port redirects (R114, Table 7.6). -/
def redirectUp (s : State) (f : Farug) : Option Dest :=
  match vhOfPort s f.dstPort with
  | none => none
  | some vn => match s.vhRec vn with
    | none => none
    | some v =>
      let x : PortChip := { port := f.srcPort, chip := f.srcChip }
      if v.ds.contains x && (s.bridge (bridgeKey s x)).acsCtl.getLsbD 2 then some (toUp s v) else none

/-- A copy that the gate of its destination rejects is a miss with cause GATE of the group that this chip's table has for its address
(R146). SEQ of the write does not travel with the copy. -/
def missFar (s : State) (q : Nat) (t : Tlp) : State :=
  match vhOfPort s q with
  | none => s
  | some vn => match (mcIndex s vn t.addr.toNat).bind (groupOf s vn) with
    | none => s
    | some (g, m) =>
      let k := m.dests.idxOf { port := q, chip := s.chipId }
      if k < m.dests.length then missCopies s g (Config.farSeq s.clock).toNat s.now 32 (w64 (2 ^ k)) else s

/-- A TLP is delivered at its destination chip. -/
def arrive (s : State) (p : PortId) (f : Farug) (t : Tlp) : State :=
  let o := farugOwner f
  let e : Entering := { p := p, src := { chip := f.srcChip, port := f.srcPort }, owner := o, trusted := f.trusted }
  let q := f.dstPort
  if t.kind = .cpl then
    (match lookupTrk s p t with
      | some x => if x.retired then lateCpl s p x.owner (trkDest x) else forwardCpl s p x t
      | none => match quarantinedKey s p t with
        | some k => lateCpl s p k.owner
        | none => unexpectedCpl s p)
  else if isErrForward o t then remoteReport s t
  else if q = 0x7E ∨ q = 0x7F then s
  else match arrivalGate s f t with
    | (.pass, _) => toDest (sampleTaps s p false o t) e t (.port q)
    | (.reject m c b n, copy) =>
      match if copy then none else redirectUp s f with
      | some d => toDest (sampleTaps s p false o t) e t d
      | none =>
      gateRefuse (if copy then missFar (sampleTaps s p false o t) q t else sampleTaps s p false o t) p e.src o t (some { port := q, chip := s.chipId })
        { gate := gateP2P q, tenant := o, kind := t.kind, priv := isPriv t f.trusted, exe := isExe t, mcast := copy, rid := t.rid,
          start := t.addr.toNat } m c b n

/-- A DST_PORT that this chip has: an upstream or downstream port, or crossbar port 10 or 11. -/
def hasDst (s : State) (q : Nat) : Bool := s.isUp q || s.isDown q || q == 0x7E || q == 0x7F

/-- FABRIC_TLP_RECEIVED. -/
def execFabricTlpReceived (port : PortId) (f : Farug) (tlp : Tlp) (s : State) : Host.Outcome State Fault Refusal :=
  .next (if !s.isFabric port ∨ (s.fabLink port).st ≠ 3 ∨ !s.inRunModes ∨ (s.port port).contain.phase ≠ 0 then s
    else if overCredit s port tlp then linkError s port true aerOverflow
    else if f.dstChip ≠ s.chipId then
      (if 16 ≤ f.dstChip ∨ !(fabricRec s).chipMask.getLsbD f.dstChip then misdelivered s port else transit s port f tlp)
    else
      let late := isLateEpoch s f
      let s := countArrival s f
      if f.stomp then s
      else if late then reportPort (countFabLoss (s.bump (offFab 0x48)) (farugOwner f)) port 0x74 (some (farugOwner f)) none (farDest (some f))
      else if !hasDst s f.dstPort then misdelivered s port
      else arrive s port f tlp)

end Sys2Proof.Machine
end

