-- ==== Sys2Proof/Machine/Dispatch.lean ====
section
/-! DEFINITION. The dispatch: one arm per command, each a direct call of its meaning. -/

namespace Sys2Proof.Machine

def exec (i : Instr) (s : State) : Host.Outcome State Fault Refusal :=
  match i with
  | .powerOnReset lowNs => Sys2Proof.Machine.execPowerOnReset lowNs s
  | .powerGoodLost lowNs => Sys2Proof.Machine.execPowerGoodLost lowNs s
  | .perstNAssert lowNs => Sys2Proof.Machine.execPerstNAssert lowNs s
  | .perstNDeassert => Sys2Proof.Machine.execPerstNDeassert s
  | .slotWarnCutTimer n => Sys2Proof.Machine.execSlotWarnCutTimer n s
  | .slotPowerDieReset mv durNs => Sys2Proof.Machine.execSlotPowerDieReset mv durNs s
  | .ingotSlotFetch img => Sys2Proof.Machine.execIngotSlotFetch img s
  | .ingotApply hwError => Sys2Proof.Machine.execIngotApply hwError s
  | .assayBlockDone b o => Sys2Proof.Machine.execAssayBlockDone b o s
  | .assayStationPairStart => Sys2Proof.Machine.execAssayStationPairStart s
  | .internalInitDone => Sys2Proof.Machine.execInternalInitDone s
  | .assayEnd => Sys2Proof.Machine.execAssayEnd s
  | .lifecycleBurn => Sys2Proof.Machine.execLifecycleBurn s
  | .mbxClaimRead path => Sys2Proof.Machine.execMbxClaimRead path s
  | .mbxRelease path => Sys2Proof.Machine.execMbxRelease path s
  | .mbxIdleRelease => Sys2Proof.Machine.execMbxIdleRelease s
  | .getState path seq => Sys2Proof.Machine.execGetState path seq s
  | .ackFaultEntry path seq entry => Sys2Proof.Machine.execAckFaultEntry path seq entry s
  | .ackFaultUpToLevel path seq level => Sys2Proof.Machine.execAckFaultUpToLevel path seq level s
  | .ackFaultAll path seq => Sys2Proof.Machine.execAckFaultAll path seq s
  | .releaseContain path seq port => Sys2Proof.Machine.execReleaseContain path seq port s
  | .amend path seq validateOnly partOffset bytes => Sys2Proof.Machine.execAmend path seq validateOnly partOffset bytes s
  | .amendPart path seq validateOnly partOffset bytes => Sys2Proof.Machine.execAmendPart path seq validateOnly partOffset bytes s
  | .slotPowerRead path seq slot => Sys2Proof.Machine.execSlotPowerRead path seq slot s
  | .slotPowerOn path seq slot => Sys2Proof.Machine.execSlotPowerOn path seq slot s
  | .slotPowerForceOn path seq slot => Sys2Proof.Machine.execSlotPowerForceOn path seq slot s
  | .slotPowerOff path seq slot => Sys2Proof.Machine.execSlotPowerOff path seq slot s
  | .slotPowerOffDrain path seq slot => Sys2Proof.Machine.execSlotPowerOffDrain path seq slot s
  | .slotPowerClearLatch path seq slot => Sys2Proof.Machine.execSlotPowerClearLatch path seq slot s
  | .assayStation path seq station run => Sys2Proof.Machine.execAssayStation path seq station run s
  | .assayStationHang => Sys2Proof.Machine.execAssayStationHang s
  | .setTime path seq seconds atNextPps => Sys2Proof.Machine.execSetTime path seq seconds atNextPps s
  | .setTimeTimeout => Sys2Proof.Machine.execSetTimeTimeout s
  | .snapshotAt path seq at_ snapId => Sys2Proof.Machine.execSnapshotAt path seq at_ snapId s
  | .snapshotTake => Sys2Proof.Machine.execSnapshotTake s
  | .routeEpoch path seq at_ newTag => Sys2Proof.Machine.execRouteEpoch path seq at_ newTag s
  | .routeEpochPrepareTimeout => Sys2Proof.Machine.execRouteEpochPrepareTimeout s
  | .epochFlip => Sys2Proof.Machine.execEpochFlip s
  | .drainTimeout chip => Sys2Proof.Machine.execDrainTimeout chip s
  | .unlockChallenge path seq level => Sys2Proof.Machine.execUnlockChallenge path seq level s
  | .unlockResponse path seq nonce sig => Sys2Proof.Machine.execUnlockResponse path seq nonce sig s
  | .unlockHoldEnd => Sys2Proof.Machine.execUnlockHoldEnd s
  | .enterMaintTarget0 path seq => Sys2Proof.Machine.execEnterMaintTarget0 path seq s
  | .maintBufferScrub => Sys2Proof.Machine.execMaintBufferScrub s
  | .scrubDone => Sys2Proof.Machine.execScrubDone s
  | .enterMaintTarget1 path seq => Sys2Proof.Machine.execEnterMaintTarget1 path seq s
  | .injectMessage path seq msg => Sys2Proof.Machine.execInjectMessage path seq msg s
  | .injectRailAlarm path seq block durationUs => Sys2Proof.Machine.execInjectRailAlarm path seq block durationUs s
  | .injectRailEqual path seq block durationUs => Sys2Proof.Machine.execInjectRailEqual path seq block durationUs s
  | .injectD2dBreak path seq durationUs => Sys2Proof.Machine.execInjectD2dBreak path seq durationUs s
  | .evictTenant path seq tenant => Sys2Proof.Machine.execEvictTenant path seq tenant s
  | .evictComplete t => Sys2Proof.Machine.execEvictComplete t s
  | .evictTimeout => Sys2Proof.Machine.execEvictTimeout s
  | .groupAdminRead path seq group dest => Sys2Proof.Machine.execGroupAdminRead path seq group dest s
  | .groupAdminAdd path seq group dest => Sys2Proof.Machine.execGroupAdminAdd path seq group dest s
  | .groupAdminRemove path seq group dest => Sys2Proof.Machine.execGroupAdminRemove path seq group dest s
  | .resume path seq => Sys2Proof.Machine.execResume path seq s
  | .passwordUnlock path seq password => Sys2Proof.Machine.execPasswordUnlock path seq password s
  | .registerWrite target be value => Sys2Proof.Machine.execRegisterWrite target be value s
  | .timNowloRead path => Sys2Proof.Machine.execTimNowloRead path s
  | .vfNtfypopRead t be => Sys2Proof.Machine.execVfNtfypopRead t be s
  | .vfSqtailWrite t tail => Sys2Proof.Machine.execVfSqtailWrite t tail s
  | .fabGopBarrier path barrierId => Sys2Proof.Machine.execFabGopBarrier path barrierId s
  | .fabGopBroadcast path => Sys2Proof.Machine.execFabGopBroadcast path s
  | .fabGopCancel path => Sys2Proof.Machine.execFabGopCancel path s
  | .fabGopFabricReset path confirm => Sys2Proof.Machine.execFabGopFabricReset path confirm s
  | .mcReceiveWrite x bits => Sys2Proof.Machine.execMcReceiveWrite x bits s
  | .linkDisable port writer disable => Sys2Proof.Machine.execLinkDisable port writer disable s
  | .retrainLink port writer => Sys2Proof.Machine.execRetrainLink port writer s
  | .targetLinkSpeedWrite port writer speed => Sys2Proof.Machine.execTargetLinkSpeedWrite port writer speed s
  | .dpcSoftwareTrigger port => Sys2Proof.Machine.execDpcSoftwareTrigger port s
  | .dpcTriggerStatusClear port => Sys2Proof.Machine.execDpcTriggerStatusClear port s
  | .vfBmeClear t => Sys2Proof.Machine.execVfBmeClear t s
  | .vfBmeSet t => Sys2Proof.Machine.execVfBmeSet t s
  | .vfFlr t => Sys2Proof.Machine.execVfFlr t s
  | .vfFlrComplete t => Sys2Proof.Machine.execVfFlrComplete t s
  | .laneMarginingCommand st j lastStepNs => Sys2Proof.Machine.execLaneMarginingCommand st j lastStepNs s
  | .i3cWrite off bytes => Sys2Proof.Machine.execI3cWrite off bytes s
  | .i3cReadSetup off count => Sys2Proof.Machine.execI3cReadSetup off count s
  | .i3cPrivateRead => Sys2Proof.Machine.execI3cPrivateRead s
  | .i3cAddressAssign addr => Sys2Proof.Machine.execI3cAddressAssign addr s
  | .debugMasterAccess via gate write addr len data => Sys2Proof.Machine.execDebugMasterAccess via gate write addr len data s
  | .jtagKeyProvision slot key => Sys2Proof.Machine.execJtagKeyProvision slot key s
  | .jtagFieldReturn => Sys2Proof.Machine.execJtagFieldReturn s
  | .spdmRequest port req => Sys2Proof.Machine.execSpdmRequest port req s
  | .requestReceived port tlp => Sys2Proof.Machine.execRequestReceived port tlp s
  | .poolWindowAccess t a => Sys2Proof.Machine.execPoolWindowAccess t a s
  | .multicastWrite port => Sys2Proof.Machine.execMulticastWrite port s
  | .atomicAdmitTimeout port => Sys2Proof.Machine.execAtomicAdmitTimeout port s
  | .parkRedelivery g dest readError => Sys2Proof.Machine.execParkRedelivery g dest readError s
  | .deliveryReportWrite => Sys2Proof.Machine.execDeliveryReportWrite s
  | .sampleWrite writerFull => Sys2Proof.Machine.execSampleWrite writerFull s
  | .completionReceived port tlp => Sys2Proof.Machine.execCompletionReceived port tlp s
  | .errorMessageReceived port tlp => Sys2Proof.Machine.execErrorMessageReceived port tlp s
  | .ptmRequest port rxStamp => Sys2Proof.Machine.execPtmRequest port rxStamp s
  | .admitTlp a => Sys2Proof.Machine.execAdmit a s
  | .policerTick => Sys2Proof.Machine.execPolicerTick s
  | .descriptorClose id c => Sys2Proof.Machine.execDescriptorClose id c s
  | .egressSelection port m => Sys2Proof.Machine.execEgressSelection port m s
  | .stallRel port => Sys2Proof.Machine.execStallRel port s
  | .fabricStallStomp x => Sys2Proof.Machine.execFabricStallStomp x s
  | .thresholdTick => Sys2Proof.Machine.execThresholdTick s
  | .shaperRefill => Sys2Proof.Machine.execShaperRefill s
  | .gateBoundary port => Sys2Proof.Machine.execGateBoundary port s
  | .gateListSwitch port => Sys2Proof.Machine.execGateListSwitch port s
  | .monitorSample port => Sys2Proof.Machine.execMonitorSample port s
  | .completionTimeout => Sys2Proof.Machine.execCompletionTimeout s
  | .tagQuarantineEnd => Sys2Proof.Machine.execTagQuarantineEnd s
  | .ideQuarantineEnd => Sys2Proof.Machine.execIdeQuarantineEnd s
  | .containmentComplete port => Sys2Proof.Machine.execContainmentComplete port s
  | .orderlyDrainEnd port => Sys2Proof.Machine.execOrderlyDrainEnd port s
  | .linkDlUp port width retimers reversed peerRate peerFlit peerBypass tag10 peerChip => Sys2Proof.Machine.execLinkDlUp port width retimers reversed peerRate peerFlit peerBypass tag10 peerChip s
  | .linkDlDown port => Sys2Proof.Machine.execLinkDlDown port s
  | .tagCapabilityRead port tag10 tag14 => Sys2Proof.Machine.execTagCapabilityRead port tag10 tag14 s
  | .rateEqComplete port rate eyes => Sys2Proof.Machine.execRateEqComplete port rate eyes s
  | .alignmentHunt st j blocks => Sys2Proof.Machine.execAlignmentHunt st j blocks s
  | .alignLost st x => Sys2Proof.Machine.execAlignLost st x s
  | .los st x => Sys2Proof.Machine.execLos st x s
  | .lockLost st x => Sys2Proof.Machine.execLockLost st x s
  | .quadPll st x => Sys2Proof.Machine.execQuadPll st x s
  | .quadPllRelock st q => Sys2Proof.Machine.execQuadPllRelock st q s
  | .quadFail st q => Sys2Proof.Machine.execQuadFail st q s
  | .quadRelockRetry st q relocked => Sys2Proof.Machine.execQuadRelockRetry st q relocked s
  | .laneGroupReset st q => Sys2Proof.Machine.execLaneGroupReset st q s
  | .burnishStep st j base up down => Sys2Proof.Machine.execBurnishStep st j base up down s
  | .aspmL1Entry e byPartner => Sys2Proof.Machine.execAspmL1Entry e byPartner s
  | .stationClockWake st => Sys2Proof.Machine.execStationClockWake st s
  | .l0pNarrow x width => Sys2Proof.Machine.execL0pNarrow x width s
  | .l0pWiden x => Sys2Proof.Machine.execL0pWiden x s
  | .fabricTlpReceived port f tlp => Sys2Proof.Machine.execFabricTlpReceived port f tlp s
  | .chipidClash port => Sys2Proof.Machine.execChipidClash port s
  | .hello port body => Sys2Proof.Machine.execHello port body s
  | .helloSend port => Sys2Proof.Machine.execHelloSend port s
  | .joinWindowEnd => Sys2Proof.Machine.execJoinWindowEnd s
  | .hold port => Sys2Proof.Machine.execHold port s
  | .eack x epoch count => Sys2Proof.Machine.execEack x epoch count s
  | .eackSend => Sys2Proof.Machine.execEackSend s
  | .sync port tx rx => Sys2Proof.Machine.execSync port tx rx s
  | .syncSend => Sys2Proof.Machine.execSyncSend s
  | .delayMeasure => Sys2Proof.Machine.execDelayMeasure s
  | .delayReq port m => Sys2Proof.Machine.execDelayReq port m s
  | .followerHoldover => Sys2Proof.Machine.execFollowerHoldover s
  | .presence port dir bitmap => Sys2Proof.Machine.execPresence port dir bitmap s
  | .presenceSend => Sys2Proof.Machine.execPresenceSend s
  | .gop port dir body => Sys2Proof.Machine.execGop port dir body s
  | .fabricResetStart => Sys2Proof.Machine.execFabricResetStart s
  | .fault port origin level msg => Sys2Proof.Machine.execFault port origin level msg s
  | .fabricLinkDown port => Sys2Proof.Machine.execFabricLinkDown port s
  | .ringInputChange st => Sys2Proof.Machine.execRingInputChange st s
  | .ringArm => Sys2Proof.Machine.execRingArm s
  | .ppsEdge => Sys2Proof.Machine.execPpsEdge s
  | .holdover => Sys2Proof.Machine.execHoldover s
  | .replicaSync => Sys2Proof.Machine.execReplicaSync s
  | .cupelMessage => Sys2Proof.Machine.execCupelMessage s
  | .railAlarm r => Sys2Proof.Machine.execRailAlarm r s
  | .railEqual r => Sys2Proof.Machine.execRailEqual r s
  | .faultConditionEnd entry => Sys2Proof.Machine.execFaultConditionEnd entry s
  | .msgOvf r => Sys2Proof.Machine.execMsgOvf r s
  | .aliveToggle patternOk => Sys2Proof.Machine.execAliveToggle patternOk s
  | .temperatureRead quarterDegrees => Sys2Proof.Machine.execTemperatureRead quarterDegrees s
  | .hkWatchdog => Sys2Proof.Machine.execHkWatchdog s
  | .avsTick slacks => Sys2Proof.Machine.execAvsTick slacks s
  | .avsRetry acked => Sys2Proof.Machine.execAvsRetry acked s
  | .d2dFrame side f => Sys2Proof.Machine.execD2dFrame side f s
  | .d2dResend => Sys2Proof.Machine.execD2dResend s
  | .d2dLost side => Sys2Proof.Machine.execD2dLost side s
  | .presencePinChange n pinB asserted heldNs => Sys2Proof.Machine.execPresencePinChange n pinB asserted heldNs s
  | .seated n => Sys2Proof.Machine.execSeated n s
  | .removed n => Sys2Proof.Machine.execRemoved n s
  | .identify n r => Sys2Proof.Machine.execIdentify n r s
  | .tinningStart n feedA feedB => Sys2Proof.Machine.execTinningStart n feedA feedB s
  | .powerGood o => Sys2Proof.Machine.execPowerGood o s
  | .rampTimeout n => Sys2Proof.Machine.execRampTimeout n s
  | .rampLimit o => Sys2Proof.Machine.execRampLimit o s
  | .shortDuringRamp o => Sys2Proof.Machine.execShortDuringRamp o s
  | .breaker o => Sys2Proof.Machine.execBreaker o s
  | .severe o => Sys2Proof.Machine.execSevere o s
  | .perstDelayEnd n => Sys2Proof.Machine.execPerstDelayEnd n s
  | .feedWarnChange n active => Sys2Proof.Machine.execFeedWarnChange n active s
  | .warnEnd n => Sys2Proof.Machine.execWarnEnd n s
  | .feedSwap o => Sys2Proof.Machine.execFeedSwap o s
  | .gateStuck o => Sys2Proof.Machine.execGateStuck o s
  | .swapGapEnd n => Sys2Proof.Machine.execSwapGapEnd n s
  | .feedReturn o => Sys2Proof.Machine.execFeedReturn o s
  | .bothBad o => Sys2Proof.Machine.execBothBad o s
  | .fetFail o feedA feedB => Sys2Proof.Machine.execFetFail o feedA feedB s
  | .retryTimerEnd n => Sys2Proof.Machine.execRetryTimerEnd n s
  | .faultCountReset n => Sys2Proof.Machine.execFaultCountReset n s
  | .patinaHour n writeOk => Sys2Proof.Machine.execPatinaHour n writeOk s
  | .energyIntegrate n feeds out => Sys2Proof.Machine.execEnergyIntegrate n feeds out s
  | .hallmarkPass x => Sys2Proof.Machine.execHallmarkPass x s
  | .hallmarkFail n result => Sys2Proof.Machine.execHallmarkFail n result s
  | .channelBringup c probe => Sys2Proof.Machine.execChannelBringup c probe s
  | .selfRefreshEntry c => Sys2Proof.Machine.execSelfRefreshEntry c s
  | .lotFillDone lot => Sys2Proof.Machine.execLotFillDone lot s
  | .engineDescriptorStart t => Sys2Proof.Machine.execEngineDescriptorStart t s
  | .engineDescriptorDone t err => Sys2Proof.Machine.execEngineDescriptorDone t err s
  | .notify t => Sys2Proof.Machine.execNotify t s
  | .patrolBurst c errors => Sys2Proof.Machine.execPatrolBurst c errors s
  | .ddrAlert c retries cleared => Sys2Proof.Machine.execDdrAlert c retries cleared s
  | .channelLost c byAlert => Sys2Proof.Machine.execChannelLost c byAlert s
  | .logLimitMs => Sys2Proof.Machine.execLogLimitMs s
  | .recovery r => Sys2Proof.Machine.execRecovery r s
  | .rateOrWidthChange port rate width active byL0p => Sys2Proof.Machine.execRateOrWidthChange port rate width active byL0p s
  | .losDeassert st x => Sys2Proof.Machine.execLosDeassert st x s
  | .cdrLock st j => Sys2Proof.Machine.execCdrLock st j s
  | .chipidClashRetry port => Sys2Proof.Machine.execChipidClashRetry port s
  | .vccPdResetRelease mv => Sys2Proof.Machine.execVccPdResetRelease mv s
  | .hotReset port writer => Sys2Proof.Machine.execHotReset port writer s

end Sys2Proof.Machine
end

