-- ==== Sys2Proof/Safety.lean ====
section
/-! DEFINITION. What counts as a safe state and a safe step of the Kerene-160, in the terms that claims use. -/

namespace Sys2Proof.Safety

open Sys2Proof.Machine

/-- A step completes: it answers a next state, and neither a fault nor a refusal. -/
def Completes (s : State) : Prop := ∃ t, step s = .next t

/-- Both memories that the device holds are in canonical form. -/
abbrev MemoryCanonical (s : State) : Prop := Memory.wf s.poolMem = true ∧ Memory.wf s.hkMem = true

/-- Every table that the named operations write rises strictly in its keys, so that no key is listed twice, and both memories are in
canonical form. -/
abbrev Canonical (s : State) : Prop :=
  MemoryCanonical s ∧ tsorted 0 s.regs = true ∧ tsorted 0 s.ports = true ∧ tsorted 0 s.slots = true ∧ tsorted 0 s.stations = true ∧
    tsorted 0 s.bridges = true ∧ tsorted 0 s.vhs = true ∧ tsorted 0 s.groups = true ∧ tsorted 0 s.chans = true ∧
    tsorted 0 s.lots = true ∧ tsorted 0 s.vfs = true

/-- Commands that let Cupel act on an event: an S4 reaction, and an S3 reaction that takes a block out of use. -/
def cupelActs (c : Instr) : Bool :=
  match c with
  | .cupelMessage | .railAlarm _ | .railEqual _ | .msgOvf _ | .aliveToggle _ => true
  | _ => false

/-- Writes of registers, through which any mailbox command can be given. -/
def writesRegs (c : Instr) : Bool :=
  match c with
  | .registerWrite _ _ _ | .i3cWrite _ _ | .admitTlp _ => true
  | _ => false

/-- Commands at which a block can be lost in Run. -/
def losesBlock (c : Instr) : Bool :=
  match c with
  | .linkDlDown _ | .quadPll _ _ | .recovery _ | .fabricLinkDown _ | .ddrAlert _ _ _ | .channelLost _ _ | .assayStation _ _ _ _ | .assayStationHang => true
  | _ => false

/-- Table 2.11: whether command `c` carries an event that takes the device from mode `m` to mode `m'`. -/
def modeEvent (c : Instr) (m m' : Mode) : Bool :=
  match m, m' with
  | .reset, .load => (match c with | .perstNDeassert | .slotWarnCutTimer _ => true | _ => false)
  | m, .reset => (match c with
      | .powerOnReset _ | .powerGoodLost _ => true
      | .perstNAssert _ | .fabricResetStart => m != .factory
      | _ => false)
  | .load, .assay => (match c with | .ingotApply _ => true | _ => false)
  | .load, .safe | .assay, .safe | .run, .safe | .degraded, .safe => cupelActs c
  | .assay, .run | .assay, .degraded => c == .assayEnd
  | .run, .degraded => cupelActs c || losesBlock c || writesRegs c
  | .degraded, .run => (match c with | .assayStation _ _ _ _ | .epochFlip => true | _ => writesRegs c)
  | .run, .maintenance | .degraded, .maintenance => (match c with | .enterMaintTarget0 _ _ => true | _ => writesRegs c)
  | .maintenance, .factory => (match c with | .enterMaintTarget1 _ _ => true | _ => writesRegs c)
  | .safe, .run | .safe, .degraded => (match c with | .resume _ _ => true | _ => writesRegs c)
  | _, _ => false

/-- Table 2.11: what the states around a change of mode hold. Load is entered with power-good and PERST_N deasserted, Assay with an ingot in
force, Run with no block unusable or lost and Degraded with one, Safe with the MODE_CAUSE of an S4 reaction, Maintenance at unlock level 2
and Factory at level 3. -/
def modeGuard (s t : State) : Bool :=
  match s.mode, t.mode with
  | .reset, .load => t.pwrgd && t.perstN
  | .load, .assay => t.ingotLive
  | .assay, .run | .degraded, .run | .safe, .run => degradedMask t == 0
  | .assay, .degraded | .safe, .degraded => degradedMask t != 0
  | .run, .degraded => t.modeCause == 4
  | _, .safe => t.modeCause == 5 || t.modeCause == 6
  | .run, .maintenance | .degraded, .maintenance => decide (2 ≤ s.sec.level)
  | .maintenance, .factory => decide (3 ≤ s.sec.level)
  | _, _ => true

/-- Nothing is undone in the one-time key store: from `k` to `k'` the identity and the vendor key stay, a slot goes only from EMPTY to
VALID to REVOKED, the security minimum only rises, and the lifecycle only advances (R385, Table 14.1). -/
def KeysOnward (k k' : KeyStore) : Prop :=
  k'.uid = k.uid ∧ k'.vendorKey = k.vendorKey ∧ k.minSec ≤ k'.minSec ∧ k.lifecycle ≤ k'.lifecycle ∧
    ∀ n, (tget {} k.owner n).st ≤ (tget {} k'.owner n).st ∧ (tget {} k'.owner n).st ≤ 2

/-- The command with sequence number `seq` has been answered: DONE, not BUSY, and MBX_RSP as Table 2.16 lays it out,
with status `st` and `len` bytes of payload. -/
def Answered (t : State) (seq : Byte) (st len : Nat) : Prop :=
  t.mbx.busy = false ∧ t.mbx.done = true ∧ t.mbx.active = none ∧
    t.mbx.rsp = w32 (fld seq.toNat 24 8 + fld (modeNum t.mode) 21 3 + fld len 8 11 + fld st 0 8)

/-- `s` with what an answer through the mailbox can change: the mailbox, the MF's interrupt registers and the MSI-X write that is staged, or
the in-band interrupt that goes out (R415). -/
abbrev afterAnswer (s t : State) : State :=
  { s with mbx := t.mbx, regs := t.regs, staging := t.staging, nextId := t.nextId, out := t.out }

/-- From `s` to `t` a command is answered and nothing else happens: no register but the MF's pending bits has changed, and no TLP is staged
but its one MSI-X write. -/
def AnswerOnly (s t : State) : Prop :=
  t = afterAnswer s t ∧ (∀ off, off ≠ offMsix 0x800 → t.reg off = s.reg off) ∧
    (t.staging = s.staging ∨ ∃ x, t.staging = s.staging ++ [x] ∧ x.owner = ownerM ∧ x.tlp.kind = .mwr)

/-- `s` with the buffer, the tracker and the quarantine list of `t`: what internal initialisation and the scrub clear (R55, R397). -/
def withBuffer (s t : State) : State :=
  { s with descs := t.descs, mcWaits := t.mcWaits, mcEntries := t.mcEntries, used := t.used, usedTo := t.usedTo, parkUsed := t.parkUsed,
           tracker := t.tracker, ideQ := t.ideQ, banks := t.banks, ended := t.ended }

/-- The slot power die tells the switch die what it holds of slot `n` of `t`, in a STAT frame. -/
def statSent (t : State) (n : Nat) : Output := .d2d .switchDie { cls := .stat, slot := n, value := statOf (t.slot n) }

/-- The slot power die tells of a fault of slot `n`, in an ALARM frame of kind `kind` with its own stamp (R315). -/
def alarmSent (s : State) (n kind value : Nat) : Output :=
  .d2d .switchDie { cls := .alarm, slot := n, kind := kind, value := value, stamp := s.clock / 20 % 2 ^ 16 }

/-- The slot power die of `s` has changed slot `n` alone, and beside that at most sent frames: from `s` to `t` no other slot and nothing
else of the state has changed. -/
def SlotOnly (s t : State) (n : Nat) : Prop := (∀ m, m ≠ n → t.slot m = s.slot m) ∧ t = { s with slots := t.slots, out := t.out }

/-- The switch die takes in the frames that arrive. -/
abbrev Hears (s : State) : Prop := s.d2d.broken = false ∧ s.d2d.lost = false ∧ s.mode ≠ .reset

/-- The slot power die takes in the frames that arrive. -/
abbrev PdHears (s : State) : Prop := s.d2d.broken = false ∧ s.pd.lost = false ∧ pdRuns s = true

/-- The slot power die's acknowledgement of the frame with sequence number `seq`. -/
def ackSent (seq : Nat) : Output := .d2d .switchDie { cls := .ack, seq := seq }

/-- The slot power die sends a converter code of slot `n`. -/
def sampleSent (n channel code : Nat) : Output := .d2d .switchDie { cls := .sample, slot := n, field := channel, value := code }

/-- STAT value `v` tells of the same seating as the last one of slot `x`. -/
def samePins (x : Slot) (v : Nat) : Bool := (bitN v 10 && bitN v 11) == (bitN x.seen 10 && bitN x.seen 11)

/-- Frame `f`, with the next sequence number of `s`, as it begins to wait for its ACK. -/
def waiting (s : State) (f : D2dFrame) : Unacked := { frame := { f with seq := s.d2d.seq }, since := s.clock, tries := 0 }

/-- The order to power slot `n` on feed `v`, 1 A or 2 B. -/
def powerOrder (s : State) (n v : Nat) : D2dFrame :=
  { cls := .cmd, slot := n, value := v, cmd := if (s.slot n).forced then .forcedOn else .powerOn }

/-- The frames `l` that wait, with the first of them gone out just now. -/
def nextUnderWay (s : State) (l : List Unacked) : List Unacked :=
  match l with
  | [] => []
  | w :: r => { w with since := s.clock, tries := 0 } :: r

/-- Slot `n` has taken its safe action (R35, R356): cut, or power held with SLOT_PERST_N asserted. -/
def SafeAction (s t : State) (n : Nat) : Prop :=
  (t.slot n).perst = true ∧ (s.pd.safe.getLsbD n = true → gateOn (t.slot n) = false ∧ (t.slot n).warn = true) ∧
    (s.pd.safe.getLsbD n = false → gateOn (t.slot n) = gateOn (s.slot n) ∧ (t.slot n).held = true)

/-- Slot `n` breaks before it makes (R350): both gates are off, and feed `f` is to come. -/
def SwapBegun (s t : State) (n f : Nat) : Prop :=
  (t.slot n).loc = 6 ∧ gateOn (t.slot n) = false ∧ (t.slot n).gap = true ∧ (t.slot n).swapTo = f ∧ (t.slot n).swapSince = s.clock ∧
    (t.slot n).warn = true ∧ (t.slot n).perst = (s.slot n).perst ∧ SlotOnly s t n

/-- The slot power die has latched cause `l` for slot `n` (R347, R348, R354): its gates are off, SLOT_PERST_N and PWRFAIL_WARN_N are
asserted, and while its frames leave it tells of kind `kind` and of the new state. -/
def LatchedToRetry (s t : State) (n l kind value : Nat) : Prop :=
  (t.slot n).loc = 9 ∧ (t.slot n).latch = l ∧ (t.slot n).latchAt = s.clock ∧ gateOn (t.slot n) = false ∧ (t.slot n).gap = false ∧
    (t.slot n).perst = true ∧ (t.slot n).warn = true ∧
    (pdSends s = true → t.out = statSent t n :: alarmSent s n kind value :: s.out) ∧ SlotOnly s t n

/-- Slot `n` cannot reach its safe state (R353): cause `l` is latched, both gates are off and SLOT_ALERT_N is asserted. -/
def FetFailed (s t : State) (n l : Nat) : Prop :=
  (t.slot n).loc = 10 ∧ (t.slot n).latch = l ∧ gateOn (t.slot n) = false ∧ (t.slot n).alert = true ∧ (t.slot n).perst = true ∧
    (t.slot n).warn = true ∧ (pdSends s = true → alarmSent s n 0x93 0 ∈ t.out ∧ statSent t n ∈ t.out) ∧ SlotOnly s t n

end Sys2Proof.Safety
end

