-- ==== Sys2Proof/WellFormed.lean ====
section
/-! DEFINITION. Well-formed commands: what an operand must satisfy beyond its type. The machine takes any command; these are the shapes
that the world outside the device produces. -/

namespace Sys2Proof

/-- Operand bytes of an atomic (the Base Specification's widths). -/
def atomicLenOk (op : AtomicOp) (n : Nat) : Bool :=
  match op with | .fetchAdd => n == 4 || n == 8 | .swap => n == 4 || n == 8 | .cas => n == 8 || n == 16 || n == 32

/-- The data of a TLP has the length that its kind says; no payload exceeds 4,096 bytes. -/
def Tlp.wf (t : Tlp) : Bool :=
  decide (t.data.length ≤ 4096) &&
  (match t.kind with
    | .mrd => t.data.isEmpty && decide (1 ≤ t.len) && decide (t.len ≤ 4096)
    | .mwr | .dmwr => !t.data.isEmpty && t.len == t.data.length
    | .atomic => atomicLenOk t.atomicOp t.data.length
    | .iord | .cfgrd0 | .cfgrd1 => t.data.isEmpty
    | .iowr | .cfgwr0 | .cfgwr1 => t.data.length == 4
    | .msg => true
    | .cpl => t.len == t.data.length)

/-- A Farug header's fields fit Table 9.2. -/
def Farug.wf (f : Farug) : Bool :=
  decide (f.dstChip < 16) && decide (f.dstPort < 128) && decide (f.srcChip < 16) && decide (f.srcPort < 128) && decide (f.tenant < 256)
    && decide (f.tc < 8) && decide (f.hops < 8) && decide (f.seq < 2 ^ 24) && (!f.ownerM || f.tenant == 0)

/-- A Cupel message's fields fit Tables 11.1 and 11.3. -/
def Msg.wf (m : Msg) : Bool :=
  decide (m.source < 256) && decide (m.inst < 256) && decide (m.kind < 256) && decide (m.severity < 8) && decide (m.tenant < 256)
    && decide (m.port < 128) && decide (m.detail < 2 ^ 31) && decide (m.time < 2 ^ 21)

/-- A die-to-die frame names one of 24 slots, and a 12-bit code or a field value. -/
def D2dFrame.wf (f : D2dFrame) : Bool := decide (f.slot < 24) && decide (f.kind < 256) && decide (f.stamp < 2 ^ 16)

/-- A HELLO body's fields fit Table 9.3. -/
def HelloBody.wf (b : HelloBody) : Bool := decide (b.chip < 16) && decide (b.port < 80) && decide (b.rootChip < 16) && decide (b.depth < 8)

/-- An eye fits Table 3.13. -/
def Eye.wf (e : Eye) : Bool := decide (e.height < 512) && decide (e.width ≤ 1000)

/-- A window access stays within 4 KiB and has its kind's data. -/
def WinAccess.wf (a : WinAccess) : Bool :=
  (match a.kind with
    | .mrd => a.data.isEmpty && decide (1 ≤ a.len) && decide (a.len ≤ 4096)
    | .mwr => decide (1 ≤ a.data.length) && decide (a.data.length ≤ 4096)
    | .atomic => atomicLenOk a.op a.data.length
    | _ => false)

/-- A debug access is of 1 to 64 bytes, and a write carries them (R399). -/
def debugWf (write : Bool) (len : Nat) (data : List Byte) : Bool :=
  decide (1 ≤ len) && decide (len ≤ 64) && (!write || data.length == len)

/-- The operands that a command can arrive with; an operand that no check names is free. -/
def Instr.wf (i : Instr) : Bool :=
  match i with
  | .requestReceived _ t => t.wf && t.kind != .cpl
  | .completionReceived _ t => t.wf && t.kind == .cpl
  | .errorMessageReceived _ t => t.wf && t.kind == .msg
  | .fabricTlpReceived _ f t => f.wf && t.wf
  | .injectMessage _ _ m => m.wf
  | .fault _ _ l m => m.wf && decide (l < 5)
  | .d2dFrame _ f => f.wf
  | .hello _ b => b.wf
  | .burnishStep _ _ a b c => a.wf && b.wf && c.wf
  | .rateEqComplete _ r l => decide (r ≤ 6) && l.all Eye.wf
  | .poolWindowAccess _ a => a.wf
  | .debugMasterAccess _ _ w _ n d => debugWf w n d
  | .linkDlUp _ w n _ r _ _ _ _ => decide (1 ≤ r) && decide (r ≤ 6) && decide (1 ≤ w) && decide (w ≤ 16) && decide (n ≤ 3)
  | .temperatureRead l => l.length == 14
  | _ => true

end Sys2Proof
end

