-- ==== Sys2Proof/Certificates/Slice0/Obligations.lean ====
section
/-! DEFINITION. The statements about the Kerene-160: what each command does, what it leaves alone, and the rules of the whole device. -/

open Sys2Proof Sys2Proof.Machine

/-! The whole device. -/

/-- A step carries out the command at the front of the queue on the state with the queue's rest, and on an empty queue lets 1 ns pass (the
model's choice, log entry 1): in Reset until its conditions end, which leads to Load (R58, log entry 44), and in every other mode with the
counter and the replicas advanced. -/
def Obligations.StepRunsTheFrontCommand : Prop :=
  (∀ (s : State) (c : Instr) (r : List Instr), s.pending = c :: r → step s = exec c { s with pending := r }) ∧
  (∀ s : State, s.pending = [] → s.mode ≠ .reset → ∃ t, step s = .next t ∧ t.clock = s.clock + 1 ∧
    t.time.ctr = s.time.ctr + BitVec.ofInt 96 (2 ^ 32 + s.time.rate * 65536 / 1000000000) ∧
    (tsorted 0 s.time.replicas = true →
      ∀ i, i < 11 → tget 0 t.time.replicas i = tget 0 s.time.replicas i + replicaGain s i (s.clock + 1)) ∧
    t = { s with clock := t.clock, time := t.time }) ∧
  (∀ s : State, s.pending = [] → s.mode = .reset → (s.pwrgd = true → s.perstN = true → slotsOff s = false) →
    step s = .next { s with clock := s.clock + 1 }) ∧
  (∀ s : State, s.pending = [] → s.mode = .reset → s.pwrgd = true → s.perstN = true → slotsOff s = true → ∃ t, step s = .next t ∧
    t.mode = .load ∧ t.modeCause = 0 ∧ t.xspi = true ∧ t.fetchStep = 0 ∧ t.clock = s.clock + 1 ∧ t.pending = [] ∧ t.keys = s.keys)

/-- Every command completes in every state: none of them faults or is refused (the model's choice, log entry 2), and none adds to the
queue, takes from it, or sets the model's clock. -/
def Obligations.EveryCommandCompletes : Prop :=
  ∀ (c : Instr) (s : State), ∃ t, exec c s = .next t ∧ t.pending = s.pending ∧ t.clock = s.clock

/-- The device changes mode only by the transitions of Table 2.11, each on its own event and with what the event needs: Load with power-good
and PERST_N deasserted, Assay with an ingot in force, Run with no block unusable or lost, Maintenance at unlock level 2, Factory at
level 3; with a buffer bank mapped out or a Crucible channel lost the device does not return from Degraded to Run (R58). With no command
waiting only Reset ends, by its conditions. -/
def Obligations.ModeChangesOnlyByTable211 : Prop :=
  (∀ (c : Instr) (s t : State), exec c s = .next t → t.mode ≠ s.mode →
    Safety.modeEvent c s.mode t.mode = true ∧ Safety.modeGuard s t = true ∧
    (s.mode = .degraded → t.mode = .run → t.banksOut = 0 ∧ chanLost t 0 = false ∧ chanLost t 1 = false)) ∧
  (∀ s t : State, s.pending = [] → step s = .next t → t.mode ≠ s.mode →
    s.mode = .reset ∧ t.mode = .load ∧ s.pwrgd = true ∧ s.perstN = true ∧ slotsOff s = true)

/-- In Factory a PERST_N assertion and a fabric reset are ignored, and only loss of power-good ends Factory (R59). -/
def Obligations.OnlyLossOfPowerGoodEndsFactory : Prop :=
  (∀ (s : State) (ns : Nat), s.mode = .factory → ∃ t, exec (.perstNAssert ns) s = .next t ∧ t = { s with perstN := t.perstN }) ∧
  (∀ s : State, s.mode = .factory → exec .fabricResetStart s = .next s) ∧
  (∀ (s : State) (ns : Nat), s.mode = .factory → 100 ≤ ns → ∃ t, exec (.powerGoodLost ns) s = .next t ∧ t.mode = .reset) ∧
  (∀ (c : Instr) (s t : State), exec c s = .next t → s.mode = .factory → t.mode ≠ .factory →
    t.mode = .reset ∧ ((∃ ns, c = .powerGoodLost ns) ∨ (∃ ns, c = .powerOnReset ns)))

/-- An unlock level holds until chip reset: no command lowers it, a password, a challenge or a response for a level that the device already
has changes no level, and level 3 opens what level 2 and level 1 open (R391). -/
def Obligations.UnlockLevelHoldsUntilChipReset : Prop :=
  (∀ (c : Instr) (s t : State), exec c s = .next t → s.mode ≠ .reset → t.mode ≠ .reset → s.sec.level ≤ t.sec.level) ∧
  (∀ (s t : State) (p : Path) (seq : Byte) (pw : List Byte), exec (.passwordUnlock p seq pw) s = .next t → 1 ≤ s.sec.level →
    t.sec.level = s.sec.level) ∧
  (∀ (s t : State) (p : Path) (seq l : Byte), exec (.unlockChallenge p seq l) s = .next t → l.toNat ≤ s.sec.level → t.sec = s.sec) ∧
  (∀ (s t : State) (p : Path) (seq : Byte) (n : BitVec 256) (sig : Sig) (c : Challenge), exec (.unlockResponse p seq n sig) s = .next t →
    s.sec.challenge = some c → c.level ≤ s.sec.level → t.sec.level = s.sec.level) ∧
  (∀ (s : State) (p : Path) (seq : Byte), mayIssue s p = true → s.hkRunning = true → s.inRunModes = true → s.sec.level = 3 →
    ∃ t, exec (.enterMaintTarget0 p seq) s = .next t ∧ t.mode = .maintenance)

/-- No step undoes anything in the one-time key store: slots go from EMPTY to VALID to REVOKED, the minimum only rises and the lifecycle
only advances (R385). The premise rules out states whose slots hold a value that Table 14.1 does not give; the conclusion keeps it. -/
def Obligations.KeyStoreOnlyMovesOnward : Prop :=
  ∀ s t : State, (∀ n, (tget {} s.keys.owner n).st ≤ 2) → step s = .next t → Safety.KeysOnward s.keys t.keys

/-- Every step keeps the canonical form of both memories and of the tables of registers, ports, slots, stations, bridges, VHs, groups,
channels, lots and VFs, so that equal contents are equal data. Model's choices in it: log entry 4. -/
def Obligations.StepsKeepTheCanonicalForm : Prop :=
  ∀ s t : State, Safety.Canonical s → step s = .next t → Safety.Canonical t

/-- After power-on the device is in Reset with RESET_CAUSE 1 and MODE_CAUSE 0, nothing queued, no ingot applied, both ING_CAUSE words 0x0E
(no slot fetched), the mailbox free, every gate off with SLOT_PERST_N and PWRFAIL_WARN_N asserted, ALIVE and FAULT_N at rest, and the
canonical form holds (Tables 2.8, 2.12, 2.13, 2.16). Model's choices in it: log entries 5, 6, 8. -/
def Obligations.ResetStateIsAsTheManualSays : Prop :=
  State.reset.mode = .reset ∧ State.reset.resetCause = 1 ∧ State.reset.modeCause = 0 ∧ State.reset.pending = [] ∧
    State.reset.ingotLive = false ∧ State.reset.ingCause0 = 0x0E ∧ State.reset.ingCause1 = 0x0E ∧ State.reset.mbx.owner = none ∧
    State.reset.alive = false ∧ State.reset.faultN = false ∧ (∀ off, State.reset.reg off = 0) ∧
    (∀ n, gateOn (State.reset.slot n) = false ∧ (State.reset.slot n).perst = true ∧ (State.reset.slot n).warn = true) ∧
    Safety.Canonical State.reset

/-! Resets and start-up. -/

/-- A power-on reset, and the loss of power-good, clear everything but the one-time key store (R63, Table 2.15); a low of PWRGD shorter than
100 ns is ignored. Model's choices in it: log entries 4, 5, 44, 46. -/
def Obligations.PowerResetsKeepOnlyTheKeyStore : Prop :=
  ∀ (s : State) (ns : Nat) (good : Bool),
    (ns < 100 → exec (if good then .powerOnReset ns else .powerGoodLost ns) s = .next s) ∧
    (100 ≤ ns → ∃ t, exec (if good then .powerOnReset ns else .powerGoodLost ns) s = .next t ∧
      t.mode = .reset ∧ t.resetCause = 1 ∧ t.pwrgd = good ∧ t.keys = s.keys ∧ t.regs = [] ∧ t.bridges = [] ∧ t.cfg = {} ∧ t.records = [] ∧
      t.sec.level = 0 ∧ t.mbx = {} ∧ t.cupel.table = [] ∧ t.poolMem = [] ∧ t.hkMem = [] ∧ t.pending = s.pending ∧ t.clock = s.clock ∧
      ∀ n, gateOn (t.slot n) = false ∧ (t.slot n).perst = true ∧ (t.slot n).warn = true)

/-- A PERST_N assertion of 1 µs or more, and a fabric reset once its microsecond is over, are chip resets outside Factory (R59, R61, R280);
a shorter assertion is ignored. Only the sticky registers, the key store and the gates of the powered slots come through one (R62, R63).
Model's choices in it: log entries 4, 5, 44, 45. -/
def Obligations.ChipResetsKeepStickyRegistersAndGates : Prop :=
  (∀ (s : State) (ns : Nat),
    (ns < 1000 → exec (.perstNAssert ns) s = .next s) ∧
    (1000 ≤ ns → s.mode = .factory → exec (.perstNAssert ns) s = .next { s with perstN := false }) ∧
    (1000 ≤ ns → s.mode ≠ .factory → s.mode ≠ .reset → Safety.Canonical s → ∃ t, exec (.perstNAssert ns) s = .next t ∧
      t.mode = .reset ∧ t.resetCause = 2 ∧ t.perstN = false ∧ t.keys = s.keys ∧ t.cfg = {} ∧ t.records = [] ∧ t.sec.level = 0 ∧
      t.mbx = {} ∧ t.cupel.table = [] ∧ t.staging = [] ∧ t.descs = [] ∧ t.tracker = [] ∧ t.pending = s.pending ∧
      (∀ off, t.reg off = if stickyReg off then s.reg off else 0) ∧
      (∀ k, (t.bridge k).uncStatus = (s.bridge k).uncStatus ∧ (t.bridge k).corStatus = (s.bridge k).corStatus) ∧
      (∀ p, t.port p = {}) ∧
      ∀ n, (t.slot n).perst = true ∧ (t.slot n).warn = true ∧ gateOn (t.slot n) = gateOn (s.slot n))) ∧
  (∀ (s : State) (r : Nat), s.fab.resetAt = some r → r ≤ s.clock → s.mode ≠ .reset →
    (s.mode = .factory → exec .fabricResetStart s = .next s) ∧
    (s.mode ≠ .factory → Safety.Canonical s → ∃ t, exec .fabricResetStart s = .next t ∧ t.mode = .reset ∧ t.resetCause = 3 ∧
      t.keys = s.keys ∧ t.cfg = {} ∧ t.records = [] ∧ t.sec.level = 0 ∧ t.mbx = {} ∧ t.perstN = s.perstN ∧ t.pwrgd = s.pwrgd ∧
      (∀ off, t.reg off = if stickyReg off then s.reg off else 0) ∧
      ∀ n, (t.slot n).perst = true ∧ (t.slot n).warn = true ∧ gateOn (t.slot n) = gateOn (s.slot n)))

/-- Load begins when PERST_N deasserts with power-good present and every slot off, and otherwise when the last slot's t_warn is over (R58,
R62); the slot power die then leaves the reset that it shares. Model's choices in it: log entries 44, 45. -/
def Obligations.LoadBeginsWhenTheLastSlotIsOff : Prop :=
  (∀ s : State, s.mode = .reset → s.pwrgd = true → slotsOff s = true → ∃ t, exec .perstNDeassert s = .next t ∧
    t.mode = .load ∧ t.modeCause = 0 ∧ t.perstN = true ∧ t.xspi = true ∧ t.fetchStep = 0 ∧ t.pd.inReset = false ∧ t.pd.resetting = false ∧
    t.pd.lost = false ∧ t.sec.level = (if s.keys.lifecycle = 1 then 2 else 0) ∧
    t = { s with mode := t.mode, modeCause := t.modeCause, perstN := t.perstN, xspi := t.xspi, fetchStep := t.fetchStep, pd := t.pd,
                 d2d := t.d2d, sec := t.sec, slots := t.slots, out := t.out }) ∧
  (∀ s : State, s.mode = .reset → slotsOff s = false → exec .perstNDeassert s = .next { s with perstN := true }) ∧
  (∀ (s : State) (n m : SlotId), Safety.Canonical s → s.pd.resetting = true → s.pd.resetSince + 1000 * pdWarnUs s n ≤ s.clock →
    m ≠ n → gateOn (s.slot m) = true → ∃ t, exec (.slotWarnCutTimer n) s = .next t ∧ gateOn (t.slot n) = false ∧
      (∀ k : Nat, k ≠ n → t.slot k = s.slot k) ∧ t = { s with slots := t.slots }) ∧
  (∀ (s : State) (n : SlotId), Safety.Canonical s → s.pd.resetting = true → s.pd.resetSince + 1000 * pdWarnUs s n ≤ s.clock →
    (∀ k : Nat, k ≠ n → gateOn (s.slot k) = false) → s.mode = .reset → s.pwrgd = true → s.perstN = true →
    ∃ t, exec (.slotWarnCutTimer n) s = .next t ∧ t.mode = .load ∧ ∀ k, gateOn (t.slot k) = false)

/-- A dip of VCC_PD below 4.20 V of 2 µs or more resets the slot power die: every gate off, every SLOT_PERST_N and PWRFAIL_WARN_N asserted,
the safe-action copy cleared (R36, R425); a shorter one is ignored. The die runs again from 4.50 V, with no gate turned on and every seated
cartridge debounced anew. Model's choices in it: log entry 46. -/
def Obligations.SlotPowerDieResetCutsEverySlot : Prop :=
  (∀ (s : State) (mv ns : Nat), ns < 2000 → exec (.slotPowerDieReset mv ns) s = .next s) ∧
  (∀ (s : State) (mv ns : Nat), mv < 4200 → 2000 ≤ ns → ∃ t, exec (.slotPowerDieReset mv ns) s = .next t ∧
    t.pd.safe = 0xFFFFFF ∧ t.pd.vccGood = false ∧ t.pd.fields = [] ∧ (s.mode ≠ .reset → t.pd.lost = true) ∧
    (∀ n, gateOn (t.slot n) = false ∧ (t.slot n).perst = true ∧ (t.slot n).warn = true) ∧
    t = { s with pd := t.pd, slots := t.slots }) ∧
  (∀ (s : State) (mv : Nat), Safety.Canonical s → 4500 ≤ mv → s.pd.vccGood = false → ∃ t, exec (.vccPdResetRelease mv) s = .next t ∧
    t.pd = { s.pd with vccGood := true } ∧ (∀ n, gateOn (t.slot n) = gateOn (s.slot n) ∧ (t.slot n).perst = (s.slot n).perst) ∧
    (s.pd.inReset = false → ∀ n : SlotId, (s.slot n).pinA = true → (s.slot n).pinB = true → (s.slot n).loc = 0 → (t.slot n).loc = 1) ∧
    t = { s with pd := t.pd, slots := t.slots, out := t.out })

/-- A fetched ingot slot passes every check of Table 2.6, or fails with the code of its first failing check in ING_CAUSE; slot B is fetched
only after slot A has failed, and after both the device stays in Load with FAULT_N asserted (R51 to R53). A verified ingot takes force and
Assay begins; a hardware error while it is applied is reported as INGOT_APPLY, and the mode stays Load until the reaction (R54). Model's
choices in it: log entries 15, 39, 40. -/
def Obligations.IngotsAreFetchedVerifiedAndApplied : Prop :=
  (∀ (s : State) (img : FlashSlot), s.mode = .load → s.fetchStep < 2 → s.verified = none → ∃ t, exec (.ingotSlotFetch img) s = .next t ∧
    (slotErr s img s.fetchStep = none →
      t.verified = some (s.fetchStep, slotHeader img s.fetchStep, (slotRecords img s.fetchStep).1) ∧ t.fetchStep = 2 ∧ t.xspi = false ∧
      (s.fetchStep = 0 → t.ingCause0 = 0 ∧ t.ingCause1 = s.ingCause1) ∧ (s.fetchStep = 1 → t.ingCause1 = 0 ∧ t.ingCause0 = s.ingCause0) ∧
      t.faultN = s.faultN ∧ t.modeCause = s.modeCause) ∧
    (∀ w, slotErr s img 0 = some w → s.fetchStep = 0 → t = { s with ingCause0 := w, fetchStep := 1, xspi := true }) ∧
    (∀ w, slotErr s img 1 = some w → s.fetchStep = 1 →
      t = { s with ingCause1 := w, fetchStep := 2, xspi := false, faultN := true, modeCause := 1 }) ∧
    t = { s with ingCause0 := t.ingCause0, ingCause1 := t.ingCause1, verified := t.verified, fetchStep := t.fetchStep, xspi := t.xspi,
                 faultN := t.faultN, modeCause := t.modeCause, sec := t.sec }) ∧
  (∀ (s : State) (k : Nat) (h : IngotHeader) (l : List RawRec), s.mode = .load → s.ingotLive = false → s.verified = some (k, h, l) →
    (∃ t, exec (.ingotApply none) s = .next t ∧ t.mode = .assay ∧ t.modeCause = 0 ∧ t.ingotLive = true ∧ t.cfg = readAll l ∧ t.records = l ∧
      t.sec.secVersion = h.secVersion ∧ t.keys = s.keys ∧
      (∀ d, (readAll l).device = some d → t.assay.vreq = d.avsVmax ∧ .avs d.avsVmax ∈ t.out) ∧
      t = { s with mode := t.mode, modeCause := t.modeCause, ingotLive := t.ingotLive, cfg := t.cfg, records := t.records,
                   loadPorts := t.loadPorts, i3c := t.i3c, cupel := t.cupel, sec := t.sec, assay := t.assay, shapers := t.shapers,
                   policers := t.policers, groups := t.groups, ports := t.ports, d2d := t.d2d, out := t.out }) ∧
    (∀ i, ∃ t, exec (.ingotApply (some i)) s = .next t ∧ t.mode = .load ∧ t.ingotLive = false ∧ t.verified = none ∧
      t.records = appliedBefore l i ∧
      t = report { applyRecords s h (appliedBefore l i) with verified := none, fetchStep := 3 } 0x0C 0 0x11 none 0x7F
        (some (((l[i]?).map (·.type)).getD 0 + 256 * i))))

/-- An ingot whose SEC_VERSION is below the minimum that the key store holds never passes verification (R44). -/
def Obligations.RollbackIsRefused : Prop :=
  ∀ (s : State) (img : FlashSlot) (i : Nat), (slotHeader img i).secVersion < s.keys.minSec → slotErr s img i ≠ none

/-! Slots and cartridges. -/

/-- The latches of Table 12.8 that lead to RETRY, on the slot power die: RAMP_TIMEOUT, RAMP_LIMIT and SHORT_DURING_RAMP while a gate ramps,
BREAKER with a gate on past TINNING, SEVERE in every state with a gate on; of two in one 20 ns tick the higher value is kept. The switch
die, told so by STAT, counts the fault and starts the retry wait (R343 to R346, R354, R355). Model's choices in it: log entries 49, 66, 67,
68. -/
def Obligations.SlotLatchesCutAndStartTheRetryTimer : Prop :=
  (∀ (s : State) (n : SlotId), (s.slot n).loc ≤ 8 →
    (ramping (s.slot n) = true → (s.slot n).rampSince + 1000000 * pdField s n 10 50 ≤ s.clock →
      ∃ t, exec (.rampTimeout n) s = .next t ∧ Safety.LatchedToRetry s t n 3 0x92 3) ∧
    (∀ us, ramping (s.slot n) = true → pdField s n 2 500 ≤ us → (s.slot n).rampSince + 1000 * us ≤ s.clock →
      ∃ t, exec (.rampLimit ⟨n, us⟩) s = .next t ∧ Safety.LatchedToRetry s t n 4 0x92 4) ∧
    (∀ f o us, ramping (s.slot n) = true → 2 * o < f → 100 ≤ us → (s.slot n).rampSince + 1000 * us ≤ s.clock →
      ∃ t, exec (.shortDuringRamp ⟨n, f, o, us⟩) s = .next t ∧ Safety.LatchedToRetry s t n 5 0x92 5) ∧
    (∀ us, gateOn (s.slot n) = true → (s.slot n).loc ≠ 4 → pdField s n 1 2000 ≤ us →
      ∃ t, exec (.breaker ⟨n, us⟩) s = .next t ∧ Safety.LatchedToRetry s t n 1 0x90 0) ∧
    (∀ v, gateOn (s.slot n) = true → overSevere s n v = true → ∃ t, exec (.severe ⟨n, v⟩) s = .next t ∧ Safety.LatchedToRetry s t n 6 0x91 0)) ∧
  (∀ (s : State) (n : SlotId) (v : Nat), (s.slot n).loc = 9 → (s.slot n).latch ≠ 0 → (s.slot n).latchAt / 20 = s.clock / 20 →
    overSevere s n v = true → ∃ t, exec (.severe ⟨n, v⟩) s = .next t ∧ (t.slot n).latch = max (s.slot n).latch 6 ∧ Safety.SlotOnly s t n) ∧
  (∀ (s : State) (n : SlotId) (v : Nat), Safety.Hears s → seenLoc (s.slot n) ≠ 9 → bitsN v 0 4 = 9 → Safety.samePins (s.slot n) v = true →
    bitN v 12 = true → ∃ t, exec (.d2dFrame .switchDie { cls := .stat, slot := n, value := v }) s = .next t ∧ (t.slot n).st = 9 ∧
      (t.slot n).retryUntil = some (s.clock + 1000000 * (slotRec s n).retryMs) ∧ (t.slot n).count = min ((s.slot n).count + 1) 255 ∧
      (t.slot n).lockout = ((s.slot n).lockout || ((slotRec s n).retryMax != 0 && decide ((slotRec s n).retryMax ≤ (s.slot n).count))) ∧
      (t.slot n).life.trips = lifeUp (s.slot n).life.trips ∧ gateOn (t.slot n) = gateOn (s.slot n) ∧
      (∀ m : Nat, m ≠ n → t.slot m = s.slot m) ∧
      t = { s with slots := t.slots, regs := t.regs, cupel := t.cupel, d2d := t.d2d, out := t.out })

/-- A slot comes up: TINNING_START orders power on feed A where it is used and good, otherwise on feed B; the slot power die turns the gate
on by that order; power good makes it ON and starts PERST_DELAY_MS, whose end deasserts SLOT_PERST_N; the switch die sees ON by STAT (R33,
R342, R343, R347). Model's choices in it: log entries 30, 66, 67, 68. -/
def Obligations.SlotRampsToPowerGoodAndPerstEnd : Prop :=
  (∀ (s : State) (n : SlotId) (a b : FeedRead),
    (∀ v, mayRamp s n = true →
      ((v = 1 ∧ feedUsed s n false = true ∧ feedGood s n a = true) ∨
        (v = 2 ∧ (feedUsed s n false && feedGood s n a) = false ∧ feedUsed s n true = true ∧ feedGood s n b = true)) →
      ∃ t, exec (.tinningStart n a b) s = .next t ∧ (t.slot n).st = 4 ∧ gateOn (t.slot n) = gateOn (s.slot n) ∧
        t.d2d.unacked = s.d2d.unacked ++ [Safety.waiting s (Safety.powerOrder s n v)] ∧
        (∀ m : Nat, m ≠ n → t.slot m = s.slot m) ∧ t = { s with slots := t.slots, d2d := t.d2d, out := t.out }) ∧
    (Safety.Canonical s → mayRamp s n = false ∨ ((feedUsed s n false && feedGood s n a) = false ∧ (feedUsed s n true && feedGood s n b) = false) →
      ∃ t, exec (.tinningStart n a b) s = .next t ∧ (t.slot n).st = (s.slot n).st ∧ (t.slot n).goodA = feedGood s n a ∧
        (t.slot n).goodB = feedGood s n b ∧ (∀ m : Nat, m ≠ n → t.slot m = s.slot m) ∧ t = { s with slots := t.slots })) ∧
  (∀ (s : State) (n : SlotId) (c : SlotCmd) (v q : Nat), Safety.PdHears s → repeated s.pd.lastSeq q = false → (c = .powerOn ∨ c = .forcedOn) →
    ((s.slot n).loc = 2 ∨ (s.slot n).loc = 9) → (s.slot n).pinA = true → (s.slot n).pinB = true → gateOn (s.slot n) = false → ∃ t,
      exec (.d2dFrame .powerDie { cls := .cmd, slot := n, cmd := c, value := v, seq := q }) s = .next t ∧ (t.slot n).loc = 4 ∧
        (t.slot n).gateA = (v != 2) ∧ (t.slot n).gateB = (v == 2) ∧ (t.slot n).feed = (if v = 2 then 2 else 1) ∧
        (t.slot n).rampSince = s.clock ∧ (t.slot n).perst = (s.slot n).perst ∧ Safety.ackSent q ∈ t.out ∧
        (∀ m : Nat, m ≠ n → t.slot m = s.slot m) ∧ t = { s with pd := t.pd, slots := t.slots, out := t.out }) ∧
  (∀ (s : State) (n : SlotId) (f o us : Nat),
    (outputGood f o us = true → (s.slot n).loc = 4 → gateOn (s.slot n) = true → (s.slot n).warnKind = 0 → ∃ t,
      exec (.powerGood ⟨n, f, o, us⟩) s = .next t ∧ (t.slot n).loc = 5 ∧ (t.slot n).warn = (s.slot n).warnBelow ∧
        (t.slot n).perst = (s.slot n).perst ∧ gateOn (t.slot n) = true ∧
        ((s.slot n).held = false → (s.slot n).perst = true → (t.slot n).perstUntil = some (s.clock + 1000000 * pdField s n 60 100)) ∧
        (pdSends s = true → Safety.statSent t n ∈ t.out) ∧ Safety.SlotOnly s t n) ∧
    (outputGood f o us = false → exec (.powerGood ⟨n, f, o, us⟩) s = .next s)) ∧
  (∀ (s : State) (n : SlotId) (e : Nat), (s.slot n).loc = 5 → (s.slot n).perstUntil = some e →
    (e ≤ s.clock → (s.slot n).held = false → ∃ t, exec (.perstDelayEnd n) s = .next t ∧ (t.slot n).perst = false ∧ (t.slot n).loc = 5 ∧
      Safety.SlotOnly s t n) ∧
    ((s.clock < e ∨ (s.slot n).held = true) → exec (.perstDelayEnd n) s = .next s)) ∧
  (∀ (s : State) (n : SlotId) (v : Nat), Safety.Hears s → (s.slot n).st = 4 → seenLoc (s.slot n) ≠ 5 → bitsN v 0 4 = 5 →
    Safety.samePins (s.slot n) v = true → bitN v 12 = true → ∃ t, exec (.d2dFrame .switchDie { cls := .stat, slot := n, value := v }) s = .next t ∧
      (t.slot n).st = 5 ∧ (t.slot n).onSince = s.clock ∧ w32Bit (t.reg (offSlp n 0x04)) 2 = true ∧ (∀ m : Nat, m ≠ n → t.slot m = s.slot m) ∧
      t = { s with slots := t.slots, regs := t.regs, cupel := t.cupel, d2d := t.d2d })

/-- A feed swap turns the old gate off, waits out the gap with both gates off, and turns on the other gate only; it keeps SLOT_PERST_N as it
was and asserts PWRFAIL_WARN_N (R350, R351). Model's choices in it: log entries 66, 68, 69. -/
def Obligations.FeedSwapBreaksBeforeItMakes : Prop :=
  ∀ (s : State) (n : SlotId),
    (∀ a o, (s.slot n).loc = 5 → gateOn (s.slot n) = true → ((s.slot n).feed = 1 ∨ (s.slot n).feed = 2) → (s.slot n).warnKind ≠ 2 →
      pdFeed s n ((s.slot n).feed == 1) = true → feedBad s n a = true → feedGood s n o = true →
      ∃ t, exec (.feedSwap ⟨n, a, o⟩) s = .next t ∧ Safety.SwapBegun s t n (3 - (s.slot n).feed)) ∧
    (∀ a o, (feedBad s n a = false ∨ feedGood s n o = false ∨ (s.slot n).warnKind = 2) → exec (.feedSwap ⟨n, a, o⟩) s = .next s) ∧
    (∀ a, (s.slot n).loc = 5 → (s.slot n).feed = 2 → (s.slot n).warnKind = 0 → pdFeed s n false = true → feedGood s n a = true →
      1000000000 ≤ a.ns → ∃ t, exec (.feedReturn ⟨n, a⟩) s = .next t ∧ Safety.SwapBegun s t n 1) ∧
    (∀ a, a.ns < 1000000000 → exec (.feedReturn ⟨n, a⟩) s = .next s) ∧
    ((s.slot n).gap = true → (s.slot n).swapTo ≠ 0 → (s.slot n).swapSince + 1000 * pdField s n 4 50 ≤ s.clock →
      ∃ t, exec (.swapGapEnd n) s = .next t ∧ (t.slot n).gap = false ∧ (t.slot n).gateA = ((s.slot n).swapTo == 1) ∧
        (t.slot n).gateB = ((s.slot n).swapTo == 2) ∧ (t.slot n).rampSince = s.clock ∧ (t.slot n).perst = (s.slot n).perst ∧
        Safety.SlotOnly s t n) ∧
    ((s.slot n).gap = true → s.clock < (s.slot n).swapSince + 1000 * pdField s n 4 50 → exec (.swapGapEnd n) s = .next s) ∧
    (∀ f o us, outputGood f o us = true → (s.slot n).loc = 6 → (s.slot n).gap = false → (s.slot n).swapTo ≠ 0 →
      ∃ t, exec (.powerGood ⟨n, f, o, us⟩) s = .next t ∧ (t.slot n).loc = 5 ∧ (t.slot n).feed = (s.slot n).swapTo ∧
        (t.slot n).perst = (s.slot n).perst ∧ (pdSends s = true → Safety.alarmSent s n 0x94 0 ∈ t.out) ∧ Safety.SlotOnly s t n)

/-- PWRFAIL_WARN_N follows the feed warning in ON; a cut with warning ends with both gates down, OFF after a command and latched BOTH_BAD
after the loss of both feeds; GATE_STUCK and FET_FAIL leave the slot FET_FAILED (R348, R349, R352, R353). Model's choices in it: log entries
46, 66, 68. -/
def Obligations.SlotWarningsCutsAndFetFailure : Prop :=
  ∀ (s : State) (n : SlotId),
    (∀ a, (s.slot n).loc = 5 → (s.slot n).warnKind = 0 → ∃ t, exec (.feedWarnChange n a) s = .next t ∧
      (a.mv < pdField s n 6 9500 → 10000 ≤ a.ns → (t.slot n).warn = true) ∧
      (pdField s n 6 9500 + 100 ≤ a.mv → 1000000 ≤ a.ns → (t.slot n).warn = false) ∧
      (pdField s n 6 9500 ≤ a.mv → a.mv < pdField s n 6 9500 + 100 → (t.slot n).warn = (s.slot n).warnBelow) ∧
      gateOn (t.slot n) = gateOn (s.slot n) ∧ (t.slot n).loc = 5 ∧ Safety.SlotOnly s t n) ∧
    (∀ a o, ((s.slot n).loc = 4 ∨ (s.slot n).loc = 5 ∨ (s.slot n).loc = 6) → (s.slot n).warnKind = 0 → feedBad s n a = true →
      (pdFeed s n (!activeB (s.slot n)) = false ∨ feedGood s n o = false) → ∃ t, exec (.bothBad ⟨n, a, o⟩) s = .next t ∧
        (t.slot n).warn = true ∧ (t.slot n).perst = true ∧ (t.slot n).warnKind = 2 ∧ (t.slot n).warnSince = s.clock ∧
        gateOn (t.slot n) = gateOn (s.slot n) ∧ (t.slot n).loc = (s.slot n).loc ∧ Safety.SlotOnly s t n) ∧
    ((s.slot n).warnKind = 2 → (s.slot n).loc ≤ 8 → (s.slot n).warnSince + 1000 * pdWarnUs s n ≤ s.clock →
      ∃ t, exec (.warnEnd n) s = .next t ∧ Safety.LatchedToRetry s t n 2 0x95 0) ∧
    ((s.slot n).warnKind = 1 → (s.slot n).warnSince + 1000 * pdWarnUs s n ≤ s.clock →
      ∃ t, exec (.warnEnd n) s = .next t ∧ (t.slot n).loc = 2 ∧ gateOn (t.slot n) = false ∧ (t.slot n).warnKind = 0 ∧ Safety.SlotOnly s t n) ∧
    (s.clock < (s.slot n).warnSince + 1000 * pdWarnUs s n → exec (.warnEnd n) s = .next s) ∧
    (∀ g o, (s.slot n).gap = true → (s.slot n).loc ≤ 9 → o + 1000 ≤ g → (s.slot n).swapSince + 10000 ≤ s.clock →
      ∃ t, exec (.gateStuck ⟨n, g, o⟩) s = .next t ∧ Safety.FetFailed s t n 7) ∧
    (∀ g o, g < o + 1000 → exec (.gateStuck ⟨n, g, o⟩) s = .next s) ∧
    (∀ a b o ns, s.pd.vccGood = true → gateOn (s.slot n) = false → (s.slot n).gap = false → (s.slot n).loc ≤ 9 →
      (s.slot n).offSince + 1000000 * pdField s n 8 50 + 2000000 ≤ s.clock → 1000 < o → 2000000 ≤ ns →
      ∃ t, exec (.fetFail ⟨n, o, ns⟩ a b) s = .next t ∧ Safety.FetFailed s t n 8 ∧
        (pdSends s = true → Safety.sampleSent n 0 a.toNat ∈ t.out ∧ Safety.sampleSent n 1 b.toNat ∈ t.out))

/-- Seating, bounce, removal and identification (R33, R340, R341, R359): with the second pin the debounce starts, whose end seats the slot,
which the switch die learns by STAT; a pin that deasserts for more than 2 µs cuts the slot at once; 50 ms of absence are a removal; a store
that does not answer gives no identity, and one that does gives its own. Model's choices in it: log entries 66, 67, 69. -/
def Obligations.SeatingRemovalAndIdentification : Prop :=
  (∀ (s : State) (n : SlotId) (b : Bool) (ns : Nat), pdRuns s = true →
    ((if b then (s.slot n).pinB else (s.slot n).pinA) = false → (if b then (s.slot n).pinA else (s.slot n).pinB) = true →
      ∃ t, exec (.presencePinChange n b true ns) s = .next t ∧ (t.slot n).pinA = true ∧ (t.slot n).pinB = true ∧
        (t.slot n).pinsSince = s.clock ∧ (t.slot n).loc = (if (s.slot n).loc = 0 then 1 else (s.slot n).loc) ∧
        gateOn (t.slot n) = gateOn (s.slot n) ∧ Safety.SlotOnly s t n) ∧
    ((if b then (s.slot n).pinA else (s.slot n).pinB) = false → ∃ t, exec (.presencePinChange n b true ns) s = .next t ∧
      t.slot n = (if b then { s.slot n with pinB := true } else { s.slot n with pinA := true }) ∧ Safety.SlotOnly s t n) ∧
    (2000 < ns → (s.slot n).pinA = true → (s.slot n).pinB = true → ∃ t, exec (.presencePinChange n b false ns) s = .next t ∧
      (t.slot n).pinA = b ∧ (t.slot n).pinB = !b ∧ (t.slot n).loc = (if (s.slot n).loc = 10 then 10 else 0) ∧ gateOn (t.slot n) = false ∧
      (t.slot n).gap = false ∧ (t.slot n).perst = true ∧ (t.slot n).warn = true ∧ (t.slot n).latch = (s.slot n).latch ∧
      (t.slot n).count = (s.slot n).count ∧ (t.slot n).want = (s.slot n).want ∧ Safety.SlotOnly s t n)) ∧
  (∀ (s : State) (n : SlotId) (b : Bool) (ns : Nat), ns ≤ 2000 → exec (.presencePinChange n b false ns) s = .next s) ∧
  (∀ (s : State) (n : SlotId), pdRuns s = true → (s.slot n).loc = 1 →
    ((s.slot n).pinsSince + 20000000 ≤ s.clock → ∃ t, exec (.seated n) s = .next t ∧ (t.slot n).loc = 2 ∧
      gateOn (t.slot n) = gateOn (s.slot n) ∧ (t.slot n).perst = (s.slot n).perst ∧
      (pdSends s = true → t.out = Safety.statSent t n :: s.out) ∧ Safety.SlotOnly s t n) ∧
    (s.clock < (s.slot n).pinsSince + 20000000 → exec (.seated n) s = .next s)) ∧
  (∀ (s : State) (n : SlotId) (v : Nat), Safety.Hears s → seenLoc (s.slot n) = 1 → bitsN v 0 4 = 2 → Safety.samePins (s.slot n) v = true →
    bitN v 12 = true → ∃ t, exec (.d2dFrame .switchDie { cls := .stat, slot := n, value := v }) s = .next t ∧
      ((cartRec s n).isSome = true → (t.slot n).st = 3) ∧
      (cartRec s n = none → (t.slot n).st = restState (s.slot n) ∧ (t.slot n).cls = (slotRec s n).defClass) ∧ (t.slot n).everSeated = true ∧
      (∀ m : Nat, m ≠ n → t.slot m = s.slot m) ∧
      t = { s with slots := t.slots, regs := t.regs, cupel := t.cupel, d2d := t.d2d, out := t.out }) ∧
  (∀ (s : State) (n : SlotId) (e : Nat), (s.slot n).absentSince = some e →
    (Safety.Canonical s → e + 50000000 ≤ s.clock → ∃ t, exec (.removed n) s = .next t ∧
      (t.slot n).absentSince = none ∧ (t.slot n).count = 0 ∧ (t.slot n).lockout = false ∧ (t.slot n).expired = false ∧
      (t.slot n).newIns = true ∧ ((slotRec s n).autoOn = false → (t.slot n).want = false) ∧ (t.slot n).retryUntil = (s.slot n).retryUntil ∧
      ((s.slot n).st ≠ 10 → s.d2d.lost = false → t.d2d.unacked = s.d2d.unacked ++ [Safety.waiting s { cls := .cmd, slot := n, cmd := .latchClear }]) ∧
      (∀ m : Nat, m ≠ n → t.slot m = s.slot m) ∧
      t = { s with slots := t.slots, regs := t.regs, cupel := t.cupel, d2d := t.d2d, out := t.out }) ∧
    (s.clock < e + 50000000 → exec (.removed n) s = .next s)) ∧
  (∀ (s : State) (n : SlotId) (r : StoreRead) (c : CartRec), s.hkRunning = true →
    ((s.slot n).st = 2 ∨ (s.slot n).st = 3 ∨ (s.slot n).st = 9) → (s.slot n).identified = false → (s.slot n).identFail = false →
    cartRec s n = some c →
    (r.answered = false → ∃ t, exec (.identify n r) s = .next t ∧ (t.slot n).identFail = true ∧ (t.slot n).hallmark = 2 ∧
      (t.slot n).st = restState (s.slot n) ∧ (∀ m : Nat, m ≠ n → t.slot m = s.slot m) ∧ t = { s with slots := t.slots }) ∧
    (r.answered = true → headerOk r.bytes = true → (c.vendorId = 0xFFFF ∨ c.vendorId = leAt r.bytes 6 2) →
      ∃ t, exec (.identify n r) s = .next t ∧ (t.slot n).identified = true ∧ (t.slot n).vendorId = leAt r.bytes 6 2 ∧
        (t.slot n).deviceId = leAt r.bytes 8 2 ∧ (t.slot n).cls = leAt r.bytes 0xA 1 ∧ (t.slot n).st = restState (s.slot n) ∧
        (∀ m : Nat, m ≠ n → t.slot m = s.slot m) ∧
        t = { s with slots := t.slots, regs := t.regs, cupel := t.cupel, d2d := t.d2d, out := t.out }))

/-- The retry wait ends at RETRY_MS, the fault count after 10 s in ON; an hour in ON and each millisecond of output power go to the life
record (R355, R361). Hallmark lifts the quarantine of the slot's port on a pass, and keeps it on a failure, whose result it records and
which cuts the slot where its record says so (R363 to R365). Model's choices in it: log entries 15, 30, 66, 67, 69. -/
def Obligations.SlotTimersLifeRecordAndHallmark : Prop :=
  (∀ (s : State) (n : SlotId),
      (∀ e, Safety.Canonical s → (s.slot n).retryUntil = some e → e ≤ s.clock → s.d2d.lost = false → s.mode ≠ .safe → ∃ t,
        exec (.retryTimerEnd n) s = .next t ∧ t.slot n = { s.slot n with retryUntil := none, st := if (s.slot n).st = 9 then 2 else (s.slot n).st } ∧
        (∀ m : Nat, m ≠ n → t.slot m = s.slot m) ∧ t = { s with slots := t.slots }) ∧
      (s.mode = .safe ∨ s.d2d.lost = true → exec (.retryTimerEnd n) s = .next s) ∧
      ((s.slot n).st = 5 → (s.slot n).onSince + 10000000000 ≤ s.clock → ∃ t, exec (.faultCountReset n) s = .next t ∧
        t.slot n = { s.slot n with count := 0 } ∧ (∀ m : Nat, m ≠ n → t.slot m = s.slot m) ∧ t = { s with slots := t.slots }) ∧
      (∀ ok, (s.slot n).st = 5 → 3600000 ≤ (s.slot n).seconds → ∃ t, exec (.patinaHour n ok) s = .next t ∧
        (t.slot n).life.hours = lifeUp (s.slot n).life.hours ∧ (t.slot n).seconds = (s.slot n).seconds - 3600000 ∧
        (∀ m : Nat, m ≠ n → t.slot m = s.slot m) ∧ t = { s with slots := t.slots, regs := t.regs, cupel := t.cupel, out := t.out }) ∧
      (∀ a b v i, (s.slot n).energyNext ≤ s.clock →
        (seenOn (s.slot n) = true → ∃ t, exec (.energyIntegrate n ⟨a, b⟩ ⟨v, i⟩) s = .next t ∧ (t.slot n).energyNext = s.clock + 1000000 ∧
          (t.slot n).energy = ((s.slot n).energy + (s.slot n).voutMv * (s.slot n).ioutMa) % 3600000000000 ∧
          (t.slot n).life.energyWh
            = w32 (sat32 (s.slot n).life.energyWh.toNat (((s.slot n).energy + (s.slot n).voutMv * (s.slot n).ioutMa) / 3600000000000)) ∧
          (pdSends s = true → Safety.sampleSent n 2 v.toNat ∈ t.out ∧ Safety.sampleSent n 3 i.toNat ∈ t.out) ∧
          (∀ m : Nat, m ≠ n → t.slot m = s.slot m) ∧ t = { s with slots := t.slots, regs := t.regs, cupel := t.cupel, out := t.out }) ∧
        (seenOn (s.slot n) = false → ∃ t, exec (.energyIntegrate n ⟨a, b⟩ ⟨v, i⟩) s = .next t ∧
          t.slot n = { s.slot n with energyNext := s.clock + 1000000 } ∧ (∀ m : Nat, m ≠ n → t.slot m = s.slot m) ∧
          t = { s with slots := t.slots, out := t.out })) ∧
      (∀ a b v i, s.clock < (s.slot n).energyNext → exec (.energyIntegrate n ⟨a, b⟩ ⟨v, i⟩) s = .next s)) ∧
  (∀ (s : State) (n : SlotId) (p : Nat) (c : CartRec), authPort s n = some p → cartRec s n = some c →
      (∀ a, authPasses s n c a = true → ∃ t, exec (.hallmarkPass ⟨n, a⟩) s = .next t ∧ t.port p = { s.port p with quarantine := false } ∧
        t.slot n = { s.slot n with hallmark := 1 } ∧ (∀ q, q ≠ p → t.port q = s.port q) ∧ (∀ m : Nat, m ≠ n → t.slot m = s.slot m) ∧
        t = { s with ports := t.ports, slots := t.slots, regs := t.regs, cupel := t.cupel }) ∧
      (∀ a, authPasses s n c a = false → exec (.hallmarkPass ⟨n, a⟩) s = .next s) ∧
      (∀ r : Fin 16, 5 ≤ r.val → r.val ≤ 0xA → (r.val = 0xA → authLate s n c = true) →
        (c.authFailCut = false → ∃ t, exec (.hallmarkFail n r) s = .next t ∧ t.slot n = { s.slot n with hallmark := r } ∧
          w32Bit (t.reg (offSlp n 0x04)) 6 = true ∧ (∀ m : Nat, m ≠ n → t.slot m = s.slot m) ∧
          t = { s with slots := t.slots, regs := t.regs, cupel := t.cupel }) ∧
        (c.authFailCut = true → seenOn (s.slot n) = true → s.d2d.lost = false → ∃ t, exec (.hallmarkFail n r) s = .next t ∧
          (t.slot n).hallmark = r ∧ (t.slot n).want = false ∧ (t.slot n).st = 8 ∧
          t.d2d.unacked = s.d2d.unacked ++ [Safety.waiting s { cls := .cmd, slot := n, cmd := .powerOff }] ∧
          (∀ m : Nat, m ≠ n → t.slot m = s.slot m) ∧ t.mode = s.mode ∧ t.keys = s.keys ∧ t.cfg = s.cfg)) ∧
      (∀ r : Fin 16, (r.val < 5 ∨ 0xA < r.val) → exec (.hallmarkFail n r) s = .next s))

/-- The die-to-die link (R33 to R35, R330): a CMD or CFG frame is applied once and in order and is acknowledged, a repeated one acknowledged
only; a QUENCH lets every slot take its safe action; an ACK ends the wait of the frame under way, and the next one goes out; a frame without
its ACK goes out again after 1 µs, a CMD or CFG at most three times; STAT, SAMPLE and ALARM frames bring the slot power die's readings
and events; eight frame slots without a good frame are a lost link, at which the switch die reports an S4 fault and the slot power die
applies the safe actions that it holds. Model's choices in it: log entries 66, 84. -/
def Obligations.DieToDieFramesApplyOnceAndAreAcknowledged : Prop :=
  (∀ (s : State) (f : D2dFrame), Safety.PdHears s → f.crcOk = true → f.slot < 24 →
    (f.cls = .cfg → f.field < 64 → repeated s.pd.lastSeq f.seq = false → ∃ t, exec (.d2dFrame .powerDie f) s = .next t ∧
      t.pd.lastSeq = some f.seq ∧ t.pd.lastGood = s.clock ∧ t.out.head? = some (Safety.ackSent f.seq) ∧
      (f.field = 63 → t.pd.safe.getLsbD f.slot = (f.value % 2 == 1) ∧ ∀ k, k ≠ f.slot → t.pd.safe.getLsbD k = s.pd.safe.getLsbD k) ∧
      (f.field = 61 → Safety.Canonical s → (t.slot f.slot).perst = true) ∧
      (f.field ≠ 61 → t = { s with pd := t.pd, out := t.out }) ∧
      (f.field ≠ 61 → f.field ≠ 63 → tfind t.pd.fields (64 * f.slot + f.field) = some f.value) ∧
      (∀ m, m ≠ f.slot → t.slot m = s.slot m) ∧ t = { s with pd := t.pd, slots := t.slots, out := t.out }) ∧
    (f.cls = .cmd → repeated s.pd.lastSeq f.seq = false → ∃ t, exec (.d2dFrame .powerDie f) s = .next t ∧ t.pd.lastSeq = some f.seq ∧
      tget 0 t.pd.orders f.slot = cmdNum f.cmd ∧ t.out.head? = some (Safety.ackSent f.seq) ∧
      (f.cmd = .powerOff → gateOn (s.slot f.slot) = true → (s.slot f.slot).warnKind = 0 → (t.slot f.slot).loc = 8 ∧
        (t.slot f.slot).warnKind = 1 ∧ (t.slot f.slot).warnSince = s.clock ∧ (t.slot f.slot).perst = true ∧ (t.slot f.slot).warn = true ∧
        gateOn (t.slot f.slot) = true) ∧
      (f.cmd = .latchClear → (s.slot f.slot).loc = 9 → latchEnded (s.slot f.slot) = true → (t.slot f.slot).latch = 0) ∧
      (f.cmd = .retryStart → t.slots = s.slots) ∧ (∀ m, m ≠ f.slot → t.slot m = s.slot m) ∧
      t = { s with pd := t.pd, slots := t.slots, out := t.out }) ∧
    (((f.cls = .cfg ∧ f.field < 64) ∨ f.cls = .cmd) → repeated s.pd.lastSeq f.seq = true →
      exec (.d2dFrame .powerDie f) s = .next { s with pd := { s.pd with lastGood := s.clock }, out := Safety.ackSent f.seq :: s.out }) ∧
    (f.cls = .quench → Safety.Canonical s → repeated s.pd.lastQuench f.seq = false → ∃ t, exec (.d2dFrame .powerDie f) s = .next t ∧
      t.pd.lastQuench = some f.seq ∧ t.out.head? = some (Safety.ackSent f.seq) ∧ (∀ n : SlotId, Safety.SafeAction s t n) ∧
      t = { s with pd := t.pd, slots := t.slots, out := t.out })) ∧
  (∀ (s : State) (f : D2dFrame), s.d2d.broken = false → f.crcOk = false → exec (.d2dFrame .powerDie f) s = .next s ∧
    (s.d2d.lost = false → s.mode ≠ .reset → exec (.d2dFrame .switchDie f) s = .next (report s 0x0C 0 0x06))) ∧
  (∀ (s : State) (f : D2dFrame), Safety.Hears s → f.crcOk = true →
    (f.cls = .ack →
      (∀ u r, s.d2d.unacked = u :: r → u.frame.seq = f.seq → ∃ t, exec (.d2dFrame .switchDie f) s = .next t ∧
        t.d2d.unacked = Safety.nextUnderWay s r ∧ (∀ w, r.head? = some w → .d2d .powerDie w.frame ∈ t.out) ∧
        t = { s with d2d := t.d2d, out := t.out }) ∧
      (∀ u, s.d2d.quench = some u → u.frame.seq = f.seq → ∃ t, exec (.d2dFrame .switchDie f) s = .next t ∧ t.d2d.quench = none ∧
        t = { s with d2d := t.d2d, out := t.out })) ∧
    (f.cls = .sample → f.slot < 24 → Safety.Canonical s → ∃ t, exec (.d2dFrame .switchDie f) s = .next t ∧
      (f.field = 0 → t.slot f.slot = { s.slot f.slot with feedAMv := Config.adc 0 f.value }) ∧
      (f.field = 1 → t.slot f.slot = { s.slot f.slot with feedBMv := Config.adc 1 f.value }) ∧
      (f.field = 2 → t.slot f.slot = { s.slot f.slot with voutMv := Config.adc 2 f.value }) ∧
      (f.field = 3 → t.slot f.slot = { s.slot f.slot with ioutMa := Config.adc 3 f.value }) ∧
      (∀ m, m ≠ f.slot → t.slot m = s.slot m) ∧ t = { s with slots := t.slots, d2d := t.d2d }) ∧
    (f.cls = .alarm → f.slot < 24 → (tget [] s.cupel.queues 14).length < 12 → ∃ t x, exec (.d2dFrame .switchDie f) s = .next t ∧
      tget [] t.cupel.queues 14 = tget [] s.cupel.queues 14 ++ [x] ∧ x.source = 0x10 ∧ x.inst = f.slot ∧ x.kind = f.kind ∧
      x.detail % 2 ^ 16 = f.stamp % 2 ^ 16 ∧ x.time = (s.now - 100) % 2 ^ 21 ∧
      (f.kind = 0x94 → t.reg (offSlp f.slot 0x54) = w32 (sat32 (s.reg (offSlp f.slot 0x54)).toNat 1)) ∧
      t = { s with d2d := t.d2d, regs := t.regs, cupel := t.cupel })) ∧
  (∀ s : State,
    (∀ u r, s.d2d.unacked = u :: r → u.since + 1000 ≤ s.clock → ∃ t, exec .d2dResend s = .next t ∧
      (u.tries < 3 → t.d2d.unacked = { u with since := s.clock, tries := u.tries + 1 } :: r ∧ .d2d .powerDie u.frame ∈ t.out) ∧
      (3 ≤ u.tries → t.d2d.unacked = Safety.nextUnderWay s r) ∧ t = { s with d2d := t.d2d, out := t.out }) ∧
    (∀ u, s.d2d.quench = some u → u.since + 1000 ≤ s.clock → ∃ t, exec .d2dResend s = .next t ∧
      t.d2d.quench = some { u with since := s.clock, tries := u.tries + 1 } ∧ .d2d .powerDie u.frame ∈ t.out ∧
      t = { s with d2d := t.d2d, out := t.out }) ∧
    ((∀ u ∈ s.d2d.unacked, s.clock < u.since + 1000) → (∀ u, s.d2d.quench = some u → s.clock < u.since + 1000) →
      exec .d2dResend s = .next s)) ∧
  (∀ s : State, s.d2d.lost = false → s.mode ≠ .reset →
    (s.d2d.lastGood + 800 ≤ s.clock → ∃ t, exec (.d2dLost .switchDie) s = .next t ∧ t.d2d.lost = true ∧ t.d2d.unacked = [] ∧
      t = report { s with d2d := { s.d2d with lost := true, unacked := [], quench := none } } 0x0C 0 0x05) ∧
    (s.clock < s.d2d.lastGood + 800 → exec (.d2dLost .switchDie) s = .next s)) ∧
  (∀ s : State, s.pd.lost = false → pdRuns s = true → s.pd.resetting = false →
    (Safety.Canonical s → s.pd.lastGood + 800 ≤ s.clock → ∃ t, exec (.d2dLost .powerDie) s = .next t ∧ t.pd = { s.pd with lost := true } ∧
      (∀ n : SlotId, Safety.SafeAction s t n) ∧ t = { s with pd := t.pd, slots := t.slots, out := t.out }) ∧
    (s.clock < s.pd.lastGood + 800 → exec (.d2dLost .powerDie) s = .next s))

/-! Assay, the key store's burns, and the adaptive voltage loop. -/

/-- A block under test passes or fails once, with its result in ASY_RES; a failing station is unusable, a failing housekeeping controller,
crossbar or time base keeps the device out of Run, one failing buffer bank is mapped out, and a failing converter takes every feed out of
use (R378 to R380). Model's choices in it: log entries 42, 49, 83. -/
def Obligations.AssayRecordsEveryBlock : Prop :=
  (∀ (s : State) (i : StationId) (o : AssayOutcome), s.mode = .assay → s.assay.testing.contains i.val = true →
    (s.assay.pairFrom ≤ s.clock → o.pass = true → ∃ t, exec (.assayBlockDone (.station i) o) s = .next t ∧ resultOf t i = 1 ∧
      (t.station i).passed = true ∧ t.unusable.getLsbD i = false ∧ t.assay.testing.contains i.val = false ∧ t.mode = .assay ∧
      t = { Safety.withBuffer s t with regs := t.regs, assay := t.assay, unusable := t.unusable, stations := t.stations, ports := t.ports }) ∧
    (s.assay.pairFrom ≤ s.clock → o.pass = false → Safety.Canonical s → ∃ t, exec (.assayBlockDone (.station i) o) s = .next t ∧
      resultOf t i = 2 ∧ (t.station i).passed = false ∧ t.unusable.getLsbD i = true ∧ t.assay.testing.contains i.val = false ∧
      t = { Safety.withBuffer s t with regs := t.regs, assay := t.assay, unusable := t.unusable, stations := t.stations, cupel := t.cupel }) ∧
    (s.clock < s.assay.pairFrom → exec (.assayBlockDone (.station i) o) s = .next s)) ∧
  (∀ (s : State) (o : AssayOutcome) (b : AssayBlock), s.mode = .assay → underTest s b = true → o.pass = false →
    (b = .crossbar ∨ b = .housekeeping ∨ b = .timeBase) → ∃ t, exec (.assayBlockDone b o) s = .next t ∧ resultOf t (asyIndex b) = 2 ∧
      essentialOk t = false ∧ t = { Safety.withBuffer s t with regs := t.regs, assay := t.assay, cupel := t.cupel }) ∧
  (∀ (s : State) (o : AssayOutcome), s.mode = .assay → underTest s .housekeeping = true → o.pass = true →
    ∃ t, exec (.assayBlockDone .housekeeping o) s = .next t ∧ resultOf t 12 = 1 ∧ t.hkRunning = true ∧ t.assay.wdogFrom = s.clock ∧
      t = { Safety.withBuffer s t with regs := t.regs, assay := t.assay, hkRunning := true }) ∧
  (∀ (s : State) (o : AssayOutcome) (k : Fin 16), s.mode = .assay → underTest s (.bank k) = true → o.pass = false → banksFailed s = 0 →
    ∃ t, exec (.assayBlockDone (.bank k) o) s = .next t ∧ resultOf t (16 + k) = 2 ∧ t.banksOut = BitVec.ofNat 16 (2 ^ k.val) ∧
      banksFailed t = 1 ∧ t = { Safety.withBuffer s t with regs := t.regs, assay := t.assay, banksOut := t.banksOut, cupel := t.cupel }) ∧
  (∀ (s : State) (o : AssayOutcome) (d : BitVec 16), Safety.Canonical s → s.mode = .assay → underTest s (.converter d) = true →
    (-200 ≤ d.toInt → d.toInt ≤ 200 → ∃ t, exec (.assayBlockDone (.converter d) o) s = .next t ∧ t.reg (offAsy 0x0C) = w32 d.toNat ∧
      t = { Safety.withBuffer s t with regs := t.regs, assay := t.assay }) ∧
    ((d.toInt < -200 ∨ 200 < d.toInt) → ∃ t, exec (.assayBlockDone (.converter d) o) s = .next t ∧ t.reg (offAsy 0x0C) = w32 d.toNat ∧
      (∀ n : SlotId, t.slot n = { s.slot n with converterBad := true }) ∧
      t = { Safety.withBuffer s t with regs := t.regs, assay := t.assay, slots := t.slots, cupel := t.cupel, d2d := t.d2d, out := t.out }))

/-- The Assay sequence (R55, R379): stations are tested in pairs, those with an upstream port first, each pair after 1.1 ms of settling;
internal initialisation takes 10 ms and begins with the buffer and the tracker cleared; Run or Degraded begins when both have ended and no
essential block has failed. Model's choices in it: log entries 42, 49, 83. -/
def Obligations.AssaySequenceLeadsToRunOrDegraded : Prop :=
  (∀ s : State, s.mode = .assay → s.assay.testing = [] → secondStepDone s = true → ∃ t, exec .assayStationPairStart s = .next t ∧
    t.assay.testing.length ≤ 2 ∧ (∀ i ∈ t.assay.testing, i ∈ stationOrder s ∧ tested s i = false) ∧
    ((∃ i ∈ stationOrder s, tested s i = false) → t.assay.testing ≠ []) ∧ t.assay.pairFrom = s.clock + 1100000 ∧
    t = { s with assay := t.assay }) ∧
  (∀ (s : State) (o : AssayOutcome), s.mode = .assay → underTest s .crossbar = true → tested s 11 = true → tested s 13 = true →
    s.assay.initFrom = none → ∃ t, exec (.assayBlockDone .crossbar o) s = .next t ∧ t.assay.initFrom = some s.clock ∧ t.descs = [] ∧
      t.used = [] ∧ t.tracker = [] ∧ t.ideQ = [] ∧ t.staging = s.staging) ∧
  (∀ (s : State) (f : Nat), s.mode = .assay → s.assay.initFrom = some f → s.assay.initDone = false →
    (f + 10000000 ≤ s.clock → exec .internalInitDone s = .next { s with assay := { s.assay with initDone := true } }) ∧
    (s.clock < f + 10000000 → exec .internalInitDone s = .next s)) ∧
  (∀ s : State, s.mode = .assay → assayOver s = true → essentialOk s = true → ∃ t, exec .assayEnd s = .next t ∧
    (degradedMask s = 0 → t.mode = .run ∧ t.modeCause = 2) ∧ (degradedMask s ≠ 0 → t.mode = .degraded ∧ t.modeCause = 3) ∧
    t.sec.burnsDue = true ∧ (∀ n r, tfind s.cfg.slots n = some r → r.autoOn = true → (t.slot n).want = true) ∧
    t.thr = (setThresholds s).thr ∧
    t = { s with mode := t.mode, modeCause := t.modeCause, fab := t.fab, ports := t.ports, slots := t.slots, regs := t.regs,
                 cupel := t.cupel, alive := t.alive, faultN := t.faultN, sec := t.sec, thr := t.thr })

/-- ASSAY_STATION fences a station out of use and tests it again: a pass clears it from the unusable stations, a hang is abandoned at 20 ms
with TIMEOUT and the station unusable (R381, R382). Model's choices in it: log entries 16, 25, 42. -/
def Obligations.RuntimeAssayFencesAndRetestsAStation : Prop :=
  (∀ (s : State) (path : Path) (seq st : Byte) (o : AssayOutcome), mayIssue s path = true → s.inRunModes = true → s.hkRunning = true →
    st.toNat ≤ 9 → (tfind s.cfg.stations st.toNat).isSome = true → stationInUse s st.toNat = false → s.assay.runtime = none → o.pass = true →
      ∃ t, exec (.assayStation path seq st (.ended o)) s = .next t ∧ Safety.Answered t seq stOk 12 ∧ resultOf t st.toNat = 1 ∧
        (t.station st.toNat).passed = true ∧ t.unusable.getLsbD st.toNat = false ∧ t.keys = s.keys ∧ t.cfg = s.cfg) ∧
  (∀ (s : State) (path : Path) (seq st : Byte), mayIssue s path = true → s.inRunModes = true → s.hkRunning = true → st.toNat ≤ 9 →
    (tfind s.cfg.stations st.toNat).isSome = true → stationInUse s st.toNat = false → s.assay.runtime = none →
      ∃ t, exec (.assayStation path seq st .hangs) s = .next t ∧ t.assay.runtime = some st.toNat ∧ t.assay.runSince = s.clock ∧
        t.mbx.busy = true ∧ t.keys = s.keys ∧ t.cfg = s.cfg) ∧
  (∀ (s : State) (i : Nat) (x : Active), Safety.Canonical s → s.assay.runtime = some i → i < 10 → s.mbx.active = some x →
    s.assay.runSince + 20000000 ≤ s.clock →
    ∃ t, exec .assayStationHang s = .next t ∧ t.assay.runtime = none ∧ Safety.Answered t x.seq stTimeout 12 ∧
      (t.station i).passed = false ∧ t.unusable.getLsbD i = true ∧ resultOf t i = 2)

/-- LIFECYCLE_BURN (R385 to R389): LOCK_ON_LOAD moves Provisioned to Locked, the security floor rises to MIN_SEC_VERSION and never falls,
and every owner slot of REVOKE_MASK is REVOKED; in Field-Return nothing is burnt. Model's choices in it: log entries 33, 34, 35, 97. -/
def Obligations.BurnsOnlyTightenTheKeyStore : Prop :=
  (∀ s : State, s.sec.burnsDue = true → s.hkRunning = true → s.keys.lifecycle ≠ 3 → ∃ t, exec .lifecycleBurn s = .next t ∧
    t.keys.lifecycle = (if s.keys.lifecycle = 1 ∧ (lockRec s).lockOnLoad = true then 2 else s.keys.lifecycle) ∧
    t.keys.minSec = max s.keys.minSec (lockRec s).minSecVersion ∧
    (∀ i : Fin 4, (tget {} t.keys.owner i).st = if (lockRec s).revokeMask.getLsbD i then 2 else (tget {} s.keys.owner i).st) ∧
    t.keys.uid = s.keys.uid ∧ t.keys.vendorKey = s.keys.vendorKey ∧ t.sec.burnsDue = false ∧
    t = { s with keys := t.keys, regs := t.regs, sec := t.sec }) ∧
  (∀ s : State, s.sec.burnsDue = true → s.hkRunning = true → s.keys.lifecycle = 3 → ∃ t, exec .lifecycleBurn s = .next t ∧
    t.keys = s.keys ∧ t.sec.burnsDue = false ∧ t = { s with sec := t.sec })

/-- The adaptive voltage loop (R376, R378): at each 100 µs AVS_VMAX_MV while it is frozen, but for a retention pause of the power-up Assay,
10 mV up at once below a slack of 4, never below AVS_VMIN_MV and never above AVS_VMAX_MV; a write that is not acknowledged goes out again
three times, 10 µs apart, then AVS_FAIL. Model's choices in it: log entries 34, 42, 43, 49. -/
def Obligations.AvsRequestsStayWithinTheirLimits : Prop :=
  (∀ (s : State) (l : List Nat), s.mode ≠ .reset → s.assay.avsNext ≤ s.clock → ∃ t, exec (.avsTick l) s = .next t ∧
    t.assay.avsNext = s.clock + 100000 ∧ (avsFrozen s = true → s.mode ≠ .assay → t.assay.vreq = avsMax s) ∧
    (s.mode = .assay → t.assay.vreq = avsMax s ∨ (s.assay.avsFail = false ∧ t.assay.vreq = avsMin s)) ∧
    (avsFrozen s = false → s.assay.avsFail = false → minSlack s l < 4 → t.assay.vreq = min (avsMax s) (s.assay.vreq + 10)) ∧
    (avsFrozen s = false → s.assay.avsFail = false → 4 ≤ minSlack s l → minSlack s l ≤ 10 → t.assay.vreq = s.assay.vreq) ∧
    (avsMin s ≤ s.assay.vreq → avsMin s ≤ avsMax s → s.assay.vreq ≤ avsMax s → avsMin s ≤ t.assay.vreq ∧ t.assay.vreq ≤ avsMax s) ∧
    (t.assay.vreq ≠ s.assay.written → t.out = .avs t.assay.vreq :: s.out ∧ t.assay.written = t.assay.vreq) ∧
    t = { s with regs := t.regs, assay := t.assay, out := t.out }) ∧
  (∀ (s : State) (l : List Nat), s.clock < s.assay.avsNext → exec (.avsTick l) s = .next s) ∧
  (∀ s : State, s.assay.avsWait = true →
    exec (.avsRetry true) s = .next { s with assay := { s.assay with avsWait := false, avsFail := false } }) ∧
  (∀ s : State, s.assay.avsWait = true → s.assay.avsSent + 10000 ≤ s.clock →
    (s.assay.avsTries < 3 → ∃ t, exec (.avsRetry false) s = .next t ∧
      t.assay = { s.assay with avsTries := s.assay.avsTries + 1, avsSent := s.clock } ∧ t.out = .avs s.assay.written :: s.out ∧
      t = { s with regs := t.regs, assay := t.assay, out := t.out }) ∧
    (s.assay.avsTries = 3 → s.assay.avsFail = false → ∃ t, exec (.avsRetry false) s = .next t ∧
      t.assay = { s.assay with avsWait := false, avsFail := true } ∧ w32Bit (t.reg (offAnl 0x04)) 0 = true ∧
      t = { s with regs := t.regs, assay := t.assay, cupel := t.cupel })) ∧
  (∀ s : State, s.clock < s.assay.avsSent + 10000 → exec (.avsRetry false) s = .next s)

/-! Cupel. -/

/-- Cupel takes the message at the head of the queue whose turn it is, as it is or, where its parity has not come through, as one of kind
UNKNOWN. A new class takes an entry with a count of one, a known one counts it, and either is unacknowledged (R314, R316, R321, R322).
Model's choices in it: log entries 70, 71. -/
def Obligations.CupelFilesEachMessageUnderItsClass : Prop :=
  ∀ (s : State) (m m' : Msg) (r : List Msg), s.cupel.turn < 15 → tget [] s.cupel.queues s.cupel.turn = m :: r →
    m' = normalise { m with parityOk := m.parityOk && Config.msgParityOk s.cupel.turn s.clock } → 0 < (kindInForce (reactEntries s) m'.kind).1 →
    (m.parityOk = false → m'.kind = 0) ∧ ((kindOf m.kind).isSome = true → m' = m ∨ m'.kind = 0) ∧
    (findClass s (classOf m') = none → s.cupel.table.length < 992 → ∃ t i e, exec .cupelMessage s = .next t ∧
      tfind t.cupel.table i = some e ∧ tfind s.cupel.table i = none ∧ e.cls = classOf m' ∧ e.level = (kindInForce (reactEntries s) m'.kind).1 ∧
      e.acked = false ∧ e.count = 1 ∧ e.lastMsg = m' ∧ t.cupel.turn = (s.cupel.turn + 1) % 15) ∧
    (∀ i e, findClass s (classOf m') = some (i, e) → ∃ t e', exec .cupelMessage s = .next t ∧ tfind t.cupel.table i = some e' ∧
      e'.cls = e.cls ∧ e'.acked = false ∧ e'.count = w32 (sat32 e.count.toNat 1) ∧ e.first = e'.first ∧
      (e.acked = false → e.level ≤ e'.level) ∧ t.cupel.turn = (s.cupel.turn + 1) % 15)

/-- A block's rail ALARM in Run or Degraded is a Quench: Safe with MODE_CAUSE QUENCH, ALIVE stopped, FAULT_N asserted, and every port
contained; a block's first EQUAL is entered at S3, which takes a station out of use with its ports contained and leaves the device Degraded,
and for the crossbar, the housekeeping controller and the time base only the entry is made (R317, R325, R330, R334). Model's choices in it:
log entries 70, 71. -/
def Obligations.RailFaultQuenchesTheDevice : Prop :=
  (∀ (s : State) (r : RailId), s.inRunModes = true → tget .healthy s.cupel.rails r = .healthy →
    (kindInForce (reactEntries s) 0x01).1 = 4 → (kindInForce (reactEntries s) 0x01).2.1 ≤ 4 →
    (∀ e ∈ s.cupel.table, e.2.cls.kind = 0x01 → e.2.level = 4) → (∀ x, s.cupel.quenchAt ≠ some (s.clock, x)) →
    ∃ t, exec (.railAlarm r) s = .next t ∧ t.mode = .safe ∧ t.modeCause = 6 ∧ t.alive = false ∧ t.faultN = true ∧
      tget .healthy t.cupel.rails r = .alarm ∧ (∀ p ∈ s.portNums, (t.port p).contain.phase = 1 ∨ (t.port p).contain.phase = 2) ∧
      t.keys = s.keys ∧ t.cfg = s.cfg) ∧
  (∀ (s : State) (r : RailId), s.inRunModes = true → tget .healthy s.cupel.rails r = .healthy →
    (kindInForce (reactEntries s) 0x02).1 = 3 → (∀ e ∈ s.cupel.table, e.2.cls.kind ≠ 0x02) → s.cupel.table.length < 992 →
    ∃ t i e, exec (.railEqual r) s = .next t ∧ tget .healthy t.cupel.rails r = .equal ∧ tfind t.cupel.table i = some e ∧
      e.cls = { source := r, inst := 0, kind := 0x02, owner := 0x1FF } ∧ e.level = 3 ∧ e.acked = false ∧ t.keys = s.keys ∧ t.cfg = s.cfg ∧
      (r.val < 10 → t.mode = .degraded ∧ t.unusable.getLsbD r = true ∧
        ∀ p ∈ s.portNums, stationOf p = r → (t.port p).contain.phase = 1 ∨ (t.port p).contain.phase = 2) ∧
      (10 ≤ r.val → r.val ≠ 11 → t.mode = s.mode ∧ t.unusable = s.unusable ∧ t.ports = s.ports))

/-- A condition that ends makes its entry inactive and leaves its level, count and acknowledgement (R323); a block whose overrun flag is set
is reported as MSG_OVF, once in a millisecond, and a new millisecond starts the storm and rejection limits anew (R219, R316, R326). Model's
choices in it: log entries 32, 70. -/
def Obligations.EndedConditionsOverrunsAndLimits : Prop :=
  (∀ (s : State) (i : Fin 1024) (e : FltEntry), tfind s.cupel.table i = some e →
    (e.active = true → e.cls.kind = 0x95 → ∃ t, exec (.faultConditionEnd i) s = .next t ∧
      tfind t.cupel.table i = some { e with active := false } ∧ t.mode = s.mode ∧
      t = { s with cupel := t.cupel, regs := t.regs, slots := t.slots, alive := t.alive, faultN := t.faultN }) ∧
    (e.active = true → (e.cls.kind = 0x01 ∨ e.cls.kind = 0x02) →
      (tget 0 s.cupel.injectUntil e.cls.source ≤ s.clock → ∃ t, exec (.faultConditionEnd i) s = .next t ∧
        tfind t.cupel.table i = some { e with active := false } ∧ t.mode = s.mode ∧
        t = { s with cupel := t.cupel, regs := t.regs, alive := t.alive, faultN := t.faultN }) ∧
      (s.clock < tget 0 s.cupel.injectUntil e.cls.source → exec (.faultConditionEnd i) s = .next s)) ∧
    (∀ d, e.active = true → ((e.cls.kind = 0x0C ∧ d = 120) ∨ (e.cls.kind = 0x0D ∧ d = 130)) →
      (cooled s d = true → ∃ t, exec (.faultConditionEnd i) s = .next t ∧ tfind t.cupel.table i = some { e with active := false } ∧
        t.cupel.tjOn.getLsbD (e.cls.kind - 0x0C) = false ∧ t.mode = s.mode ∧
        t = { s with cupel := t.cupel, regs := t.regs, alive := t.alive, faultN := t.faultN }) ∧
      (cooled s d = false → exec (.faultConditionEnd i) s = .next s)) ∧
    (e.active = false → exec (.faultConditionEnd i) s = .next s)) ∧
  (∀ (s : State) (r : RailId),
    (s.cupel.ovf.getLsbD r = true → tget 0 s.cupel.ovfMs r ≠ s.now / 1000000 + 1 → 0 < (kindInForce (reactEntries s) 0x04).1 →
      (∀ e ∈ s.cupel.table, e.2.cls.kind ≠ 0x04) → s.cupel.table.length < 992 → ∃ t i e, exec (.msgOvf r) s = .next t ∧
        tfind t.cupel.table i = some e ∧ e.cls = { source := r, inst := 0, kind := 0x04, owner := 0x1FF } ∧ e.acked = false ∧ e.count = 1 ∧
        tget 0 t.cupel.ovfMs r = s.now / 1000000 + 1) ∧
    ((s.cupel.ovf.getLsbD r = false ∨ tget 0 s.cupel.ovfMs r = s.now / 1000000 + 1) → exec (.msgOvf r) s = .next s)) ∧
  (∀ s : State, exec .logLimitMs s = .next { s with
    gateMs := s.gateMs.filter (fun e => countsNow s e.2), cupel := { s.cupel with storm := stormNow s, stormMs := s.now / 1000000 } }) ∧
  (∀ s : State, s.cupel.stormMs ≠ s.now / 1000000 → stormNow s = [])

/-- ALIVE toggles each 500 µs, only in Run and Degraded, while no S4 entry is unacknowledged or active and every self-check passes; otherwise
it stops and FAULT_N is asserted (R334). Two consecutive readings of one island at 120 °C or more set TJ_HIGH, at 130 °C or more TJ_CRIT;
the watchdog stops a stalled firmware after 100 ms and is reported (R29, R320). Model's choices in it: log entries 49, 70, 71. -/
def Obligations.AliveTemperatureAndWatchdog : Prop :=
  (∀ (s : State) (b : Bool), s.cupel.aliveNext ≤ s.clock →
    (s.inRunModes = true → s4Holds s = false → s.cupel.unserved = 0 → s.cupel.signalled = 0 →
      (∀ r : RailId, tget .healthy s.cupel.rails r = .healthy) → b = true → ∃ t, exec (.aliveToggle b) s = .next t ∧ t.alive = true ∧
        t.faultN = false ∧ t.cupel.checkBad = false ∧ t.cupel.aliveNext = s.clock + 500000 ∧
        (s.alive = true → t.cupel.aliveLow = !s.cupel.aliveLow) ∧ t = { s with alive := t.alive, faultN := t.faultN, cupel := t.cupel }) ∧
    (s.inRunModes = true → b = false → ∃ t, exec (.aliveToggle b) s = .next t ∧ t.alive = false ∧ t.faultN = true ∧
      (s4Holds s = false → t.cupel.checkBad = true) ∧ t.keys = s.keys ∧ t.cfg = s.cfg) ∧
    (s.inRunModes = true → s4Holds s = true → exec (.aliveToggle b) s = .next { s with alive := false, faultN := true }) ∧
    ((s.mode = .safe ∨ s.mode = .maintenance ∨ s.mode = .factory) →
      exec (.aliveToggle b) s = .next { s with alive := false, faultN := true })) ∧
  (∀ (s : State) (b : Bool), s.clock < s.cupel.aliveNext → exec (.aliveToggle b) s = .next s) ∧
  (∀ (s : State) (l : List Int), s.mode ≠ .reset → s.cupel.tempNext ≤ s.clock →
    (∃ t, exec (.temperatureRead l) s = .next t ∧ t.cupel.tempNext = s.clock + 100000 ∧
      t.cupel.temps = (List.range 14).map (fun i => l.getD i 0) ∧
      (∀ i, i < 14 → 480 ≤ l.getD i 0 → 1 ≤ tget 0 s.cupel.hot i → t.cupel.tjOn.getLsbD 0 = true) ∧
      (∀ i, i < 14 → 520 ≤ l.getD i 0 → 1 ≤ tget 0 s.cupel.hot (32 + i) → t.cupel.tjOn.getLsbD 1 = true) ∧
      t = { s with cupel := t.cupel, regs := t.regs }) ∧
    ((∀ x ∈ l, x < 480) → tsorted 0 s.cupel.hot = true → ∃ t, exec (.temperatureRead l) s = .next t ∧
      (∀ b, t.cupel.tjOn.getLsbD b = true → s.cupel.tjOn.getLsbD b = true) ∧ t.cupel.queues = s.cupel.queues ∧
      t = { s with cupel := t.cupel })) ∧
  (∀ (s : State) (l : List Int), s.clock < s.cupel.tempNext → exec (.temperatureRead l) s = .next s) ∧
  (∀ s : State,
    (s.hkRunning = true → s.assay.wdogFrom + 100000000 ≤ s.clock → ∃ t, exec .hkWatchdog s = .next t ∧ t.hkRunning = false ∧
      t = report { s with hkRunning := false } 0x0C 0 0x07) ∧
    ((s.hkRunning = false ∨ s.clock < s.assay.wdogFrom + 100000000) → exec .hkWatchdog s = .next s))

/-! The mailbox. -/

/-- A free mailbox is granted to the path that reads MBX_CLAIM; only its holder releases it, and not while a command runs; the idle time
releases it too, and a release discards the response and any staged record (R64, R74). GET_STATE is answered in every mode but Reset,
whether the housekeeping controller runs or not, with 32 bytes that begin with MODE, MODE_CAUSE, RESET_CAUSE and the ingot slot (R69, R70).
Model's choices in it: log entries 25, 27, 72. -/
def Obligations.MailboxHasOneHolderAndAnswersGetState : Prop :=
  ((∀ (s : State) (p : Path), pathOpen s p = true → s.mbx.owner = none → ∃ t, exec (.mbxClaimRead p) s = .next t ∧ t.mbx.owner = some p ∧
      t.out = .regRead p 1 :: s.out ∧ t = { s with mbx := t.mbx, out := t.out }) ∧
    (∀ (s : State) (p q : Path), pathOpen s p = true → s.mbx.owner = some q → ∃ t, exec (.mbxClaimRead p) s = .next t ∧
      t.mbx.owner = some q ∧ t.out = .regRead p 0 :: s.out ∧ (p ≠ q → t.mbx = s.mbx) ∧ t = { s with mbx := t.mbx, out := t.out }) ∧
    (∀ (s : State) (p : Path), pathOpen s p = true → s.mbx.owner = some p → s.mbx.busy = false → ∃ t, exec (.mbxRelease p) s = .next t ∧
      t.mbx.owner = none ∧ t.mbx.done = false ∧ t.mbx.rsp = 0 ∧ t.mbx.data = [] ∧ t.mbx.staging = none ∧ t = { s with mbx := t.mbx }) ∧
    (∀ (s : State) (p : Path), (s.mbx.owner ≠ some p ∨ s.mbx.busy = true) → exec (.mbxRelease p) s = .next s) ∧
    (∀ s : State, s.mbx.owner.isSome = true → s.mbx.busy = false → s.mbx.lastUse + 1000000 * s.device.mbxReleaseMs ≤ s.clock →
      ∃ t, exec .mbxIdleRelease s = .next t ∧ t.mbx.owner = none ∧ t.mbx.done = false ∧ t.mbx.staging = none ∧ t = { s with mbx := t.mbx }) ∧
    (∀ s : State, s.mbx.busy = true → exec .mbxIdleRelease s = .next s)) ∧
  (∀ (s : State) (p : Path) (seq : Byte), mayIssue s p = true → tsorted 0 s.mbx.data = true → ∃ t, exec (.getState p seq) s = .next t ∧
      Safety.Answered t seq stOk 32 ∧
      tget 0 t.mbx.data 0 = w32 (modeNum s.mode + 256 * (s.modeCause + 256 * (s.resetCause + 256 * ingotSlot s))) ∧
      ((s.mode = .load ∨ s.mode = .assay) → ∀ i, 1 ≤ i → i < 8 → tget 0 t.mbx.data i = 0) ∧
      (s.mode ≠ .load → s.mode ≠ .assay → tget 0 t.mbx.data 1 = w32 (degradedMask s) ∧ tget 0 t.mbx.data 3 = w32 s.sec.level) ∧
      Safety.AnswerOnly s t)

/-- ACK_FAULT acknowledges one entry, every entry up to a level, or all, and leaves every other entry as it was (R324). Model's choices in
it: log entries 25, 28. -/
def Obligations.AckFaultMarksExactlyTheNamedEntries : Prop :=
  ∀ (s : State) (p : Path) (seq : Byte), mayIssue s p = true → s.hkRunning = true → s.mode ≠ .load → s.mode ≠ .assay →
    (∀ (i : W16) (e : FltEntry), tfind s.cupel.table i.toNat = some e → ∃ t, exec (.ackFaultEntry p seq i) s = .next t ∧
      Safety.Answered t seq stOk 8 ∧ tfind t.cupel.table i.toNat = some { e with acked := true } ∧
      (∀ j, j ≠ i.toNat → tfind t.cupel.table j = tfind s.cupel.table j) ∧
      Safety.AnswerOnly { s with cupel := t.cupel, alive := t.alive, faultN := t.faultN } t) ∧
    (∀ l : Byte, 1 ≤ l.toNat → l.toNat ≤ 4 → ∃ t, exec (.ackFaultUpToLevel p seq l) s = .next t ∧ Safety.Answered t seq stOk 8 ∧
      (∀ i e, tfind s.cupel.table i = some e →
        tfind t.cupel.table i = some (if e.level ≤ l.toNat then { e with acked := true } else e)) ∧
      Safety.AnswerOnly { s with cupel := t.cupel, alive := t.alive, faultN := t.faultN } t) ∧
    (∃ t, exec (.ackFaultAll p seq) s = .next t ∧ Safety.Answered t seq stOk 8 ∧ unackAll t = 0 ∧ unackS4 t = 0 ∧
      Safety.AnswerOnly { s with cupel := t.cupel, alive := t.alive, faultN := t.faultN } t)


/-- A whole AMEND record that is granted and passes its checks takes force and is counted in ING_AMENDS; one that changes a field without a
grant is DENIED, one that fails a check BAD_ARGUMENT, one that needs what is held BUSY, and one with VALIDATE_ONLY stops at OK; all of these
leave the configuration as it was (R72, R73). A first part is staged; a later part whose PART_OFFSET is not the staged size discards the
staging (R74), and a refusal of a record leaves it (R67). Model's choices in it: log entries 25, 37, 38. -/
def Obligations.AmendCommitsWholeOrNotAtAll : Prop :=
  (∀ (s : State) (p : Path) (seq : Byte) (b : List Byte) (l : Layout), mayIssue s p = true → s.inRunModes = true → 8 ≤ b.length →
    b.length ≤ 1016 → framedSize b = b.length → layoutOf (recOf b).type = some l →
    (deniedAt s (recOf b) l = none → amendErr s (recOf b) l = none → amendBusy s (recOf b) l = false →
      (∃ t, exec (.amend p seq false 0 b) s = .next t ∧ Safety.Answered t seq stOk 0 ∧ t.records = putRec s.records (clearBuckets (recOf b)) ∧
        t.cfg = readInto s.cfg (clearBuckets (recOf b)) ∧ t.reg 0x10028 = w32 (sat32 (s.reg 0x10028).toNat 1) ∧ t.mbx.staging = none ∧
        t = { Safety.afterAnswer s t with records := t.records, cfg := t.cfg, ports := t.ports, shapers := t.shapers, groups := t.groups,
                                          lots := t.lots, chans := t.chans, vfs := t.vfs, sec := t.sec }) ∧
      (∃ t, exec (.amend p seq true 0 b) s = .next t ∧ Safety.Answered t seq stOk 0 ∧ Safety.AnswerOnly s t)) ∧
    (deniedAt s (recOf b) l = none → amendErr s (recOf b) l = none → amendBusy s (recOf b) l = true → ∀ v, ∃ t,
      exec (.amend p seq v 0 b) s = .next t ∧ Safety.Answered t seq stBusy 0 ∧ t.mbx.staging = s.mbx.staging ∧ Safety.AnswerOnly s t) ∧
    (∀ c o v, deniedAt s (recOf b) l = none → amendErr s (recOf b) l = some (c, o) → ∃ t, exec (.amend p seq v 0 b) s = .next t ∧
      Safety.Answered t seq stBadArgument 4 ∧ t.mbx.staging = s.mbx.staging ∧ Safety.AnswerOnly s t) ∧
    (∀ o v, deniedAt s (recOf b) l = some o → ∃ t, exec (.amend p seq v 0 b) s = .next t ∧ Safety.Answered t seq stDenied 4 ∧
      t.mbx.staging = s.mbx.staging ∧ Safety.AnswerOnly s t)) ∧
  (∀ (s : State) (p : Path) (seq : Byte) (v : Bool), mayIssue s p = true → s.inRunModes = true → s.hkRunning = true →
    (∀ b : List Byte, 8 ≤ b.length → b.length ≤ 1016 → framedSize b ≤ 8192 → b.length ≤ framedSize b → ∃ t,
      exec (.amendPart p seq v 0 b) s = .next t ∧ Safety.Answered t seq stOk 4 ∧
        t.mbx.staging = some { bytes := b, total := framedSize b, validateOnly := v } ∧ Safety.AnswerOnly s t) ∧
    (∀ (b : List Byte) (off : W32) (g : Staging), b.length ≤ 1016 → off ≠ 0 → s.mbx.staging = some g → off.toNat ≠ g.bytes.length → ∃ t,
      exec (.amendPart p seq v off b) s = .next t ∧ Safety.Answered t seq stBadArgument 4 ∧ t.mbx.staging = none ∧ Safety.AnswerOnly s t))

/-- SLOT_POWER (R33, R349, R360): READ changes nothing; ON and FORCE_ON set WANT; OFF clears it and orders the cut of a slot that is on;
OFF_DRAIN drains the slot's port first; CLEAR_LATCH ends the lockout and orders the latch cleared; a slot in DRAIN or WARN is BUSY, and
without a grant every change is DENIED. Model's choices in it: log entries 25, 29, 30, 66, 68. -/
def Obligations.SlotPowerCommandsActOnTheirSlotOnly : Prop :=
  ∀ (s : State) (p : Path) (seq n : Byte), mayIssue s p = true → s.hkRunning = true →
    (s.inRunModes = true ∨ s.mode = .maintenance ∨ s.mode = .factory) → n.toNat ≤ 23 → (tfind s.cfg.slots n.toNat).isSome = true →
    let orders : List Instr := [.slotPowerOn p seq n, .slotPowerForceOn p seq n, .slotPowerOff p seq n, .slotPowerOffDrain p seq n,
      .slotPowerClearLatch p seq n]
    (∃ t, exec (.slotPowerRead p seq n) s = .next t ∧ Safety.Answered t seq stOk 8 ∧ Safety.AnswerOnly s t) ∧
    (granted s .slotPower n.toNat = true → (s.slot n.toNat).st ≠ 7 → (s.slot n.toNat).st ≠ 8 →
      (∃ t, exec (.slotPowerOn p seq n) s = .next t ∧ Safety.Answered t seq stOk 8 ∧ (t.slot n.toNat).want = true ∧
        (t.slot n.toNat).rearm = false ∧ (t.slot n.toNat).st = (s.slot n.toNat).st ∧ (∀ m, m ≠ n.toNat → t.slot m = s.slot m) ∧
        ((s.slot n.toNat).st ≠ 5 ∨ bitN (s.slot n.toNat).seen 12 = false → t.d2d = s.d2d) ∧
        ((s.slot n.toNat).st = 5 → bitN (s.slot n.toNat).seen 12 = true → s.d2d.lost = false → t.d2d.unacked = s.d2d.unacked ++
          [Safety.waiting s { cls := .cmd, slot := n.toNat, cmd := .powerOn, value := bitsN (s.slot n.toNat).seen 8 2 }]) ∧
        Safety.AnswerOnly { s with slots := t.slots, d2d := t.d2d } t) ∧
      (forceBlock s n.toNat = 0 → ∃ t, exec (.slotPowerForceOn p seq n) s = .next t ∧ Safety.Answered t seq stOk 8 ∧
        (t.slot n.toNat).want = true ∧ (t.slot n.toNat).forced = true ∧ (∀ m, m ≠ n.toNat → t.slot m = s.slot m) ∧
        Safety.AnswerOnly { s with slots := t.slots, d2d := t.d2d } t) ∧
      (forceBlock s n.toNat ≠ 0 → ∃ t, exec (.slotPowerForceOn p seq n) s = .next t ∧ Safety.Answered t seq stOk 8 ∧ Safety.AnswerOnly s t) ∧
      (seenOn (s.slot n.toNat) = true → s.d2d.lost = false → ∃ t, exec (.slotPowerOff p seq n) s = .next t ∧ Safety.Answered t seq stOk 8 ∧
        (t.slot n.toNat).want = false ∧ (t.slot n.toNat).st = 8 ∧ gateOn (t.slot n.toNat) = gateOn (s.slot n.toNat) ∧
        t.d2d.unacked = s.d2d.unacked ++ [Safety.waiting s { cls := .cmd, slot := n.toNat, cmd := .powerOff }] ∧
        (∀ m, m ≠ n.toNat → t.slot m = s.slot m) ∧ t.mode = s.mode ∧ t.keys = s.keys ∧ t.cfg = s.cfg) ∧
      (Safety.Canonical s → seenOn (s.slot n.toNat) = false ∨ s.d2d.lost = true → ∃ t, exec (.slotPowerOff p seq n) s = .next t ∧
        Safety.Answered t seq stOk 8 ∧ t.slot n.toNat = { s.slot n.toNat with want := false, cmdOn := false, forced := false } ∧
        (∀ m, m ≠ n.toNat → t.slot m = s.slot m) ∧ Safety.AnswerOnly { s with slots := t.slots } t) ∧
      (∀ q, (s.slot n.toNat).st = 5 → portOfSlot s n.toNat = some q → (s.port q).link.dlUp = true → (s.port q).contain.phase = 0 →
        ∃ t, exec (.slotPowerOffDrain p seq n) s = .next t ∧ Safety.Answered t seq stOk 8 ∧ (t.slot n.toNat).want = false ∧
          (t.slot n.toNat).st = 7 ∧ (t.port q).contain.phase = 3 ∧ (t.port q).contain.drainSince = s.clock ∧
          (∀ m, m ≠ n.toNat → t.slot m = s.slot m) ∧ (∀ r, r ≠ q → t.port r = s.port r) ∧
          Safety.AnswerOnly { s with slots := t.slots, ports := t.ports } t) ∧
      (Safety.Canonical s → ∃ t, exec (.slotPowerClearLatch p seq n) s = .next t ∧ Safety.Answered t seq stOk 8 ∧
        (t.slot n.toNat).lockout = false ∧ (t.slot n.toNat).count = 0 ∧ (∀ m, m ≠ n.toNat → t.slot m = s.slot m) ∧
        (latchEnded { s.slot n.toNat with latch := bitsN (s.slot n.toNat).seen 4 4 } = true → s.d2d.lost = false →
          t.d2d.unacked = s.d2d.unacked ++ [Safety.waiting s { cls := .cmd, slot := n.toNat, cmd := .latchClear }]) ∧
        Safety.AnswerOnly { s with slots := t.slots, d2d := t.d2d } t)) ∧
    (granted s .slotPower n.toNat = true → ((s.slot n.toNat).st = 7 ∨ (s.slot n.toNat).st = 8) → ∀ c ∈ orders,
      ∃ t, exec c s = .next t ∧ Safety.Answered t seq stBusy 0 ∧ Safety.AnswerOnly s t) ∧
    (granted s .slotPower n.toNat = false → ∀ c ∈ orders, ∃ t, exec c s = .next t ∧ Safety.Answered t seq stDenied 0 ∧ Safety.AnswerOnly s t)

/-- SET_TIME steps the counter to the given second at once, or arms the next edge and times out after 1.5 s (R187); SNAPSHOT_AT and
ROUTE_EPOCH are scheduled with OK and act at AT (R267, R268, R281, R282). Model's choices in it: log entries 25, 31, 34. -/
def Obligations.TimedCommandsAreScheduledAndAct : Prop :=
  ((∀ (s : State) (p : Path) (seq : Byte) (sec : W64), mayIssue s p = true → s.hkRunning = true → s.inRunModes = true →
    sec.toNat ≤ 18446744072 → isFollower s = false → ∃ t, exec (.setTime p seq sec false) s = .next t ∧ Safety.Answered t seq stOk 8 ∧
      t.now = 1000000000 * sec.toNat + s.now % 1000000000 ∧
      t = { Safety.afterAnswer s t with time := t.time, ports := t.ports, cupel := t.cupel }) ∧
  (∀ (s : State) (p : Path) (seq : Byte) (sec : W64), mayIssue s p = true → s.hkRunning = true → s.inRunModes = true →
    sec.toNat ≤ 18446744072 → setTimeConflict s true = false → ∃ t, exec (.setTime p seq sec true) s = .next t ∧ t.mbx.busy = true ∧
      t.time.setAt = some sec ∧ t.now = s.now ∧ t = { s with time := t.time, mbx := t.mbx }) ∧
  (∀ (s : State) (a : Active) (x : W64), activeCmd s 0x07 = some a → s.time.setAt = some x → a.since + 1500000000 ≤ s.clock →
    ∃ t, exec .setTimeTimeout s = .next t ∧ Safety.Answered t a.seq stTimeout 0 ∧ t.time.setAt = none ∧ t.now = s.now ∧
      Safety.AnswerOnly { s with time := t.time } t)) ∧
  ((∀ (s : State) (p : Path) (seq : Byte) (at_ : W64) (id : W32), mayIssue s p = true → s.hkRunning = true → s.inRunModes = true →
    leadBad s at_.toNat (propTime s) = false → s.fab.snap = none → ∃ t, exec (.snapshotAt p seq at_ id) s = .next t ∧
      Safety.Answered t seq stOk 0 ∧ t.fab.snap = some { at_ := at_.toNat, id := id, cmd := some (p, seq) } ∧
      Safety.AnswerOnly { s with fab := t.fab } t) ∧
  (∀ (s : State) (x : Snap), Safety.Canonical s → s.fab.snap = some x → x.at_ ≤ s.now → s.inRunModes = true → ∃ t,
    exec .snapshotTake s = .next t ∧ t.fab.snap = none ∧ t.reg (offFab 0x900) = x.id ∧
      t = { s with fab := t.fab, regs := t.regs, cupel := t.cupel }) ∧
  (∀ (s : State) (p : Path) (seq : Byte) (at_ : W64) (tag : W32), mayIssue s p = true → s.hkRunning = true → s.inRunModes = true →
    s.fabricMode = true → granted s .routeEpoch 0 = true → leadBad s at_.toNat (2 * propTime s) = false → s.fab.flip = none →
    drainRecent s = false → idleTag s = tag → (∀ c, c < 16 → c ≠ s.chipId → present_ s c = false) →
    ∃ t, exec (.routeEpoch p seq at_ tag) s = .next t ∧ Safety.Answered t seq stOk 4 ∧ t.fab.prep = none ∧
      t.fab.flip = some { at_ := at_.toNat, cmd := some (p, seq) } ∧ Safety.AnswerOnly { s with fab := t.fab } t) ∧
  (∀ (s : State) (q : Prepare) (x : Active), s.fab.prep = some q → s.mbx.active = some x → q.since + 4 * propTime s ≤ s.clock →
    (∀ st, (st = stBusy ∧ q.drains = true) ∨ (st = stBadArgument ∧ q.drains = false ∧ q.tags = true) ∨
        (st = stTimeout ∧ q.drains = false ∧ q.tags = false ∧ q.waiting ≠ 0) → ∃ t,
      exec .routeEpochPrepareTimeout s = .next t ∧ Safety.Answered t x.seq st 4 ∧ t.fab = { s.fab with prep := none } ∧
      Safety.AnswerOnly { s with fab := t.fab } t)) ∧
  (∀ (s : State) (f : Flip), s.fab.flip = some f → f.at_ ≤ s.now → s.inRunModes = true → ∃ t, exec .epochFlip s = .next t ∧
    t.fab.epoch = (!s.fab.epoch) ∧ t.fab.flip = none ∧ t.fab.flippedAt = some s.clock ∧
    (∀ c ∈ otherChips s, present_ s c = true → tfind t.fab.drains c = some { since := s.clock }) ∧ t.cfg = s.cfg ∧ t.descs = s.descs ∧
    t.staging = s.staging))


/-! Security: unlocking, Maintenance and Factory, eviction, group members, injection. -/

/-- The unlock commands (R391 to R395): the right password gives level 1, a right answer to the outstanding challenge its level; a wrong one
is AUTH_FAIL, counted, with a hold from the third on and a lockout at FAIL_MAX; during either all are DENIED; a challenge is used once.
Model's choices in it: log entries 9, 15, 25, 33, 34, 97. -/
def Obligations.UnlockLevelsNeedTheirProof : Prop :=
  (∀ (s : State) (p : Path) (seq : Byte) (pw : List Byte), mayIssue s p = true → s.hkRunning = true → (s.inRunModes = true ∨ s.mode = .safe) →
    8 ≤ pw.length → pw.length ≤ 64 → s.sec.level = 0 → (lockRec s).passwordEn = true → unlockHeld s = false →
    (sha384 ((lockRec s).salt ++ pw) = (lockRec s).pwHash → ∃ t, exec (.passwordUnlock p seq pw) s = .next t ∧ Safety.Answered t seq stOk 4 ∧
      t.sec = { s.sec with fails := 0, level := 1 } ∧ t = { Safety.afterAnswer s t with sec := t.sec }) ∧
    (sha384 ((lockRec s).salt ++ pw) ≠ (lockRec s).pwHash → ∃ t, exec (.passwordUnlock p seq pw) s = .next t ∧
      Safety.Answered t seq stAuthFail 0 ∧
      t.sec = { s.sec with fails := s.sec.fails + 1, lockout := decide ((lockRec s).failMax ≤ s.sec.fails + 1),
                           holdUntil := if 3 ≤ s.sec.fails + 1 then some (s.clock + 1000000000 * (lockRec s).failHoldS) else s.sec.holdUntil } ∧
      t = { Safety.afterAnswer s t with sec := t.sec, cupel := t.cupel })) ∧
  (∀ (s : State) (p : Path) (seq : Byte) (pw : List Byte), mayIssue s p = true → (s.inRunModes = true ∨ s.mode = .safe) →
    8 ≤ pw.length → pw.length ≤ 64 → unlockHeld s = true → ∃ t, exec (.passwordUnlock p seq pw) s = .next t ∧
      Safety.Answered t seq stDenied 0 ∧ Safety.AnswerOnly s t) ∧
  (∀ (s : State) (p : Path) (seq l : Byte), mayIssue s p = true → s.hkRunning = true → s.sec.level < l.toNat → unlockHeld s = false →
    ((l = 2 ∧ (s.inRunModes = true ∨ s.mode = .safe ∨ s.mode = .maintenance) ∧ ((lockRec s).bilinoEn = true ∨ fieldReturn s = true)) ∨
      (l = 3 ∧ s.mode = .maintenance)) →
    ∃ t, exec (.unlockChallenge p seq l) s = .next t ∧ Safety.Answered t seq stOk 80 ∧
      t.sec = { s.sec with nonces := s.sec.nonces + 1, challenge := some (Challenge.mk l.toNat (challengeKey s l.toNat)
        (Config.nonce s.sec.nonces) (challengeBlock s l.toNat (challengeKey s l.toNat) (Config.nonce s.sec.nonces)) s.clock) } ∧
      t = { Safety.afterAnswer s t with sec := t.sec }) ∧
  (∀ (s : State) (p : Path) (seq : Byte) (n : BitVec 256) (sig : Sig) (c : Challenge), mayIssue s p = true → s.hkRunning = true →
    (s.inRunModes = true ∨ s.mode = .safe ∨ s.mode = .maintenance) → s.sec.challenge = some c → unlockHeld s = false →
    s.clock ≤ c.issued + 1000000000 * (lockRec s).challengeLifeS →
    (responseRight s c n sig = true → ∃ t, exec (.unlockResponse p seq n sig) s = .next t ∧ Safety.Answered t seq stOk 4 ∧
      t.sec = { s.sec with fails := 0, level := max s.sec.level c.level, challenge := none } ∧
      t = { Safety.afterAnswer s t with sec := t.sec }) ∧
    (responseRight s c n sig = false → ∃ t, exec (.unlockResponse p seq n sig) s = .next t ∧ Safety.Answered t seq stAuthFail 0 ∧
      t.sec.challenge = none ∧ t.sec.level = s.sec.level ∧ t.sec.fails = s.sec.fails + 1 ∧
      t = { Safety.afterAnswer s t with sec := t.sec, cupel := t.cupel })) ∧
  (∀ (s : State) (p : Path) (seq : Byte) (n : BitVec 256) (sig : Sig), mayIssue s p = true →
    (s.inRunModes = true ∨ s.mode = .safe ∨ s.mode = .maintenance) → s.sec.challenge = none → ∃ t,
      exec (.unlockResponse p seq n sig) s = .next t ∧ Safety.Answered t seq stStateConflict 0 ∧
      t = { Safety.afterAnswer s t with cupel := t.cupel }) ∧
  (∀ (s : State) (x : Nat), s.sec.holdUntil = some x →
    exec .unlockHoldEnd s = .next (if s.clock < x then s else { s with sec := { s.sec with holdUntil := none } }))

/-- ENTER_MAINT (R396 to R398): TARGET 0 at level 2 enters Maintenance, with every tenant evicted and pending timed actions gone; the buffer
and the pool are scrubbed, and only then does TARGET 1 at level 3 enter Factory. RESUME in Safe, with WARM_RESUME set and no S4 entry
unacknowledged or active, leads to Run, or to Degraded if a block is unusable (R74). Model's choices in it: log entries 25, 36, 97. -/
def Obligations.MaintenanceFactoryAndResume : Prop :=
  ((∀ (s : State) (p : Path) (seq : Byte), mayIssue s p = true → s.hkRunning = true → s.inRunModes = true → 2 ≤ s.sec.level →
    ∃ t, exec (.enterMaintTarget0 p seq) s = .next t ∧ Safety.Answered t seq stOk 0 ∧ t.mode = .maintenance ∧ t.modeCause = 9 ∧
      t.alive = false ∧ t.faultN = true ∧ t.sec.scrubbing = true ∧ t.sec.scrubDone = false ∧ t.fab.flip = none ∧ t.fab.snap = none ∧
      (∀ e ∈ s.cfg.tenants, (tfind t.evict e.1).isSome = true) ∧ t.keys = s.keys ∧ t.cfg = s.cfg ∧ t.poolMem = s.poolMem) ∧
  (∀ (s : State) (p : Path) (seq : Byte), mayIssue s p = true → s.inRunModes = true → s.sec.level < 2 →
    ∃ t, exec (.enterMaintTarget0 p seq) s = .next t ∧ Safety.Answered t seq stDenied 0 ∧
      Safety.AnswerOnly s t) ∧
  (∀ s : State, s.sec.scrubbing = true → s.sec.bufScrubbed = false → allEvicted s = true → ∃ t, exec .maintBufferScrub s = .next t ∧
    t.sec.bufScrubbed = true ∧ t.staging = [] ∧ t.descs = [] ∧ t.used = [] ∧ t.usedTo = [] ∧ t.tracker = [] ∧ t.ideQ = [] ∧
    t.mode = s.mode ∧ t.keys = s.keys ∧ t.cfg = s.cfg ∧ t.poolMem = s.poolMem ∧ t.lots = s.lots) ∧
  (∀ s : State, s.sec.scrubbing = true → s.sec.bufScrubbed = true → ∃ t, exec .scrubDone s = .next t ∧ t.poolMem = [] ∧ t.poison = [] ∧
    t.sec.scrubbing = false ∧ t.sec.scrubDone = true ∧ (∀ l, (t.lot l).owner = (s.lot l).owner) ∧ (∀ g, (t.group g).parked = []) ∧
    t = { s with groups := t.groups, poolMem := t.poolMem, poison := t.poison, lots := t.lots, sec := t.sec }) ∧
  (∀ (s : State) (p : Path) (seq : Byte), mayIssue s p = true → s.hkRunning = true → s.mode = .maintenance → 3 ≤ s.sec.level →
    (s.sec.scrubDone = true → ∃ t, exec (.enterMaintTarget1 p seq) s = .next t ∧ Safety.Answered t seq stOk 0 ∧ t.mode = .factory ∧
      t.modeCause = 9 ∧ t.alive = false ∧ t.faultN = true ∧
      Safety.AnswerOnly { s with mode := t.mode, modeCause := t.modeCause, alive := t.alive, faultN := t.faultN } t) ∧
    (s.sec.scrubDone = false → ∃ t, exec (.enterMaintTarget1 p seq) s = .next t ∧ Safety.Answered t seq stBusy 0 ∧
      Safety.AnswerOnly s t))) ∧
  ((∀ (s : State) (p : Path) (seq : Byte), mayIssue s p = true → s.hkRunning = true → s.mode = .safe → warmResume s = true →
    s4Holds s = false → ∃ t, exec (.resume p seq) s = .next t ∧ Safety.Answered t seq stOk 0 ∧ t.modeCause = 7 ∧
      (degradedMask s = 0 → t.mode = .run) ∧ (degradedMask s ≠ 0 → t.mode = .degraded) ∧ t.faultN = s.cupel.checkBad ∧
      (∀ n r, tfind s.cfg.slots n = some r → (t.slot n).rearm = true ∧ (t.slot n).st = (s.slot n).st) ∧
      Safety.AnswerOnly { s with mode := t.mode, modeCause := t.modeCause, fab := t.fab, slots := t.slots, alive := t.alive, faultN := t.faultN } t) ∧
  (∀ (s : State) (p : Path) (seq : Byte), mayIssue s p = true → s.mode = .safe → warmResume s = true → s4Holds s = true → ∃ t,
    exec (.resume p seq) s = .next t ∧ Safety.Answered t seq stStateConflict 0 ∧
      t = { Safety.afterAnswer s t with cupel := t.cupel }) ∧
  (∀ (s : State) (p : Path) (seq : Byte), mayIssue s p = true → s.mode = .safe → warmResume s = false → ∃ t,
    exec (.resume p seq) s = .next t ∧ Safety.Answered t seq stDenied 0 ∧ Safety.AnswerOnly s t))

/-- EVICT_TENANT (R203, R204): under its grant every TLP of the tenant that has not started transmission is removed, and the command stays
open until no cell or descriptor is left, which reads EVICTED, or for 10 ms, which gives TIMEOUT. Model's choices in it: log entries 25, 36.
-/
def Obligations.EvictionRemovesOneTenant : Prop :=
  (∀ (s : State) (p : Path) (seq t0 : Byte), mayIssue s p = true → s.hkRunning = true → s.inRunModes = true →
    (s.tenantRec t0.toNat).isSome = true → granted s .tenantEvict t0.toNat = true →
    (tfind s.evict t0.toNat = none → ∃ t, exec (.evictTenant p seq t0) s = .next t ∧ t.mbx.busy = true ∧
      (∃ a, activeCmd t 0x0E = some a ∧ a.arg = t0.toNat ∧ a.since = s.clock ∧ a.seq = seq) ∧ tfind t.evict t0.toNat = some 2 ∧
      (∀ x, x ∈ t.staging ↔ x ∈ s.staging ∧ x.owner ≠ t0.toNat) ∧
      (∀ d ∈ t.descs, d ∈ s.descs ∧ (d.owner = t0.toNat → notStarted s d = false)) ∧
      t.mode = s.mode ∧ t.keys = s.keys ∧ t.cfg = s.cfg ∧ t.lots = s.lots ∧ t.poolMem = s.poolMem) ∧
    (tfind s.evict t0.toNat = some 3 → ∃ t, exec (.evictTenant p seq t0) s = .next t ∧ Safety.Answered t seq stOk 8 ∧
      Safety.AnswerOnly s t) ∧
    (tfind s.evict t0.toNat = some 2 → ∃ t, exec (.evictTenant p seq t0) s = .next t ∧ Safety.Answered t seq stBusy 0 ∧
      Safety.AnswerOnly s t)) ∧
  (∀ (s : State) (t0 : TenantId) (a : Active), tfind s.evict t0 = some 2 → activeCmd s 0x0E = some a → a.arg = t0.val →
    (evictDone s t0 = true → ∃ t, exec (.evictComplete t0) s = .next t ∧ tfind t.evict t0 = some 3 ∧ Safety.Answered t a.seq stOk 8 ∧
      t = { Safety.afterAnswer s t with evict := t.evict, cupel := t.cupel }) ∧
    (evictDone s t0 = false → exec (.evictComplete t0) s = .next s)) ∧
  (∀ (s : State) (a : Active), activeCmd s 0x0E = some a →
    (a.since + 10000000 ≤ s.clock → evictDone s a.arg = false → ∃ t, exec .evictTimeout s = .next t ∧ Safety.Answered t a.seq stTimeout 8 ∧
      Safety.AnswerOnly s t) ∧
    ((s.clock < a.since + 10000000 ∨ evictDone s a.arg = true) → exec .evictTimeout s = .next s))

/-- A group's members change one at a time and only under MCAST_MEMBER, by GROUP_ADMIN or by a host's write of MC_Receive; READ needs no
grant and changes nothing (R145, R157). Model's choices in it: log entries 25, 27. -/
def Obligations.GroupMembersChangeOnlyUnderAGrant : Prop :=
  (∀ (s : State) (p : Path) (seq d : Byte) (g : W16) (m : McastRec), mayIssue s p = true → s.hkRunning = true → s.inRunModes = true →
    mcastRec s g.toNat = some m → Safety.Canonical s →
    (tsorted 0 s.mbx.data = true → ∃ t, exec (.groupAdminRead p seq g d) s = .next t ∧ Safety.Answered t seq stOk 24 ∧
      tget 0 t.mbx.data 0 = w32 (s.group g.toNat).members.toNat ∧ tget 0 t.mbx.data 1 = w32 ((s.group g.toNat).members.toNat / 2 ^ 32) ∧
      tget 0 t.mbx.data 4 = w32 (s.group g.toNat).fallback.toNat ∧ Safety.AnswerOnly s t) ∧
    (granted s .mcastMember g.toNat = true → d.toNat < m.dests.length →
      (∃ t, exec (.groupAdminAdd p seq g d) s = .next t ∧ Safety.Answered t seq stOk 24 ∧
        t.group g.toNat = { s.group g.toNat with members := (s.group g.toNat).members ||| w64 (2 ^ d.toNat) } ∧
        (∀ h, h ≠ g.toNat → t.group h = s.group h) ∧ Safety.AnswerOnly { s with groups := t.groups } t) ∧
      (∃ t, exec (.groupAdminRemove p seq g d) s = .next t ∧ Safety.Answered t seq stOk 24 ∧
        t.group g.toNat = { s.group g.toNat with members := (s.group g.toNat).members &&& ~~~ w64 (2 ^ d.toNat) } ∧
        (∀ h, h ≠ g.toNat → t.group h = s.group h) ∧ Safety.AnswerOnly { s with groups := t.groups } t)) ∧
    (granted s .mcastMember g.toNat = false → d.toNat < m.dests.length → ∃ t, exec (.groupAdminAdd p seq g d) s = .next t ∧
      Safety.Answered t seq stDenied 0 ∧ Safety.AnswerOnly s t)) ∧
  (∀ (s : State) (c : ChipId) (q : PortId) (bits : W64) (vn : Nat), vhNumOf s { port := q, chip := c } = some vn → cfgWrites s = true →
    tsorted 0 s.cfg.mcasts = true →
    Safety.Canonical s → ∃ t, exec (.mcReceiveWrite ⟨c, q⟩ bits) s = .next t ∧
      (∀ g m k, tfind s.cfg.mcasts g = some m → m.vh = vn → m.vhIndex < 64 → m.dests.idxOf? { port := q, chip := c } = some k → k < 64 →
        (granted s .mcastMember g = true → (t.group g).members.getLsbD k = bits.getLsbD m.vhIndex ∧
          ∀ j, j ≠ k → (t.group g).members.getLsbD j = (s.group g).members.getLsbD j) ∧
        (granted s .mcastMember g = false → t.group g = s.group g)) ∧
      t = { s with groups := t.groups })

/-- INJECT is legal only in Factory, and elsewhere STATE_CONFLICT; there it forces a rail state for its duration, breaks the die-to-die
link, or raises a message that is filed like a real one (R335). Model's choices in it: log entries 25, 32, 97. -/
def Obligations.InjectionNeedsFactory : Prop :=
  (∀ (s : State) (p : Path) (seq b : Byte) (us : W16), mayIssue s p = true → s.hkRunning = true → s.mode = .factory → b.toNat ≤ 13 → us ≠ 0 →
    (∃ t, exec (.injectRailAlarm p seq b us) s = .next t ∧ Safety.Answered t seq stOk 4 ∧ tget .healthy t.cupel.rails b.toNat = .alarm ∧
      tget 0 t.cupel.injectUntil b.toNat = s.clock + 1000 * us.toNat ∧ t.mode = s.mode ∧ t.keys = s.keys ∧ t.cfg = s.cfg) ∧
    (∃ t, exec (.injectRailEqual p seq b us) s = .next t ∧ Safety.Answered t seq stOk 4 ∧ tget .healthy t.cupel.rails b.toNat = .equal ∧
      tget 0 t.cupel.injectUntil b.toNat = s.clock + 1000 * us.toNat ∧ t.mode = s.mode ∧ t.keys = s.keys ∧ t.cfg = s.cfg)) ∧
  (∀ (s : State) (p : Path) (seq : Byte) (us : W16), mayIssue s p = true → s.hkRunning = true → s.mode = .factory → us ≠ 0 →
    ∃ t, exec (.injectD2dBreak p seq us) s = .next t ∧ Safety.Answered t seq stOk 4 ∧ t.d2d = { s.d2d with broken := true } ∧
      Safety.AnswerOnly { s with d2d := t.d2d } t) ∧
  (∀ (s : State) (p : Path) (seq : Byte) (m : Msg), mayIssue s p = true → s.hkRunning = true → s.mode = .factory → m.wf = true →
    m.parityOk = true → (kindOf m.kind).isSome = true → 0 < (kindInForce (reactEntries s) m.kind).1 → findClass s (classOf m) = none →
    s.cupel.table.length < 992 → ∃ t i e, exec (.injectMessage p seq m) s = .next t ∧ Safety.Answered t seq stOk 4 ∧
      tfind t.cupel.table i = some e ∧ e.cls = classOf m ∧ e.acked = false ∧ e.count = 1 ∧ t.mode = s.mode ∧ t.keys = s.keys ∧ t.cfg = s.cfg) ∧
  (∀ (s : State) (p : Path) (seq b : Byte) (us : W16), mayIssue s p = true → s.mode ≠ .factory → b.toNat ≤ 13 → us ≠ 0 → ∃ t,
    exec (.injectRailAlarm p seq b us) s = .next t ∧ Safety.Answered t seq stStateConflict 0 ∧
      t = { Safety.afterAnswer s t with cupel := t.cupel })


/-! Registers, the I3C target, the debug master and the SPDM responder. -/

/-- A register write changes the enabled bytes of RW fields, clears the W1C fields where it writes 1, and leaves RO registers and every
other register alone (Table 0.4, R406); a closed window takes nothing, and MBX_DATA only its holder's writes. In Safe a bridge takes writes
of its AER status alone (R331), and a downstream port's Link Control only through the VH that the port names (R98). TIM_NOWLO latches the
rest of the counter (R194). Model's choices in it: log entries 72, 73. -/
def Obligations.RegisterWritesFollowTheirAccessTypes : Prop :=
  (∀ (s : State) (p : Path) (off : Nat) (be : BitVec 4) (v : W32), Safety.Canonical s → windowOpen s p off = true → off % 4 = 0 →
    off < 0x1000000 → (off < 0x20000 ∨ 0x30000 ≤ off) → off ≠ offFab 0x20 → ∃ t, exec (.registerWrite (.bar0 p off) be v) s = .next t ∧
      (w1cMask off ≠ 0 → t.reg off = w1cWrite (s.reg off) (v &&& w32 (w1cMask off)) be) ∧
      (w1cMask off = 0 → rwMask s off ≠ 0 → t.reg off = rwWrite (s.reg off) v be &&& w32 (rwMask s off)) ∧
      (w1cMask off = 0 → rwMask s off = 0 → t = s) ∧ (∀ x, x ≠ off → t.reg x = s.reg x) ∧ t = { s with regs := t.regs, cupel := t.cupel }) ∧
  (∀ (s : State) (p : Path) (off : Nat) (be : BitVec 4) (v : W32), windowOpen s p off = false →
    exec (.registerWrite (.bar0 p off) be v) s = .next s) ∧
  (∀ (s : State) (p : Path) (i : Nat) (be : BitVec 4) (v : W32), pathOpen s p = true → i < 256 →
    (s.mbx.owner ≠ some p → exec (.registerWrite (.bar0 p (0x20400 + 4 * i)) be v) s = .next s) ∧
    (s.mbx.owner = some p → s.mbx.busy = false → tsorted 0 s.mbx.data = true → ∃ t,
      exec (.registerWrite (.bar0 p (0x20400 + 4 * i)) be v) s = .next t ∧ tget 0 t.mbx.data i = rwWrite (tget 0 s.mbx.data i) v be ∧
        (∀ j, j ≠ i → tget 0 t.mbx.data j = tget 0 s.mbx.data j) ∧ t.mbx = { s.mbx with data := t.mbx.data, lastUse := s.clock } ∧
        t = { s with mbx := t.mbx })) ∧
  (∀ (s : State) (c : ChipId) (q : PortId) (r : Nat) (be : BitVec 4) (v : W32), Safety.Canonical s → bridgeReg s { port := q, chip := c } r = true →
    (cfgWrites s = true ∨ (s.mode = .safe ∧ (r = 0x2004 ∨ r = 0x2010))) → r ≠ 0x4004 → r ≠ 0x4008 → r ≠ 0x400C →
    (r = 0x1010 → linkCtlOpen s { port := q, chip := c } = true) → ∃ t, exec (.registerWrite (.bridge c q r) be v) s = .next t ∧
      t.bridge (bridgeKey s { port := q, chip := c }) = writeBridge (s.bridge (bridgeKey s { port := q, chip := c })) r be v ∧
      (∀ k, k ≠ bridgeKey s { port := q, chip := c } → t.bridge k = s.bridge k) ∧ t = { s with bridges := t.bridges }) ∧
  (∀ (s : State) (c : ChipId) (q : PortId) (r : Nat) (be : BitVec 4) (v : W32),
    (s.mode = .safe ∧ r ≠ 0x2004 ∧ r ≠ 0x2010) ∨ (r = 0x1010 ∧ linkCtlOpen s { port := q, chip := c } = false) ∨
      bridgeReg s { port := q, chip := c } r = false → exec (.registerWrite (.bridge c q r) be v) s = .next s) ∧
  (∀ (s : State) (c : ChipId) (q : PortId) (r : Nat) (be : BitVec 4) (v : W32) (vn : Nat), cfgWrites s = true →
    bridgeReg s { port := q, chip := c } r = true → (r = 0x4004 ∨ r = 0x4008 ∨ r = 0x400C) → vhNumOf s { port := q, chip := c } = some vn → ∃ t,
      exec (.registerWrite (.bridge c q r) be v) s = .next t ∧ (∀ x, x ≠ vn → t.vh x = s.vh x) ∧ t = { s with vhs := t.vhs }) ∧
  (∀ (s : State) (vn : Fin 128) (r : Nat) (be : BitVec 4) (v : W32), (s.vhRec vn).isSome = true → cfgWrites s = true → ∃ t,
    exec (.registerWrite (.vh vn r) be v) s = .next t ∧ (∀ x, x ≠ vn.val → t.vh x = s.vh x) ∧ t = { s with vhs := t.vhs, vfs := t.vfs }) ∧
  (∀ (s : State) (x : TenantId) (off : Nat) (be : BitVec 4) (v : W32), vfOpenTo s x = true → off % 4 = 0 → ∃ t,
    exec (.registerWrite (.vf x off) be v) s = .next t ∧ (∀ y, y ≠ x.val → t.vf y = s.vf y) ∧
      t = { s with vfs := t.vfs, staging := t.staging, nextId := t.nextId }) ∧
  (∀ (s : State) (p : Path), pathOpen s p = true → s.mode ≠ .load → s.mode ≠ .assay → ∃ t, exec (.timNowloRead p) s = .next t ∧
    t.out = .regRead p (w32 s.now) :: s.out ∧ t.time = { s.time with nowHi := w32 (s.now / 2 ^ 32), nowFrac := t.time.nowFrac } ∧
    t = { s with time := t.time, out := t.out })

/-- The I3C target (R411 to R414): a write that R405 allows acts as the same register write, one that it does not is discarded and noted for
the next status; a read answers its set-up once, with the status of Table 15.4; in Reset nothing is answered. Model's choices in it: log
entry 72. -/
def Obligations.I3cTargetFollowsItsWindow : Prop :=
  (∀ (s : State) (off : Nat) (b : List Byte), s.mode ≠ .reset → off < 0x1000000 → b.length % 4 = 0 →
    accessOk off (b.length / 4) = true → windowOpen s .i3c off = true → ∃ t, exec (.i3cWrite off b) s = .next t ∧
      t = writeRegs s .i3c off (fun _ => 15) 0 (wordsFrom (b.length / 4) b) ∧
      (b.length = 4 → exec (.registerWrite (.bar0 .i3c off) 15 (w32 (leNat b))) s = .next t) ∧
      (b.length = 4 → Safety.Canonical s → w1cMask off = 0 → rwMask s off ≠ 0 → t.reg off = w32 (leNat b) &&& w32 (rwMask s off) ∧
        (∀ x, x ≠ off → t.reg x = s.reg x) ∧ t = { s with regs := t.regs, cupel := t.cupel })) ∧
  (∀ (s : State) (off : Nat) (b : List Byte), s.mode ≠ .reset → off < 0x1000000 → b.length % 4 = 0 →
    (accessOk off (b.length / 4) = false ∨ windowOpen s .i3c off = false) →
    exec (.i3cWrite off b) s = .next { s with i3c := { s.i3c with rejected := true } }) ∧
  (∀ (s : State) (off n : Nat), s.mode ≠ .reset → off < 0x1000000 → n < 256 →
    exec (.i3cReadSetup off n) s = .next { s with i3c := { s.i3c with setup := some (off, n) } }) ∧
  (∀ s : State, s.mode ≠ .reset → ∃ t st l, exec .i3cPrivateRead s = .next t ∧ t.i3c = { s.i3c with setup := none, rejected := false } ∧
    t.out = .i3cRead (BitVec.ofNat 8 ((if s.i3c.rejected then 128 else 0) + st)) l :: s.out ∧
    (s.i3c.setup = none → st = 3 ∧ l = []) ∧
    (∀ off n, s.i3c.setup = some (off, n) →
      (accessOk off n = false → st = 1 ∧ l = []) ∧ (accessOk off n = true → windowOpen s .i3c off = false → st = 2 ∧ l = []) ∧
      (accessOk off n = true → windowOpen s .i3c off = true → st = 0 ∧ l.length = n)) ∧
    t.mode = s.mode ∧ t.keys = s.keys ∧ t.cfg = s.cfg) ∧
  (∀ (s : State) (a : BitVec 7), s.mode ≠ .reset → exec (.i3cAddressAssign a) s = .next { s with i3c := { s.i3c with dynamic := some a.toNat } }) ∧
  (∀ (s : State) (off n : Nat) (b : List Byte) (a : BitVec 7), s.mode = .reset → exec (.i3cWrite off b) s = .next s ∧
    exec (.i3cReadSetup off n) s = .next s ∧ exec .i3cPrivateRead s = .next s ∧ exec (.i3cAddressAssign a) s = .next s)

/-- Debug (R386, R388, R399, R400): before the scrub the pool's gates refuse the debug master, which is counted; after it the master reads
and writes; keys are provisioned into empty slots only, and Field-Return, from Locked in Factory, revokes all four. Model's choices in it:
log entries 4, 17, 18, 74. -/
def Obligations.DebugReachesThePoolOnlyAfterTheScrub : Prop :=
  (∀ (s : State) (v : DebugVia) (w : Bool) (a n : Nat) (d : List Byte), s.mode ≠ .reset → debugInterface s v = true → 1 ≤ n → n ≤ 64 →
    debugOpen s = false → (s.reg (offGat 0x20800)).toNat < 64 → ∃ t, exec (.debugMasterAccess v 0 w a n d) s = .next t ∧
      t.reg (offSec 0x18) = w32 (sat32 (s.reg (offSec 0x18)).toNat 1) ∧
      (w = false → t.out = .debugRead true (List.replicate n 0xFF) :: s.out) ∧ (w = true → t.out = s.out) ∧
      t = { s with regs := t.regs, gateMs := t.gateMs, cupel := t.cupel, out := t.out }) ∧
  (∀ (s : State) (v : DebugVia) (a n : Nat) (d : List Byte), Memory.wf s.hkMem = true → s.mode ≠ .reset → debugInterface s v = true → 1 ≤ n →
    n ≤ 64 → debugOpen s = true → a + n ≤ 0x200000 → d.length = n →
    exec (.debugMasterAccess v 3 false a n d) s = .next { s with out := .debugRead false (memRead s.hkMem a n) :: s.out } ∧
    ∃ t, exec (.debugMasterAccess v 3 true a n d) s = .next t ∧ memRead t.hkMem a n = d ∧
      (∀ x, (x < a ∨ a + n ≤ x) → tget 0 t.hkMem x = tget 0 s.hkMem x) ∧ t = { s with hkMem := t.hkMem }) ∧
  (∀ (s : State) (v : DebugVia) (g : Fin 4) (w : Bool) (a n : Nat) (d : List Byte), debugInterface s v = false →
    exec (.debugMasterAccess v g w a n d) s = .next s) ∧
  (∀ (s : State) (i : Fin 4) (k : Nat), s.pwrgd = true → s.sec.lifeAtReset ≤ 1 → s.keys.lifecycle ≤ 1 →
    ((tget {} s.keys.owner i).st = 0 → ∃ t, exec (.jtagKeyProvision i k) s = .next t ∧ tget {} t.keys.owner i = { st := 1, key := k } ∧
      (∀ j, j ≠ i.val → tget {} t.keys.owner j = tget {} s.keys.owner j) ∧
      t = { s with keys := { s.keys with owner := t.keys.owner, lifecycle := 1 } }) ∧
    ((tget {} s.keys.owner i).st ≠ 0 → exec (.jtagKeyProvision i k) s = .next s)) ∧
  (∀ (s : State) (i : Fin 4) (k : Nat), 2 ≤ s.keys.lifecycle → exec (.jtagKeyProvision i k) s = .next s) ∧
  (∀ s : State, (s.mode = .factory → s.keys.lifecycle = 2 → ∃ t, exec .jtagFieldReturn s = .next t ∧ t.keys.lifecycle = 3 ∧
      (∀ i : Fin 4, (tget {} t.keys.owner i).st = 2) ∧ t = { s with keys := { s.keys with owner := t.keys.owner, lifecycle := 3 } }) ∧
    ((s.mode ≠ .factory ∨ s.keys.lifecycle ≠ 2) → exec .jtagFieldReturn s = .next s)) ∧
  (∀ (s : State) (q : PortId) (r : SpdmReq), s.hkRunning = true → answersCfg s q = true →
    exec (.spdmRequest q r) s = .next { s with out := .spdm q (spdmAnswer s r).1 (spdmAnswer s r).2 :: s.out }) ∧
  (∀ (s : State) (q : PortId) (r : SpdmReq), s.hkRunning = false → exec (.spdmRequest q r) s = .next s)

/-! Fabric mode and time. -/

/-- Global operations (R279, R280): a barrier is entered, and completes when every present chip has entered it; a broadcast is delivered
here too; CANCEL withdraws the entry; a fabric reset needs CONFIRM 0xA5 and starts 1 µs later; GO is ignored while BUSY is 1. A GOP message
goes on over the tree and acts here. Model's choices in it: log entries 65, 72, 73. -/
def Obligations.GlobalOperationsRunOverTheTree : Prop :=
  (∀ (s : State) (p : Path) (b : Byte), gopOpen s p = true → s.fab.gopBusy = false → s.chipId < 16 →
    ((s.fab.present ||| selfBit s) &&& (tget 0 s.fab.barriers b.toNat ||| selfBit s) ≠ s.fab.present ||| selfBit s →
      ∃ t, exec (.fabGopBarrier p b) s = .next t ∧ t.fab.gopBusy = true ∧ t.fab.entered = some b.toNat ∧
        tget 0 t.fab.barriers b.toNat = tget 0 s.fab.barriers b.toNat ||| selfBit s ∧
        t = { s with fab := t.fab, regs := t.regs, out := t.out }) ∧
    ((s.fab.present ||| selfBit s) &&& (tget 0 s.fab.barriers b.toNat ||| selfBit s) = s.fab.present ||| selfBit s →
      ∃ t, exec (.fabGopBarrier p b) s = .next t ∧ t.fab.gopBusy = false ∧ t.fab.entered = none ∧ w32Bit (t.reg (offFab 0x24)) 1 = true ∧
        w32Bit (t.reg (offFab 0x08)) 11 = true ∧ t = { s with fab := t.fab, regs := t.regs, cupel := t.cupel, out := t.out })) ∧
  (∀ (s : State) (p : Path), Safety.Canonical s → gopOpen s p = true → s.fab.gopBusy = false → ∃ t, exec (.fabGopBroadcast p) s = .next t ∧
    t.reg (offFab 0x30) = s.reg (offFab 0x28) ∧ t.reg (offFab 0x34) = s.reg (offFab 0x2C) ∧ t.reg (offFab 0x38) = w32 (2 ^ 31 + s.chipId) ∧
    w32Bit (t.reg (offFab 0x08)) 0 = true ∧ t = { s with regs := t.regs, cupel := t.cupel, out := t.out }) ∧
  (∀ (s : State) (p : Path) (id : Nat), gopOpen s p = true → s.fab.entered = some id → tsorted 0 s.fab.barriers = true → ∃ t,
    exec (.fabGopCancel p) s = .next t ∧ t.fab.entered = none ∧ t.fab.gopBusy = false ∧
      tget 0 t.fab.barriers id = tget 0 s.fab.barriers id &&& ~~~ BitVec.ofNat 16 (2 ^ s.chipId) ∧
      t = { s with fab := t.fab, regs := t.regs, out := t.out }) ∧
  (∀ (s : State) (p : Path) (c : Byte), gopOpen s p = true → s.fab.gopBusy = false → s.mode ≠ .factory → ∃ t,
    exec (.fabGopFabricReset p c) s = .next t ∧
      (c = 0xA5 → t.fab = { s.fab with resetAt := some (s.fab.resetAt.getD (s.clock + 1000)) } ∧
        ∀ q ∈ treePorts s, q ≠ 0xFF → .gop q .fabricReset ∈ t.out) ∧
      (c ≠ 0xA5 → t.fab = s.fab ∧ t.out = s.out) ∧ t = { s with fab := t.fab, regs := t.regs, out := t.out }) ∧
  (∀ (s : State) (p : Path) (b : Byte), gopOpen s p = true → s.fab.gopBusy = true → ∃ t, exec (.fabGopBarrier p b) s = .next t ∧
    t = { s with regs := t.regs }) ∧
  (∀ (s : State) (q : PortId) (d : TreeDir) (b : GopBody), s.fabricMode = true → linkAccepted s q = true → s.mode ≠ .factory → ∃ t,
    exec (.gop q d b) s = .next t ∧ (∀ x ∈ treePorts s, x ≠ q.val → .gop x b ∈ t.out) ∧
      (∀ a, b = .commit a → s.inRunModes = true → t.fab.flip = some { at_ := a.toNat }) ∧
      (∀ a i, b = .snapshot a i → s.inRunModes = true → t.fab.snap = some { at_ := a.toNat, id := i }) ∧
      (b = .fabricReset → t.fab.resetAt = some (s.fab.resetAt.getD (s.clock + 1000))) ∧
      t = { Safety.afterAnswer s t with fab := t.fab, cupel := t.cupel })

/-- Fabric links (R254 to R258, R261, R262, R265): a HELLO that disagrees refuses its link, one that agrees makes it ACTIVE in the cold
start and QUIESCED later; a clash of Chip IDs is retried after a second; a lost ACTIVE link degrades the chip; a hold flit changes nothing.
Model's choices in it: log entries 34, 65. -/
def Obligations.FabricLinksFollowHello : Prop :=
  (∀ (s : State) (q : PortId) (b : HelloBody), s.isFabric q = true → (s.port q).link.dlUp = true → s.fabricMode = true →
    (helloCause s q b ≠ 0 → ∃ t, exec (.hello q b) s = .next t ∧ (t.fabLink q).st = 4 ∧ (t.fabLink q).cause = helloCause s q b ∧
      t = { s with fab := t.fab, regs := t.regs, cupel := t.cupel }) ∧
    (helloCause s q b = 0 → ∃ t, exec (.hello q b) s = .next t ∧ (t.fabLink q).cause = 0 ∧ (t.fabLink q).peerChip = b.chip ∧
      ((s.fabLink q).st = 3 → (t.fabLink q).st = 3) ∧
      ((s.fabLink q).st ≠ 3 → (t.fabLink q).st = if inJoinWindow s && b.coldStart && s.inRunModes && !(s.fabLink q).wasActive
        && (s.fabLink q).clashAt.isNone && (s.port q).contain.phase == 0 then 3 else 2) ∧ t = { s with fab := t.fab })) ∧
  (∀ (s : State) (q : PortId), s.isFabric q = true → (s.port q).link.dlUp = true → s.fabricMode = true →
    exec (.helloSend q) s = .next { s with out := .hello q (ownHello s q) :: s.out }) ∧
  (∀ (s : State) (x : Nat), s.fab.runSince = some x → s.fab.joinOver = false →
    (x + 1000000 * (fabricRec s).joinWindowMs ≤ s.clock → ∃ t, exec .joinWindowEnd s = .next t ∧ t.fab.joinOver = true ∧
      (∀ p, isPending t p = false) ∧ t.mode = s.mode ∧ t.keys = s.keys ∧ t.cfg = s.cfg) ∧
    (s.clock < x + 1000000 * (fabricRec s).joinWindowMs → exec .joinWindowEnd s = .next s)) ∧
  (∀ (s : State) (q : PortId), Safety.Canonical s → s.isFabric q = true → s.fabricMode = true → (s.port q).link.dlUp = false → ∃ t,
    exec (.chipidClash q) s = .next t ∧ (t.fabLink q).st = 0 ∧ (t.fabLink q).cause = 1 ∧ (t.fabLink q).clashAt = some s.clock ∧
      (t.port q).link.ltssm = .detect ∧ w32Bit (t.reg (offFab 0x08)) 2 = true ∧
      t = { s with fab := t.fab, ports := t.ports, regs := t.regs, cupel := t.cupel }) ∧
  (∀ (s : State) (q : PortId) (x : Nat), (s.fabLink q).clashAt = some x →
    (x + 1000000000 ≤ s.clock → tsorted 0 s.fab.links = true → ∃ t, exec (.chipidClashRetry q) s = .next t ∧ (t.fabLink q).clashAt = none ∧
      t = { s with fab := t.fab, ports := t.ports }) ∧
    (s.clock < x + 1000000000 → exec (.chipidClashRetry q) s = .next s)) ∧
  (∀ (s : State) (q : PortId), Safety.Canonical s → tsorted 0 s.fab.links = true → s.isFabric q = true → (s.port q).link.dlUp = true → ∃ t,
    exec (.fabricLinkDown q) s = .next t ∧ (t.port q).link.dlUp = false ∧ (t.fabLink q).st = 0 ∧
      ((s.fabLink q).st = 3 → t.peerLost = true ∧ (s.mode = .run → t.mode = .degraded ∧ t.modeCause = 4)) ∧
      ((s.fabLink q).st ≠ 3 → t.peerLost = s.peerLost ∧ t.mode = s.mode) ∧ t.keys = s.keys ∧ t.cfg = s.cfg) ∧
  (∀ (s : State) (q : PortId), exec (.hold q) s = .next s)

/-- Presence, epochs and arrivals (R259 to R264, R269, R270, R277): a child's bitmap joins the subtree, the combined one makes chips
present, and a chip absent for PRESENCE_MISS rounds is LOST; a drain ends with an EACK of the whole count or expires; an EACK or a TLP for
another chip goes on with HOPS one lower, one for this chip is counted and delivered, and a late one of the old epoch is dropped. Model's
choices in it: log entries 34, 59, 64, 65, 90. -/
def Obligations.PresenceDrainsAndArrivals : Prop :=
  (∀ (s : State) (q : PortId) (b : BitVec 16), s.fabricMode = true → linkAccepted s q = true →
    ((isRoot s = true ∨ q.val ≠ treeParent s) → ∃ t, exec (.presence q .up b) s = .next t ∧ (t.fabLink q).child = true ∧
      t.fab.subtree = s.fab.subtree ||| b ∧ t = { s with fab := t.fab }) ∧
    (isRoot s = false → q.val = treeParent s → ∃ t, exec (.presence q .down b) s = .next t ∧ t.fab.present = s.fab.present ||| b ∧
      t.fab.lost = s.fab.lost &&& ~~~ b ∧ t.fab.heard = b ∧ (∀ x ∈ childPorts s, .presence x b ∈ t.out) ∧
      t = { s with fab := t.fab, out := t.out })) ∧
  (∀ s : State, s.fabricMode = true → isRoot s = false → linkAccepted s (treeParent s) = true → ∃ t, exec .presenceSend s = .next t ∧
    .presence (treeParent s) (s.fab.subtree ||| selfBit s) ∈ t.out ∧ t.fab.subtree = 0 ∧ t.fab.heard = 0 ∧
    (∀ c ∈ otherChips s, present_ s c = true → s.fab.heard.getLsbD c = false → (fabricRec s).presenceMiss ≤ tget 0 s.fab.miss c + 1 →
      t.fab.lost.getLsbD c = true ∧ present_ t c = false) ∧
    t = { s with fab := t.fab, regs := t.regs, cupel := t.cupel, out := t.out }) ∧
  (∀ (s : State) (q : PortId) (f : Farug) (e : Bool) (n : Nat), s.isFabric q = true → linkAccepted s q = true →
    (∀ d : Drain, f.dstChip = s.chipId → tfind s.fab.drains f.srcChip = some d → e ≠ s.fab.epoch → tsorted 0 s.fab.drains = true →
      ∃ t, exec (.eack ⟨q, f⟩ e n) s = .next t ∧
        (n = tget 0 s.fab.sent (epochKey f.srcChip e) → unsentOf s f.srcChip e = false → tfind t.fab.drains f.srcChip = none) ∧
        (n ≠ tget 0 s.fab.sent (epochKey f.srcChip e) → tfind t.fab.drains f.srcChip = some { d with acked := n }) ∧
        t = { s with fab := t.fab }) ∧
    (f.dstChip ≠ s.chipId → f.hops = 0 → exec (.eack ⟨q, f⟩ e n) s = .next (s.bump (offFab 0x50))) ∧
    (∀ p, f.dstChip ≠ s.chipId → 0 < f.hops → ctlRoute s { f with hops := f.hops - 1 } = some p →
      exec (.eack ⟨q, f⟩ e n) s = .next { s with out := .eack p { f with hops := f.hops - 1 } e n :: s.out })) ∧
  (∀ (s : State) (x : Nat), s.fab.flippedAt = some x → s.clock ≤ x + 1000 * (fabricRec s).epochDrainUs → tsorted 0 s.fab.eacked = true →
    ∃ t, exec .eackSend s = .next t ∧
      (∀ c ∈ otherChips s, tget 0 t.fab.eacked c = tget 0 s.fab.rcvd (epochKey c (!s.fab.epoch)) ∧
        (∀ p, tget 0 s.fab.rcvd (epochKey c (!s.fab.epoch)) ≠ tget 0 s.fab.eacked c → ctlRoute s (eackHdr s c) = some p →
          .eack p (eackHdr s c) (!s.fab.epoch) (tget 0 s.fab.rcvd (epochKey c (!s.fab.epoch))) ∈ t.out)) ∧
            t = { s with fab := t.fab, out := t.out }) ∧
  (∀ (s : State) (c : ChipId) (d : Drain), tfind s.fab.drains c = some d → tsorted 0 s.fab.drains = true →
    (d.since + 1000 * (fabricRec s).epochDrainUs ≤ s.clock → ∃ t, exec (.drainTimeout c) s = .next t ∧ tfind t.fab.drains c = none ∧
      t.fab.lastExpiry = some s.clock ∧ t.reg (offFab 0x44) = w32 (sat32 (s.reg (offFab 0x44)).toNat 1) ∧
      t = { s with fab := t.fab, regs := t.regs, cupel := t.cupel }) ∧
    (s.clock < d.since + 1000 * (fabricRec s).epochDrainUs → exec (.drainTimeout c) s = .next s)) ∧
  (∀ (s : State) (q : PortId) (f : Farug) (x : Tlp), s.isFabric q = true → (s.fabLink q).st = 3 → s.inRunModes = true → (s.port q).contain.phase = 0 →
    overCredit s q x = false →
    (f.dstChip ≠ s.chipId → f.dstChip < 16 → (fabricRec s).chipMask.getLsbD f.dstChip = true →
      (f.hops = 0 → exec (.fabricTlpReceived q f x) s = .next (s.bump (offFab 0x50))) ∧
      (0 < f.hops → fabRoute s { f with hops := f.hops - 1 } ≠ .none → ∃ t y, exec (.fabricTlpReceived q f x) s = .next t ∧
        t.staging = s.staging ++ [y] ∧ y.tlp = x ∧ y.farug = some { f with hops := f.hops - 1 } ∧ y.src = { chip := f.srcChip, port := f.srcPort } ∧
        y.owner = farugOwner f ∧ t = { s with staging := t.staging, nextId := s.nextId + 1, tapCount := t.tapCount, samples := t.samples })) ∧
    (f.dstChip = s.chipId → ∃ t, exec (.fabricTlpReceived q f x) s = .next t ∧
      tget 0 t.fab.rcvd (epochKey f.srcChip f.epoch) = tget 0 s.fab.rcvd (epochKey f.srcChip f.epoch) + 1 ∧ t.keys = s.keys ∧ t.cfg = s.cfg ∧
      (f.stomp = true → t = { s with fab := t.fab }) ∧
      (f.stomp = false → isLateEpoch s f = true → t = { s with fab := t.fab, regs := t.regs, cupel := t.cupel }) ∧
      (f.stomp = false → isLateEpoch s f = false → hasDst s f.dstPort = false → t = { s with fab := t.fab, regs := t.regs, cupel := t.cupel }) ∧
      (f.stomp = false → isLateEpoch s f = false → s.isUp f.dstPort = true → x.kind ≠ .cpl → isErrForward (farugOwner f) x = false →
        f.dstPort < 80 → s.isDown f.dstPort = false → portOpen s f.dstPort = true → (s.port f.dstPort).quarantine = false →
        ∃ y, t.staging = s.staging ++ [y] ∧ y.tlp = x ∧ y.dest = .port f.dstPort ∧ y.owner = farugOwner f ∧
          t = { s with fab := t.fab, staging := t.staging, nextId := s.nextId + 1, tapCount := t.tapCount, samples := t.samples })))

/-- The time base (R183 to R189, R273 to R275): an edge out of its window is only counted; a valid one of small offset adjusts the rate and
one beyond 1 µs steps the counter; 1.5 s without an edge, and 100 µs without SYNC, are holdover; the replicas take the counter every
microsecond, and a pending list whose time has come then switches; PTM answers with the counter. Model's choices in it: log entries 25, 34, 49, 79. -/
def Obligations.TheCounterFollowsItsReference : Prop :=
  (∀ s : State, ppsOn s = true → isFollower s = false → edgeValid s = false → ∃ t, exec .ppsEdge s = .next t ∧
    w32Bit (t.reg (offTim 0x1C)) 0 = true ∧ t = { s with regs := t.regs, cupel := t.cupel }) ∧
  (∀ (s : State) (x o : Int), ppsOn s = true → isFollower s = false → edgeValid s = true → s.time.setAt = none →
    x = s.now - (timeRec s).ppsDelayNs → o = x - nearestSecond x →
    (o.natAbs ≤ 1000 → ∃ t, exec .ppsEdge s = .next t ∧ t.now = s.now ∧ t.time.offset = o ∧ t.time.edgeAt = s.clock ∧ t.time.accept = false ∧
      t.time.lastEdge = some (s.now : Int) ∧ t.time.integ = s.time.integ + o * 65536 / 2 ^ (timeRec s).kiShift ∧ t.time.st ≠ 3 ∧
      t = { s with time := t.time, regs := t.regs, cupel := t.cupel }) ∧
    (1000 < o.natAbs → 0 ≤ (s.now : Int) - o → (s.now : Int) - o < 2 ^ 64 → ∃ t, exec .ppsEdge s = .next t ∧ (t.now : Int) = s.now - o ∧
      t.time.st = 1 ∧ t.time.edgeAt = s.clock ∧ t = { s with time := t.time, ports := t.ports, regs := t.regs, cupel := t.cupel })) ∧
  (∀ (s : State) (sec : W64) (a : Active) (n : Nat), ppsOn s = true → isFollower s = false → edgeValid s = true → s.time.setAt = some sec →
    s.mbx.active = some a → (n : Int) = 1000000000 * sec.toNat + (timeRec s).ppsDelayNs → n < 2 ^ 64 → ∃ t, exec .ppsEdge s = .next t ∧
      t.now = n ∧ t.time.setAt = none ∧ t.time.st = 1 ∧ Safety.Answered t a.seq stOk 8) ∧
  (∀ s : State, ppsOn s = true → isFollower s = false → (s.time.st = 1 ∨ s.time.st = 2) → s.time.edgeAt + 1500000000 ≤ s.clock → ∃ t,
    exec .holdover s = .next t ∧ t.time = { s.time with st := 3, accept := true, good := 0 } ∧
      t = { s with time := t.time, regs := t.regs, cupel := t.cupel }) ∧
  (∀ s : State, s.mode ≠ .reset → Safety.Canonical s → tsorted 0 s.time.replicas = true → ∃ t, exec .replicaSync s = .next t ∧
    (∀ i, i < 11 → tget 0 t.time.replicas i = s.time.ctr.toNat / 2 ^ 16 ∧ replicaOf t i = s.now) ∧
    (∀ p d, p ∈ s.portNums → (s.port p).sched.pend = some d → d.ts ≤ s.now → (t.port p).sched.pend = none ∧
      (t.port p).sched.oper = d.list.map (fun g => { g with base := d.ts })) ∧
    (∀ p, (t.port p).link = (s.port p).link ∧ (t.port p).contain = (s.port p).contain) ∧
    t = { s with time := { s.time with replicas := t.time.replicas }, ports := t.ports, regs := t.regs, cupel := t.cupel }) ∧
  (∀ (s : State) (q : PortId) (tx rx : W64) (o : Int), isFollower s = true → q.val = treeParent s → linkAccepted s q = true →
    o = rx.toNat - (tx.toNat + ((s.fabLink q).delay : Int)) → o.natAbs ≤ 1000 → ∃ t, exec (.sync q tx rx) s = .next t ∧ t.time.offset = o ∧
      t.fab = { s.fab with toffset := o } ∧ t.time.edgeAt = s.clock ∧ t.now = s.now ∧
      t = { s with time := t.time, fab := t.fab, regs := t.regs, cupel := t.cupel }) ∧
  (∀ s : State, s.fabricMode = true → ∃ t, exec .syncSend s = .next t ∧ (∀ q ∈ childPorts s, .sync q (w64 s.now) ∈ t.out) ∧
    t = { s with out := t.out }) ∧
  (∀ s : State, isFollower s = true → linkAccepted s (treeParent s) = true → ∃ t, exec .delayMeasure s = .next t ∧
    (t.fabLink (treeParent s)).t1 = w64 s.now ∧ t.out = .delayReq (treeParent s) (w64 s.now) :: s.out ∧ t = { s with fab := t.fab, out := t.out }) ∧
  (∀ (s : State) (q : PortId), s.fabricMode = true → linkAccepted s q = true →
    (∀ rx, exec (.delayReq q (.req rx)) s = .next { s with out := .delayResp q rx (w64 s.now) :: s.out }) ∧
    (∀ t1 t2 t3 t4, ∃ t, exec (.delayReq q (.resp t1 t2 t3 t4)) s = .next t ∧
      (t.fabLink q).delay = (((t4.toNat - t1.toNat : Int) - (t3.toNat - t2.toNat)) / 2 + asymOf s q).toNat ∧ t = { s with fab := t.fab })) ∧
  (∀ s : State, isFollower s = true → (s.time.st = 1 ∨ s.time.st = 2) → s.time.edgeAt + 100000 ≤ s.clock → ∃ t,
    exec .followerHoldover s = .next t ∧ t.time = { s.time with st := 3, accept := true, good := 0 } ∧
      t = { s with time := t.time, regs := t.regs, cupel := t.cupel }) ∧
  (∀ (s : State) (q : PortId) (rx : W64), (timeRec s).ptmEn = true → s.isFabric q = false → (s.portRec q).isSome = true →
    (s.port q).link.dlUp = true → deaf s q = false → ∃ t, exec (.ptmRequest q rx) s = .next t ∧ t.out = .ptm q rx (w64 s.now) :: s.out ∧
      t = { s with regs := t.regs, out := t.out })

/-- Faults of other chips are passed on over the tree and raised here as REMOTE_S3 or REMOTE_S4 (R285, R327); a ring input in ALARM drives
ALARM and is reported, an armed one that breaks is RING_BROKEN, and 1 ms of HEALTHY arms it (R287, R288). Model's choices in it: log entries
65, 71. -/
def Obligations.RemoteFaultsAndTheRing : Prop :=
  (∀ (s : State) (q : PortId) (c : ChipId) (l : Nat) (m : Msg), s.fabricMode = true → linkAccepted s q = true →
    (tget [] s.cupel.queues 13).length < 12 → ∃ t x, exec (.fault q c l m) s = .next t ∧
      (∀ y ∈ treePorts s, y ≠ q.val → .fault y c l m ∈ t.out) ∧ tget [] t.cupel.queues 13 = tget [] s.cupel.queues 13 ++ [x] ∧
      x.kind = (if 4 ≤ l then 0x79 else 0x78) ∧ x.inst = c.val ∧ x.source = 0x20 ∧
      t = { s with cupel := { s.cupel with queues := t.cupel.queues, signalled := t.cupel.signalled }, out := t.out }) ∧
  (∀ s : State, ringOn s = true →
    (∃ t, exec (.ringInputChange .healthy) s = .next t ∧ t = { s with fab := { s.fab with ringIn := some .healthy, ringSince := s.clock } }) ∧
    (∃ t, exec (.ringInputChange .alarm) s = .next t ∧ t.fab = { s.fab with ringIn := some .alarm, ringSince := s.clock, ringOut := 1 } ∧
      w32Bit (t.reg (offFab 0x08)) 7 = true ∧ t = { s with fab := t.fab, regs := t.regs, cupel := t.cupel }) ∧
    (s.fab.ringArmed = true → ∃ t, exec (.ringInputChange .broken) s = .next t ∧ t.fab = { s.fab with ringIn := some .broken, ringSince := s.clock } ∧
      w32Bit (t.reg (offFab 0x08)) 8 = true ∧ t = { s with fab := t.fab, regs := t.regs, cupel := t.cupel }) ∧
    (s.fab.ringArmed = false → s.fab.ringOpened = false → ∃ t, exec (.ringInputChange .broken) s = .next t ∧
      t.fab = { s.fab with ringIn := some .broken, ringSince := s.clock, ringOpened := true } ∧ w32Bit (t.reg (offFab 0x08)) 9 = true ∧
      t = { s with fab := t.fab, regs := t.regs, cupel := t.cupel })) ∧
  (∀ (s : State) (r : RingIn), ringOn s = false →
    exec (.ringInputChange r) s = .next { s with fab := { s.fab with ringIn := some r, ringSince := s.clock } }) ∧
  (∀ s : State, ringOn s = true → s.inRunModes = true → s.fab.ringIn = some .healthy → s.fab.ringSince + 1000000 ≤ s.clock →
    exec .ringArm s = .next { s with fab := { s.fab with ringArmed := true } }) ∧
  (∀ s : State, s.fab.ringIn ≠ some .healthy → exec .ringArm s = .next s)

/-! Links, lanes and containment. -/

/-- Link control (R98) acts through the VH named by the port's VH field, or the MF: Link Disable takes the link to Disabled, Retrain Link
and Target Link Speed lift the hold of R81 and direct it to Recovery, a hot reset goes out; from any other writer nothing happens. A link
that enters Recovery is counted and reported (R101), one that follows its partner into Loopback goes down, and link-layer events count (R102).
Model's choices in it: log entries 47, 78. -/
def Obligations.LinkControlTakesEffectThroughItsVh : Prop :=
  (∀ (s : State) (q : PortId) (w : Writer), Safety.Canonical s → mayControl s q w = true →
    (∃ t, exec (.linkDisable q w true) s = .next t ∧
      (t.port q).link = { (s.port q).link with disable := true, excused := (s.port q).link.dlUp, ltssm := .disabled } ∧
      t.out = .linkDisabled q :: s.out ∧ (∀ r, r ≠ q.val → t.port r = s.port r) ∧ t = { s with ports := t.ports, out := t.out }) ∧
    (∃ t, exec (.linkDisable q w false) s = .next t ∧ (t.port q).link.disable = false ∧
      ((s.port q).link.ltssm ≠ .disabled → (t.port q).link.ltssm = (s.port q).link.ltssm) ∧
      ((s.port q).link.ltssm = .disabled → (s.port q).contain.phase = 0 → mayTrain t q = true → (t.port q).link.ltssm = .polling) ∧
      (∀ r, r ≠ q.val → t.port r = s.port r) ∧ t = { s with ports := t.ports }) ∧
    (∃ t, exec (.retrainLink q w) s = .next t ∧ (t.port q).link.rateHeld = false ∧
      ((s.port q).link.ltssm = .l0 → (t.port q).link.ltssm = .recovery ∧ t.out = .linkRecovery q :: s.out) ∧
      ((s.port q).link.ltssm ≠ .l0 → (t.port q).link.ltssm = (s.port q).link.ltssm ∧ t.out = s.out) ∧
      (∀ r, r ≠ q.val → t.port r = s.port r) ∧ t = { s with ports := t.ports, regs := t.regs, cupel := t.cupel, out := t.out }) ∧
    (∀ v, ∃ t, exec (.targetLinkSpeedWrite q w v) s = .next t ∧ (t.port q).link.targetRate = min v (targetRateOf s q) ∧
      (t.port q).link.rateHeld = false ∧ ((s.port q).link.ltssm = .l0 → (t.port q).link.ltssm = .recovery) ∧
      (∀ r, r ≠ q.val → t.port r = s.port r) ∧ t = { s with ports := t.ports, regs := t.regs, cupel := t.cupel, out := t.out }) ∧
    ((s.port q).link.dlUp = true → ∃ t, exec (.hotReset q w) s = .next t ∧
      (t.port q).link = { (s.port q).link with ltssm := .hotReset, excused := true } ∧ t.out = .hotReset q :: s.out ∧
      (∀ r, r ≠ q.val → t.port r = s.port r) ∧ t = { s with ports := t.ports, out := t.out })) ∧
  (∀ (s : State) (q : PortId) (w : Writer) (d : Bool) (v : Nat), mayControl s q w = false → exec (.linkDisable q w d) s = .next s ∧
    exec (.retrainLink q w) s = .next s ∧ exec (.targetLinkSpeedWrite q w v) s = .next s ∧ exec (.hotReset q w) s = .next s) ∧
  (∀ (s : State) (q : PortId), Safety.Canonical s → (s.port q).link.dlUp = true → (s.port q).link.ltssm = .l0 → ∃ t,
    exec (.recovery ⟨q, [], .recovery⟩) s = .next t ∧ (t.port q).link = { (s.port q).link with ltssm := .recovery } ∧ t.out = .linkRecovery q :: s.out ∧
      t.reg (offPrt q 0x30) = w32 (sat32 (s.reg (offPrt q 0x30)).toNat 1) ∧ w32Bit (t.reg (offPrt q 0x04)) 3 = true ∧
      (∀ r, r ≠ q.val → t.port r = s.port r) ∧ t = { s with ports := t.ports, regs := t.regs, cupel := t.cupel, out := t.out }) ∧
  (∀ (s : State) (q : PortId), Safety.Canonical s → (s.port q).link.dlUp = true →
    (∃ t, exec (.recovery ⟨q, [], .loopback⟩) s = .next t ∧ (t.port q).link.dlUp = false ∧
      ((t.port q).link.ltssm = .loopback ∨ (t.port q).link.ltssm = .disabled) ∧ t.keys = s.keys ∧ t.cfg = s.cfg) ∧
    (∀ n, exec (.recovery ⟨q, [.replay n], .stay⟩) s = .next (s.bump (offPrt q 0x1C) n)) ∧
    (∃ t, exec (.recovery ⟨q, [.badDllp], .stay⟩) s = .next t ∧ t.reg (offPrt q 0x18) = w32 (sat32 (s.reg (offPrt q 0x18)).toNat 1) ∧
      (s.isUp q = true → (∀ v, vhOfBridge s { port := q, chip := s.chipId } = some v → v.upChip = s.chipId) →
        w32Bit (t.bridge q).corStatus 7 = true) ∧ t.ports = s.ports ∧
      t.keys = s.keys ∧ t.cfg = s.cfg) ∧
    ((s.port q).link.flit = true → ∀ n, exec (.recovery ⟨q, [.fec n], .stay⟩) s = .next (s.bump (offPrt q 0x28) n) ∧
      ∃ t, exec (.recovery ⟨q, [.flitCrc n 0], .stay⟩) s = .next t ∧ t.out = .flitNak q :: s.out ∧ t = { s.bump (offPrt q 0x2C) n with out := t.out }))

/-- Training (R57, R81 to R84, R91, R97, R123, R303, R308, R363): DL_UP sets rate, width and the shortfall flags, and quarantines a port
with a cartridge; DL_DOWN of a downstream port is a surprise removal unless it was excused, and of an upstream port contains it and resets
its VH; a rate with a lane below the floor is given up; rate, width and tag form follow what was negotiated. Model's choices in it: log
entries 24, 47, 49, 80, 96, 99, 100. -/
def Obligations.LinksComeUpGoDownAndChangeRate : Prop :=
  (∀ (s : State) (q : PortId) (w n pr : Nat) (v pf pb t10 : Bool) (c : ChipId), trainOpen s q = true → (s.port q).link.dlUp = false → 1 ≤ pr →
    pr ≤ 6 → 1 ≤ w → w ≤ cfgWidth s q → (s.isFabric q = true → c.val ≠ s.chipId) →
    ((s.port q).contain.phase = 0 ∨ (s.port q).link.ltssm ≠ .disabled) →
    (retimersOk s q n = true → (s.isFabric q = true → pf = true) → ∃ t, exec (.linkDlUp q w n v pr pf pb t10 c) s = .next t ∧
      (t.port q).link.dlUp = true ∧ (t.port q).link.ltssm = .l0 ∧ (t.port q).link.rate = 1 ∧ (t.port q).link.width = w ∧
      (t.port q).link.active = w ∧ (t.port q).link.flit = (ownFlit s q && pf) ∧ (t.port q).quarantine = hasCart s q ∧
      (t.port q).link.downRole = takesDown s q c ∧ (w < cfgWidth s q → (t.port q).link.widthShort = true) ∧
      (w = cfgWidth s q → min (targetRateOf s q) (min pr (if ownFlit s q && pf then 6 else 5)) ≤ 1 →
        (t.port q).link.widthShort = false ∧ (t.port q).link.speedShort = false) ∧
      (s.isFabric q = true → s.fabricMode = true → (t.fabLink q).st = 1 ∧ .hello q (ownHello s q) ∈ t.out) ∧
      (s.isUp q = true → (s.port q).contain.cause = 6 → (t.port q).contain.phase = 0) ∧
      ((s.port q).contain.cause ≠ 6 →
        t = { s with ports := t.ports, stations := t.stations, slots := t.slots, fab := t.fab, regs := t.regs, cupel := t.cupel, out := t.out }) ∧
      t.mode = s.mode ∧ t.keys = s.keys ∧ t.cfg = s.cfg) ∧
    ((retimersOk s q n = false ∨ s.isFabric q = true ∧ pf = false) → Safety.Canonical s → ∃ t, exec (.linkDlUp q w n v pr pf pb t10 c) s = .next t ∧
      (t.port q).link.dlUp = false ∧ (t.port q).link.ltssm = (if retimersOk s q n then .configuration else .detect) ∧
      (t.port q).link.width = 0 ∧ (t.port q).link.widthShort = true ∧ t = { s with ports := t.ports, regs := t.regs, cupel := t.cupel })) ∧
  (∀ (s : State) (q : PortId) (w n pr : Nat) (v pf pb t10 : Bool) (c : ChipId), s.isFabric q = true → c.val = s.chipId →
    exec (.linkDlUp q w n v pr pf pb t10 c) s = .next s) ∧
  (∀ (s : State) (q : PortId), Safety.Canonical s → s.isDown q = true → (s.port q).link.dlUp = true →
    ((s.port q).link.excused = false → (s.port q).contain.phase = 0 → ∃ t, exec (.linkDlDown q) s = .next t ∧ (t.port q).link.dlUp = false ∧
      (t.port q).contain.phase = 1 ∧ (t.port q).contain.cause = 3 ∧ t.mode = s.mode ∧ t.keys = s.keys ∧ t.cfg = s.cfg) ∧
    ((s.port q).link.excused = true → (s.port q).contain.phase = 0 → ∃ t, exec (.linkDlDown q) s = .next t ∧ (t.port q).link.dlUp = false ∧
      (t.port q).link.excused = false ∧ (t.port q).contain = (s.port q).contain ∧ t.mode = s.mode ∧ t.keys = s.keys ∧ t.cfg = s.cfg)) ∧
  (∀ (s : State) (q : PortId), Safety.Canonical s → s.isUp q = true → (s.port q).link.dlUp = true → (s.port q).contain.phase = 0 → ∃ t,
    exec (.linkDlDown q) s = .next t ∧ (t.port q).link.dlUp = false ∧ (t.port q).contain.phase = 1 ∧ (t.port q).contain.cause = 6 ∧
      (∀ v r d, vhOfPort s q = some v → s.vhRec v = some r → d ∈ r.ds → d.chip = s.chipId → d.port ≠ q.val →
        (s.port d.port).link.dlUp = true → (s.port d.port).contain.phase = 0 → (t.port d.port).link.ltssm = .hotReset) ∧
      t.mode = s.mode ∧ t.keys = s.keys ∧ t.cfg = s.cfg) ∧
  (∀ (s : State) (q : PortId), (s.port q).link.dlUp = false → exec (.linkDlDown q) s = .next s) ∧
  (∀ (s : State) (q : PortId) (a b : Bool), s.isDown q = true → (s.port q).link.dlUp = true → s.hkRunning = true →
    ∃ t, exec (.tagCapabilityRead q a b) s = .next t ∧
    t.port q = { s.port q with tagRead := true, tag10 := a, tag14 := b } ∧ (∀ r, r ≠ q.val → t.port r = s.port r) ∧ t = { s with ports := t.ports }) ∧
  (∀ (s : State) (q : PortId) (r : Nat) (eyes : List Eye), Safety.Canonical s → (s.port q).link.dlUp = true → (s.port q).link.ltssm = .recovery →
    equalises s q r = true → eyes.length = (linkLanes s q).length → ∃ t, exec (.rateEqComplete q r eyes) s = .next t ∧ (t.port q).link.ltssm = .l0 ∧
      ((∃ x ∈ eyes, x.height < floorOf s q r) → (t.port q).link.rateHeld = true ∧ (t.port q).link.speedShort = true ∧
        (t.port q).link.rate = (if r = (s.port q).link.rate then (s.port q).link.prevRate else (s.port q).link.rate)) ∧
      ((∀ x ∈ eyes, floorOf s q r ≤ x.height) → (t.port q).link.rate = r ∧ (t.port q).link.rateHeld = (s.port q).link.rateHeld) ∧
      (∀ p, p ≠ q.val → t.port p = s.port p) ∧
      t.descs.map (fun d => { d with cut := none }) = s.descs.map (fun d => { d with cut := none }) ∧
      t = { s with ports := t.ports, stations := t.stations, descs := t.descs, regs := t.regs, cupel := t.cupel }) ∧
  (∀ (s : State) (q : PortId) (r w a : Nat), Safety.Canonical s → (s.port q).link.dlUp = true → rateAllowed s q r = true → 1 ≤ a → a ≤ w → w ≤ cfgWidth s q →
    ((s.port q).link.ltssm = .recovery → ∃ t, exec (.rateOrWidthChange q r w a false) s = .next t ∧ (t.port q).link.rate = r ∧
      (t.port q).link.width = w ∧ (t.port q).link.active = a ∧ (t.port q).link.ltssm = .l0 ∧ (∀ p, p ≠ q.val → t.port p = s.port p) ∧
      t.descs.map (fun d => { d with cut := none }) = s.descs.map (fun d => { d with cut := none }) ∧
      t = { s with ports := t.ports, stations := t.stations, descs := t.descs, regs := t.regs, cupel := t.cupel }) ∧
    ((s.port q).link.ltssm = .l0 → (s.port q).link.flit = true → r = (s.port q).link.rate → w = (s.port q).link.width → ∃ t,
      exec (.rateOrWidthChange q r w a true) s = .next t ∧ (t.port q).link = { (s.port q).link with active := a } ∧
      t.reg (offPrt q 0x34) = w32 (sat32 (s.reg (offPrt q 0x34)).toNat 1) ∧ (∀ p, p ≠ q.val → t.port p = s.port p) ∧
      t = { s with ports := t.ports, regs := t.regs, cupel := t.cupel }))

/-- Lanes, quads and power states (R87 to R97): the hunt takes the lowest offset with a full run; a lost alignment is an event, a lost
signal or lock also directs the link to Recovery; a burnish step moves one knob up where that gains 2 mV, moves none where no trial does,
and a frozen loop only measures; a lost quad PLL takes its ports down until it relocks; the device enters L1 and narrows by itself only
without a gate list. Model's choices in it: log entries 24, 48, 49, 80, 91, 92, 100. -/
def Obligations.LanesQuadsAndPowerStates : Prop :=
  (∀ (b : HuntBlock) (r : List HuntBlock) (e : Fin 130), b.eieos = some e → huntFrom (b :: r) (List.replicate 130 0) = some e.val) ∧
  (∀ (l : List HuntBlock) (o : Fin 130), l.length = 64 → (∀ b ∈ l, b.eieos = none ∧ b.valid.getLsbD o = true ∧ ∀ i : Nat, i < o →
    b.valid.getLsbD i = false) →
    huntFrom l (List.replicate 130 0) = some o.val) ∧
  (∀ (s : State) (i : StationId) (j : LaneId) (p o : Nat) (l : List HuntBlock), lanePort s i j = some p → 3 ≤ (s.port p).link.rate →
    (s.port p).link.rate ≤ 5 → (s.lane i j).aligned = false → huntFrom l (List.replicate 130 0) = some o → ∃ t,
      exec (.alignmentHunt i j l) s = .next t ∧ t.lane i j = { s.lane i j with aligned := true, offset := o } ∧
        t = { s with stations := t.stations }) ∧
  (∀ (s : State) (i : StationId) (j : LaneId) (p : Nat) (b : HuntBlock), lanePort s i j = some p → (s.port p).link.rate = 6 →
    (s.lane i j).aligned = false → b.eieos.isSome = true → ∃ t, exec (.alignmentHunt i j [b]) s = .next t ∧
      t.lane i j = { s.lane i j with aligned := true } ∧ t = { s with stations := t.stations }) ∧
  (∀ (s : State) (i : StationId) (j : LaneId) (p : Nat), Safety.Canonical s → tsorted 0 (s.station i).lanes = true → lanePort s i j = some p →
    (∀ n, (s.lane i j).aligned = true → 3 ≤ (s.port p).link.rate → (s.stationRec i).alignBadMax ≤ n → ∃ t, exec (.alignLost i ⟨j, n⟩) s = .next t ∧
      t.lane i j = { s.lane i j with aligned := false } ∧
      w32Bit (t.reg (offPrt p 0x04)) 2 = true ∧ t = { s with stations := t.stations, regs := t.regs, cupel := t.cupel }) ∧
    (∀ n, ((s.lane i j).aligned = false ∨ n < (s.stationRec i).alignBadMax) → exec (.alignLost i ⟨j, n⟩) s = .next s) ∧
    (∀ idle, expectsData s p j idle = true → (s.port p).link.ltssm = .l0 →
      (∀ mv, mv < (s.stationRec i).losMv → ∃ t, exec (.los i ⟨j, mv, idle⟩) s = .next t ∧ t.lane i j = { s.lane i j with los := true } ∧
        w32Bit (t.reg (offPrt p 0x04)) 0 = true ∧
        (t.port p).link.ltssm = .recovery ∧ t.out = .linkRecovery p :: s.out ∧
        t = { s with stations := t.stations, ports := t.ports, regs := t.regs, cupel := t.cupel, out := t.out }) ∧
      (∀ a b n, lockGone s i a b n = true → ∃ t, exec (.lockLost i ⟨j, a, b, n, idle⟩) s = .next t ∧ t.lane i j = { s.lane i j with cdrLock := false } ∧
        w32Bit (t.reg (offPrt p 0x04)) 1 = true ∧
        (t.port p).link.ltssm = .recovery ∧ t.out = .linkRecovery p :: s.out ∧
        t = { s with stations := t.stations, ports := t.ports, regs := t.regs, cupel := t.cupel, out := t.out })) ∧
    (∀ mv, (s.stationRec i).losMv + 20 < mv → ∃ t, exec (.losDeassert i ⟨j, mv⟩) s = .next t ∧ t.lane i j = { s.lane i j with los := false } ∧
      t = { s with stations := t.stations }) ∧
    (∀ mv idle, (s.stationRec i).losMv ≤ mv → exec (.los i ⟨j, mv, idle⟩) s = .next s) ∧
    (∀ mv, mv ≤ (s.stationRec i).losMv + 20 → exec (.losDeassert i ⟨j, mv⟩) s = .next s) ∧
    (∀ a b n idle, lockGone s i a b n = false → exec (.lockLost i ⟨j, a, b, n, idle⟩) s = .next s) ∧
    (∃ t, exec (.cdrLock i j) s = .next t ∧ t.lane i j = { s.lane i j with cdrLock := true } ∧ t = { s with stations := t.stations }) ∧
    (∀ n, (s.port p).link.dlUp = true → ∃ t, exec (.laneMarginingCommand i j n) s = .next t ∧
      t.lane i j = { s.lane i j with marginEnd := s.clock + n + 100000 } ∧ t = { s with stations := t.stations }) ∧
    (∀ a b c : Eye, burnishDue s i j = false → exec (.burnishStep i j a b c) s = .next s) ∧
    (∀ a b c : Eye, ((s.port p).link.ltssm = .l0 ∨ (s.port p).link.ltssm = .recovery ∧ (s.port p).link.dlUp = true) → laneActive s p j = true →
      (s.lane i j).marginEnd ≤ s.clock + 100000 → burnishDue s i j = true → (s.lane i j).knob < 7 → (s.lane i j).dfe.length = 5 →
      (burnishFrozen s p i j = true → ∃ t, exec (.burnishStep i j a b c) s = .next t ∧ (t.lane i j).eyeHeight = a.height ∧
        (∀ k, knobVal (t.lane i j) k = knobVal (s.lane i j) k) ∧ (t.lane i j).knob = (s.lane i j).knob) ∧
      (burnishFrozen s p i j = false → knobOk (s.lane i j).knob (knobVal (s.lane i j) (s.lane i j).knob + 1) = true → a.height + 2 ≤ b.height →
        ∃ t, exec (.burnishStep i j a b c) s = .next t ∧ (t.lane i j).eyeHeight = b.height ∧
          knobVal (t.lane i j) (s.lane i j).knob = knobVal (s.lane i j) (s.lane i j).knob + 1 ∧ (t.lane i j).knob = ((s.lane i j).knob + 1) % 7 ∧
          (∀ k, k < 7 → k ≠ (s.lane i j).knob → knobVal (t.lane i j) k = knobVal (s.lane i j) k)) ∧
      (burnishFrozen s p i j = false → b.height < a.height + 2 → c.height < a.height + 2 → ∃ t, exec (.burnishStep i j a b c) s = .next t ∧
        (t.lane i j).eyeHeight = a.height ∧ (∀ k, knobVal (t.lane i j) k = knobVal (s.lane i j) k) ∧
        (t.lane i j).knob = ((s.lane i j).knob + 1) % 7 ∧
        t = { s with stations := t.stations, ports := t.ports, regs := t.regs, cupel := t.cupel, out := t.out }))) ∧
  (∀ (s : State) (i : StationId) (q : QuadId), Safety.Canonical s →
    (∀ n, 200 < n → (s.station i).pllLock.getLsbD q = true → ∃ t, exec (.quadPll i ⟨q, n⟩) s = .next t ∧ (t.station i).pllLock.getLsbD q = false ∧
      (∀ p ∈ quadPorts s i q, (t.port p).link.dlUp = false) ∧ t.keys = s.keys ∧ t.cfg = s.cfg) ∧
    (∀ n, (n ≤ 200 ∨ (s.station i).pllLock.getLsbD q = false) → exec (.quadPll i ⟨q, n⟩) s = .next s) ∧
    (s.mode ≠ .reset → ∃ t, exec (.quadPllRelock i q) s = .next t ∧ (t.station i).pllLock = (s.station i).pllLock ||| quadBit q ∧
      (t.station i).pllFail = (s.station i).pllFail &&& ~~~ quadBit q ∧ t = { s with stations := t.stations, ports := t.ports }) ∧
    (s.mode ≠ .reset → (s.station i).pllLock.getLsbD q = false → (s.station i).pllFail.getLsbD q = false →
      tget 0 (s.station i).pllLostAt q + 1000000 ≤ s.clock → ∃ t, exec (.quadFail i q) s = .next t ∧
      (t.station i).pllFail = (s.station i).pllFail ||| quadBit q ∧ (∀ p ∈ quadPorts s i q, (t.port p).link.quadFail = true) ∧
      t = { s with stations := t.stations, ports := t.ports }) ∧
    (s.clock < tget 0 (s.station i).pllLostAt q + 1000000 → exec (.quadFail i q) s = .next s) ∧
    (s.mode ≠ .reset → (s.station i).pllFail.getLsbD q = true → tget 0 (s.station i).pllTryAt q + 100000000 ≤ s.clock →
      exec (.quadRelockRetry i q true) s = exec (.quadPllRelock i q) s ∧
      ∃ t, exec (.quadRelockRetry i q false) s = .next t ∧ t.station i = { s.station i with pllTryAt := tset 0 (s.station i).pllTryAt q s.clock } ∧
        t = { s with stations := t.stations }) ∧
    (∀ b, s.clock < tget 0 (s.station i).pllTryAt q + 100000000 → exec (.quadRelockRetry i q b) s = .next s) ∧
    (∃ t, exec (.laneGroupReset i (some q)) s = .next t ∧ (∀ x ∈ t.staging, x.isOpen = true → x.ingress ∉ quadPorts s i q) ∧
      t.mode = s.mode ∧ t.keys = s.keys ∧ t.cfg = s.cfg) ∧
    (∃ t, exec (.stationClockWake i) s = .next t ∧ (t.station i).clockOff = false ∧ t = { s with stations := t.stations })) ∧
  (∀ (s : State) (i : StationId) (p : Nat) (d : Desc), s.portNums.filter (fun x => stationOf x == i.val) = [p] →
    (s.port p).sched.txing.bind (findDesc s) = some d →
    ((s.port p).link.flit = true → (s.port p).link.ltssm = .l0 → inTransmission s p = true → ∃ t, exec (.laneGroupReset i none) s = .next t ∧
      (t.port p).link.ltssm = .recovery ∧ t.descs = s.descs) ∧
    ((s.port p).link.flit = false → ∃ t f, exec (.laneGroupReset i none) s = .next t ∧ .tlp p d.tlp f true ∈ t.out ∧ findDesc t d.id = none)) ∧
  (∀ (s : State) (q : PortId), (s.port q).link.dlUp = true → (s.port q).link.ltssm = .l0 →
    (∀ b n, (s.port q).link.pmeOff = false → (b = true ∨ (∀ r, s.portRec q = some r → r.aspmL1 = true) ∧ (s.portRec q).isSome = true ∧
        (s.bridge q).aspm.getLsbD 1 = true ∧ hasGateList s q = false ∧ idleFor s q n = true) →
      ∃ t, exec (.aspmL1Entry ⟨q, n⟩ b) s = .next t ∧ (t.port q).link = { (s.port q).link with ltssm := .l1 } ∧
      (s.portNums.filter (fun p => stationOf p == stationOf q) = [q.val] → descsTo s q = [] → (t.station (stationOf q)).clockOff = true) ∧
      t = { s with ports := t.ports, stations := t.stations }) ∧
    (∀ b n, (s.port q).link.pmeOff = true → descsTo s q = [] → ∃ t, exec (.aspmL1Entry ⟨q, n⟩ b) s = .next t ∧
      (t.port q).link = { (s.port q).link with ltssm := .l2 } ∧ t = { s with ports := t.ports, stations := t.stations }) ∧
    (hasGateList s q = true → (∀ n, (s.port q).link.pmeOff = false → exec (.aspmL1Entry ⟨q, n⟩ false) s = .next s) ∧
      ∀ w u, exec (.l0pNarrow ⟨q, u⟩ w) s = .next s) ∧
    (∀ w u, 40 ≤ u → exec (.l0pNarrow ⟨q, u⟩ w) s = .next s) ∧
    (∀ w u, u < 40 → (s.bridge q).hawDisable = false → (s.port q).link.flit = true → l0pFlag s q = true → hasGateList s q = false →
      2 * w = (s.port q).link.active → 0 < w →
      (∀ r, s.portRec q = some r → r.l0pMinWidth ≤ w) → ∃ t, exec (.l0pNarrow ⟨q, u⟩ w) s = .next t ∧
        (t.port q).link = { (s.port q).link with active := w } ∧ t = { s with ports := t.ports, regs := t.regs, cupel := t.cupel }) ∧
    (∀ u, (s.port q).link.flit = true → l0pFlag s q = true → (s.port q).link.active < (s.port q).link.width → (16 < cellsTo s q ∨ 80 < u) → ∃ t,
      exec (.l0pWiden ⟨q, u⟩) s = .next t ∧
      (t.port q).link = { (s.port q).link with active := (s.port q).link.width } ∧ t = { s with ports := t.ports, regs := t.regs, cupel := t.cupel }))

/-- Containment (R300 to R309): a software trigger of DPC contains a port; nothing stays queued toward a contained port, and its open
entries retire, after which it is CONTAINED; a drain whose entries have ended is contained with cause ORDERLY, and its slot's power off is
ordered. A release, by the clear of DPC Trigger Status or by RELEASE_CONTAIN under its grant, opens a CONTAINED port and no other. Model's
choices in it: log entries 25, 47, 55, 101. -/
def Obligations.ContainmentDropsWhatIsQueuedUntilReleased : Prop :=
  (∀ (s : State) (q : PortId), Safety.Canonical s → s.isDown q = true → s.inRunModes = true →
    ((s.port q).contain.phase = 0 → ((s.bridge q).dpcEnable = 1 ∨ (s.bridge q).dpcEnable = 2) →
      ∃ t, exec (.dpcSoftwareTrigger q) s = .next t ∧ (t.port q).contain = { phase := 1, cause := 2 } ∧
      (t.bridge q).dpcReason = 3 ∧ (t.port q).link.ltssm = .disabled ∧ .linkDisabled q ∈ t.out ∧
      t.reg (offPrt q 0x98) = w32 (sat32 (s.reg (offPrt q 0x98)).toNat 1) ∧ (∀ x ∈ t.staging, ∀ c, x.key ≠ .port q c) ∧
      t.mode = s.mode ∧ t.keys = s.keys ∧ t.cfg = s.cfg) ∧
    (((s.port q).contain.phase = 1 ∨ (s.port q).contain.phase = 2 ∨ (s.bridge q).dpcEnable = 0) → exec (.dpcSoftwareTrigger q) s = .next s)) ∧
  (∀ (s : State) (q : PortId), s.isFabric q = false → (s.port q).contain.phase = 1 → ∃ t, exec (.containmentComplete q) s = .next t ∧
    (t.port q).contain = { (s.port q).contain with phase := 2 } ∧ w32Bit (t.reg (offPrt q 0x94)) 0 = true ∧ descsTo t q = [] ∧
    (∀ d ∈ t.descs, d ∈ s.descs) ∧ (∀ e ∈ t.tracker, e.egress = q.val → e.fabric = false → e.retired = true) ∧
    t.mode = s.mode ∧ t.keys = s.keys ∧ t.cfg = s.cfg) ∧
  (∀ (s : State) (q : PortId), (s.port q).contain.phase ≠ 1 → exec (.containmentComplete q) s = .next s) ∧
  (∀ (s : State) (q : PortId), (s.port q).contain.phase = 3 →
    (drainOver s q = true → slotOfPort s q = none → ∃ t, exec (.orderlyDrainEnd q) s = .next t ∧ (t.port q).contain = { phase := 1, cause := 5 } ∧
      t.mode = s.mode ∧ t.keys = s.keys ∧ t.cfg = s.cfg) ∧
    (∀ n, drainOver s q = true → slotOfPort s q = some n → s.d2d.lost = false → seenOn (s.slot n) = true →
      ∃ t, exec (.orderlyDrainEnd q) s = .next t ∧
      (t.port q).contain = { phase := 1, cause := 5 } ∧ t.slot n = { s.slot n with st := 8 } ∧ (∀ m, m ≠ n → t.slot m = s.slot m) ∧
      t.d2d.unacked = s.d2d.unacked ++ [Safety.waiting s { cls := .cmd, slot := n, cmd := .powerOff }] ∧
      t.mode = s.mode ∧ t.keys = s.keys ∧ t.cfg = s.cfg) ∧
    (drainOver s q = false → exec (.orderlyDrainEnd q) s = .next s)) ∧
  (∀ (s : State) (q : PortId), Safety.Canonical s → s.isDown q = true → s.mode ≠ .reset → (s.port q).contain.phase = 2 →
    (((s.port q).contain.cause = 1 ∨ (s.port q).contain.cause = 2 ∨ (s.port q).contain.cause = 3) → underRuntime s q = false → ∃ t,
      exec (.dpcTriggerStatusClear q) s = .next t ∧ (t.port q).contain = {} ∧ w32Bit (t.reg (offPrt q 0x94)) 1 = true ∧
      (∀ r, r ≠ q.val → t.port r = s.port r) ∧ t = { s with ports := t.ports, regs := t.regs }) ∧
    ((s.port q).contain.cause ≠ 1 → (s.port q).contain.cause ≠ 2 → (s.port q).contain.cause ≠ 3 →
      exec (.dpcTriggerStatusClear q) s = .next s)) ∧
  (∀ (s : State) (p : Path) (seq port : Byte), mayIssue s p = true → s.hkRunning = true → s.inRunModes = true →
      (s.portRec port.toNat).isSome = true →
      (granted s .containRelease port.toNat = true → Safety.Canonical s → (s.port port.toNat).contain.phase = 2 → underRuntime s port.toNat = false →
        ∃ t, exec (.releaseContain p seq port) s = .next t ∧ Safety.Answered t seq stOk 4 ∧ (t.port port.toNat).contain.phase = 0 ∧
          (∀ q, q ≠ port.toNat → t.port q = s.port q) ∧
          t = { Safety.afterAnswer s t with ports := t.ports, fab := t.fab }) ∧
      (granted s .containRelease port.toNat = true → (s.port port.toNat).contain.phase = 1 → ∃ t, exec (.releaseContain p seq port) s = .next t ∧
        Safety.Answered t seq stBusy 0 ∧ Safety.AnswerOnly s t) ∧
      (granted s .containRelease port.toNat = false → ∃ t, exec (.releaseContain p seq port) s = .next t ∧
        Safety.Answered t seq stDenied 0 ∧ Safety.AnswerOnly s t))

/-! TLPs: requests, completions, admission, egress, multicast and taps. -/

/-- Requests and completions (R105, R106, R119, R126, R172, R295): an unclassified request is counted and answered UR for M; a classified
one is staged toward its target under its tenant, held if it is red, or answered as its verdict says; an error message acts as a request and
may trigger DPC; a completion goes back with its original tag and closes its entry, a late or unexpected one is counted. Model's choices in
it: log entries 50, 52, 53, 54, 55, 57, 58, 92, 98. -/
def Obligations.RequestsAndCompletionsAreClassified : Prop :=
  (∀ (s : State) (q : PortId) (x : Tlp), takesRequests s q = false → exec (.requestReceived q x) s = .next s ∧
    exec (.completionReceived q x) s = .next s ∧ exec (.errorMessageReceived q x) s = .next s) ∧
  (∀ (s : State) (q : PortId) (x : Tlp), takesRequests s q = true → x.kind ≠ .cpl → s.mode = .run → deaf s q = false → x.malformed = false →
    (s.port q).quarantine = false → overCredit s q x = false →
    (classify s q x.rid x.pasid = none → ∃ t, exec (.requestReceived q x) s = .next t ∧
      t.reg (offPrt q 0x68) = w32 (sat32 (s.reg (offPrt q 0x68)).toNat 1) ∧ w32Bit (t.reg (offPrt q 0x4C)) 0 = true ∧
      (isNonPosted x.kind = true → ∃ y, t.staging = s.staging ++ [y] ∧ y.tlp.kind = .cpl ∧ y.tlp.status = .ur ∧ y.tlp.tag = x.tag ∧
        y.owner = ownerM ∧ y.dest = .port q) ∧
      (isNonPosted x.kind = false → t.staging = s.staging) ∧
      t = { s with regs := t.regs, staging := t.staging, nextId := t.nextId, cupel := t.cupel }) ∧
    (∀ o tr, classify s q x.rid x.pasid = some (o, tr) → s.cfg.samples = [] → isErrMsg x = false →
      (x.kind = .msg → x.msgCode ≠ 0x19) →
      (policerOf s o x.tc.toNat = none →
        (∀ (r : Nat) (b : Bool), routeVerdict s q o tr x = .goes (.port r) b → portOpen s r = true → (s.port r).contain.phase = 0 →
          (s.port r).quarantine = false → ∃ t y,
          exec (.requestReceived q x) s = .next t ∧ t.staging = s.staging ++ [y] ∧ y.tlp = asType0 x b ∧ y.owner = o ∧ y.dest = .port r ∧
            y.src = { chip := s.chipId, port := q } ∧ y.red = none ∧ t = { s with staging := t.staging, nextId := t.nextId }) ∧
        (∀ k b d, routeVerdict s q o tr x = .ur k b d → isNonPosted x.kind = true → ∃ t y, exec (.requestReceived q x) s = .next t ∧
          y ∈ t.staging ∧ y.tlp.kind = .cpl ∧ y.tlp.status = .ur ∧ y.tlp.tag = x.tag ∧ y.owner = o) ∧
        (∀ z m c b n, routeVerdict s q o tr x = .gate z m c b n → isNonPosted x.kind = true → ∃ t y, exec (.requestReceived q x) s = .next t ∧
          y ∈ t.staging ∧ y.tlp.kind = .cpl ∧ y.tlp.status = (if m then .ca else .ur) ∧ y.tlp.tag = x.tag ∧ y.owner = o) ∧
        (∀ g a m c b n, routeVerdict s q o tr x = .mfGate g a m c b n → isNonPosted x.kind = true → ∃ t y, exec (.requestReceived q x) s = .next t ∧
          y ∈ t.staging ∧ y.tlp.kind = .cpl ∧ y.tlp.status = (if m then .ca else .ur) ∧ y.tlp.tag = x.tag ∧ y.owner = o) ∧
        (routeVerdict s q o tr x = .own → ∃ t y, exec (.requestReceived q x) s = .next t ∧ y ∈ t.staging ∧ y.tlp.kind = .cpl ∧ y.tlp.status = .sc ∧
          y.tlp.tag = x.tag ∧ y.owner = o ∧ ((x.kind = .cfgrd0 ∨ x.kind = .cfgrd1) → y.tlp.data = leBytes 4 (readCfg s q x).2.toNat))) ∧
      (∀ (k r : Nat) (e : PolEntry) (b : Bool), policerOf s o x.tc.toNat = some (k, e) → (colour s k (tlpBytes x)).1 = .red →
        (e.hold = true → routeVerdict (s.bump (offPol k 8)) q o tr x = .goes (.port r) b → portOpen s r = true → (s.port r).contain.phase = 0 →
          (s.port r).quarantine = false →
          ∃ t y, exec (.requestReceived q x) s = .next t ∧ t.staging = s.staging ++ [y] ∧ y.tlp = asType0 x b ∧ y.red = some k ∧
            t = { s with staging := t.staging, nextId := t.nextId, regs := t.regs }) ∧
        (e.hold = false → isNonPosted x.kind = true → ∃ t y, exec (.requestReceived q x) s = .next t ∧ y ∈ t.staging ∧ y.tlp.kind = .cpl ∧
          y.tlp.status = .ur ∧ y.tlp.tag = x.tag ∧ y.owner = o)))) ∧
  (∀ (s : State) (q : PortId) (x : Tlp), s.isDown q = true → isErrMsg x = true → overCredit s q x = false →
    exec (.errorMessageReceived q x) s = exec (.requestReceived q x) s) ∧
  (∀ (s : State) (q : PortId) (x : Tlp), takesRequests s q = true → s.isDown q = true → s.mode = .run → deaf s q = false → x.malformed = false →
    x.kind = .msg → x.msgCode = 0x33 → (classify s q x.rid x.pasid).isSome = true → (s.bridge q).dpcEnable = 1 → ∃ t,
      exec (.errorMessageReceived q x) s = .next t ∧ (t.port q).contain.phase = 1 ∧ t.mode = s.mode ∧ t.keys = s.keys ∧ t.cfg = s.cfg) ∧
  (∀ (s : State) (q : PortId) (c : Tlp), takesRequests s q = true → c.kind = .cpl → s.mode = .run → deaf s q = false → c.malformed = false →
    overCredit s q c = false →
    (∀ e, lookupTrk s q c = some e → e.retired = true → ∃ t, exec (.completionReceived q c) s = .next t ∧
      t.reg (offPrt q 0x60) = w32 (sat32 (s.reg (offPrt q 0x60)).toNat 1) ∧ w32Bit (t.reg (offPrt q 0x4C)) 2 = true ∧
      t = { s with regs := t.regs, cupel := t.cupel }) ∧
    (∀ (e : Trk) (r : Nat), lookupTrk s q c = some e → e.retired = false → s.cfg.samples = [] → cplTarget s q e c = .port r →
      portOpen s r = true → ∃ t y, exec (.completionReceived q c) s = .next t ∧ t.staging = s.staging ++ [y] ∧
        y.tlp = { c with tag := e.origTag } ∧ y.owner = e.owner ∧ y.dest = .port r ∧
        ((e.single = true ∨ e.bytes ≤ c.data.length ∨ c.status ≠ .sc) → findTrk t e.id = none) ∧
        t = { s with staging := t.staging, nextId := t.nextId, tracker := t.tracker }) ∧
    (∀ k, lookupTrk s q c = none → quarantinedKey s q c = some k → ∃ t, exec (.completionReceived q c) s = .next t ∧
      t.reg (offPrt q 0x60) = w32 (sat32 (s.reg (offPrt q 0x60)).toNat 1) ∧ t = { s with regs := t.regs, cupel := t.cupel }) ∧
    (lookupTrk s q c = none → quarantinedKey s q c = none → s.isUp q = false → ∃ t, exec (.completionReceived q c) s = .next t ∧
      t.reg (offPrt q 0x64) = w32 (sat32 (s.reg (offPrt q 0x64)).toNat 1) ∧ w32Bit (t.reg (offPrt q 0x4C)) 3 = true ∧
      t = { s with regs := t.regs, cupel := t.cupel }))

/-- Admission, closing and the tracker (R115 to R120, R126, R131, R133 to R137, R307): the head of a staging queue takes its cells and joins
its egress, or waits and is counted once; a TLP closes good or bad; a request past its timeout is answered and its entry retires, and
quarantines end at their time. Model's choices in it: log entries 13, 50, 51, 58. -/
def Obligations.AdmissionClosingAndTheTracker : Prop :=
  (∀ (s : State) (p : PortId) (c : Fin 3) (x : Staged) (r : Nat) (z : Option (Nat × Bool)), (s.staging.filter (fun y => y.key == .port p c)).head? = some x →
    x.red = none → behindPosted s x = false → behindWait s x = false → x.dest = .port r → shutTo s r x = false →
    (mayAdmit s x.owner x.cls r (tlpCells x.tlp) = true → ∃ t d, exec (.admitTlp ⟨.port p c, z⟩) s = .next t ∧
      t.staging = s.staging.filter (fun y => y.id != x.id) ∧ t.descs = s.descs ++ [d] ∧ d.id = s.nextId ∧ d.origin = x.id ∧ d.tlp = x.tlp ∧
        d.egress = r ∧
      d.owner = x.owner ∧ d.cells = tlpCells x.tlp ∧ d.banks = banksFor s (tlpCells x.tlp) ∧ d.isOpen = x.isOpen ∧
        usedOf t x.owner x.cls = usedOf s x.owner x.cls + tlpCells x.tlp ∧
      (∀ o k, acct o k ≠ acct x.owner x.cls → usedOf t o k = usedOf s o k) ∧
      t = { s with staging := t.staging, nextId := s.nextId + 1, descs := t.descs, used := t.used, usedTo := t.usedTo, banks := t.banks,
                   ports := t.ports }) ∧
    (mayAdmit s x.owner x.cls r (tlpCells x.tlp) = false → x.waited = true → exec (.admitTlp ⟨.port p c, z⟩) s = .next s) ∧
    (mayAdmit s x.owner x.cls r (tlpCells x.tlp) = false → x.waited = false → ∃ t, exec (.admitTlp ⟨.port p c, z⟩) s = .next t ∧
      t.reg (offTnt (0x50018 + 32 * x.owner)) = w32 (sat32 (s.reg (offTnt (0x50018 + 32 * x.owner))).toNat 1) ∧
      t.staging = s.staging.map (fun y => if y.id = x.id then { y with waited := true } else y) ∧
      t = { s with staging := t.staging, regs := t.regs })) ∧
  (∀ (s : State) (id n : Nat), (∃ x ∈ s.staging, x.id = id ∧ x.isOpen = true) → (∀ y ∈ s.ended, y.id ≠ id ∧ y.origin ≠ id) →
    ((∀ x ∈ s.staging, x.id = id → stomped x.farug = false) → exec (.descriptorClose id ⟨.good, n⟩) s =
      .next { s with staging := s.staging.map (fun y => if y.id = id then { y with isOpen := false } else y) }) ∧
    (∀ r, r ≠ .good → r ≠ .lcrc → lostInside r = false →
      exec (.descriptorClose id ⟨r, n⟩) s = .next { s with staging := s.staging.filter (fun y => y.id != id) })) ∧
  (∀ (s : State) (d : Desc), (∀ x ∈ s.staging, x.id ≠ d.id) → (∀ w ∈ s.mcWaits, w.x.id ≠ d.id) →
    s.descs.filter (fun y => (y.id == d.id || y.origin == d.id) && y.isOpen) = [d] →
    (s.port d.egress).sched.txing = some d.id →
    (∀ n, stomped d.farug = false → (s.isFabric d.egress = false ∨ n < 2000) → ∃ t, exec (.descriptorClose d.id ⟨.good, n⟩) s = .next t ∧
      .tlp d.egress d.tlp (if s.isFabric d.egress then d.farug else none) false ∈ t.out ∧ findDesc t d.id = none) ∧
    (∀ n, ∃ t f, exec (.descriptorClose d.id ⟨.partialRx, n⟩) s = .next t ∧ .tlp d.egress d.tlp f true ∈ t.out ∧ findDesc t d.id = none)) ∧
  (∀ s : State, (∀ e ∈ s.tracker, timedOut s e = false) → exec .completionTimeout s = .next s) ∧
  (∀ s : State, ∃ t, exec .completionTimeout s = .next t ∧ (∀ e ∈ t.tracker, timedOut t e = false) ∧ t.mode = s.mode ∧ t.keys = s.keys ∧
    t.cfg = s.cfg ∧
    ∀ e, s.tracker.filter (timedOut s) = [e] → e.ide = false → e.src.port < 80 → ∃ y ∈ t.staging, y.tlp.kind = .cpl ∧ y.tlp.tag = e.origTag ∧
      y.owner = e.owner ∧ y.tlp.status = (if e.fabric && s.fab.lost.getLsbD e.dstChip then .ca else containStatus s e.egress)) ∧
  (∀ s : State, ∃ t, exec .tagQuarantineEnd s = .next t ∧ (∀ e, e ∈ t.tracker ↔ e ∈ s.tracker ∧ (e.retired = true → s.clock < e.until_)) ∧
    t = { s with tracker := t.tracker }) ∧
  (∀ s : State, ∃ t, exec .ideQuarantineEnd s = .next t ∧ (∀ k, k ∈ t.ideQ ↔ k ∈ s.ideQ ∧ s.clock < k.until_) ∧ t = { s with ideQ := t.ideQ })

/-- Egress selection (R115, R116, R118, R163 to R167, R175): no TLP starts on a port that may not send or whose classes are closed; an
express class goes before lower ones and before the round robin; the TLP that starts leaves once, unless its cells hold a double-bit error;
a held slot is released, and a stalled cut-through is stomped, after 2 µs. Model's choices in it: log entries 13, 49, 61. -/
def Obligations.EgressStartsOneEligibleTlp : Prop :=
  (∀ (s : State) (q : PortId) (nc : BitVec 3) (e : Option (Nat × Bool)), Safety.Canonical s → mayStart s q = false → ∃ t,
    exec (.egressSelection q ⟨nc, e⟩) s = .next t ∧ t.fab = { s.fab with heldOnce := t.fab.heldOnce } ∧
    (∀ p, (t.port p).link = (s.port p).link ∧ (t.port p).contain = (s.port p).contain) ∧
    t = { s with regs := t.regs, fab := t.fab, ports := t.ports, cupel := t.cupel }) ∧
  (∀ (s : State) (q : PortId) (nc : BitVec 3) (e : Option (Nat × Bool)) (g : GateList), Safety.Canonical s → (s.port q).sched.pend = none →
    (s.port q).sched.oper = some g → maskAt g (entryAt g (stationTime s q)) = 0 → ∃ t, exec (.egressSelection q ⟨nc, e⟩) s = .next t ∧ t.out = s.out ∧
    (t.port q).sched.entry = entryAt g (stationTime s q) ∧ t.mode = s.mode ∧ t.keys = s.keys ∧ t.cfg = s.cfg) ∧
  (∀ (s : State) (p : Nat) (nc : BitVec 3) (d : Desc), expressPick s nc p = some d → d.tlp.tc.toNat < 8 ∧ isExpress s p d.tlp.tc.toNat = true ∧
    d.egress = p ∧ ∀ c, d.tlp.tc.toNat < c → c < 8 → isExpress s p c = true → pickHead s nc p c = none) ∧
  (∀ (s : State) (q : PortId) (nc : BitVec 3) (d : Desc), Safety.Canonical s → mayStart s q = true → gatesNow s q = s →
    (∀ x ∈ s.descs, x.needTrk = false) → s.isFabric q = false → d.isOpen = false →
    (expressPick s nc q = some d ∨ (expressPick s nc q = none ∧ ∃ y, drr s nc q 700 (s.port q).sched = some (d, y))) →
    (∃ t, exec (.egressSelection q ⟨nc, none⟩) s = .next t ∧ .tlp q d.tlp none false ∈ t.out ∧ findDesc t d.id = none ∧
      (∀ x ∈ t.descs, x ∈ s.descs) ∧ t.staging = s.staging ∧ t.mode = s.mode ∧ t.keys = s.keys ∧ t.cfg = s.cfg) ∧
    (∀ i, ∃ t, exec (.egressSelection q ⟨nc, some (i, false)⟩) s = .next t ∧ .tlp q d.tlp none false ∈ t.out ∧ findDesc t d.id = none) ∧
    (∀ i, ∃ t, exec (.egressSelection q ⟨nc, some (i, true)⟩) s = .next t ∧ t.out = s.out ∧ findDesc t d.id = none)) ∧
  (∀ (s : State) (q : PortId) (id : Nat), Safety.Canonical s → (s.port q).sched.held = some id →
    ((s.port q).sched.heldSince + 2000 ≤ s.clock → ∃ t, exec (.stallRel q) s = .next t ∧ (t.port q).sched.held = none ∧
      (∀ d ∈ t.descs, d.id = id → d.released = true) ∧ t.reg (offPrt q 0x5C) = w32 (sat32 (s.reg (offPrt q 0x5C)).toNat 1) ∧
      w32Bit (t.reg (offPrt q 0x4C)) 4 = true ∧ t = { s with ports := t.ports, descs := t.descs, regs := t.regs, cupel := t.cupel }) ∧
    (s.clock < (s.port q).sched.heldSince + 2000 → exec (.stallRel q) s = .next s)) ∧
  (∀ (s : State) (q : PortId) (d : Desc) (n : Nat), (s.port q).sched.txing.bind (findDesc s) = some d →
    (s.isFabric q = true → 2000 ≤ n → (s.port q).sched.cutAt + n ≤ s.clock → ∃ t f, exec (.fabricStallStomp ⟨q, n⟩) s = .next t ∧
      .tlp q d.tlp f true ∈ t.out ∧ .holdFlit q ∈ t.out ∧ findDesc t d.id = none ∧ t.mode = s.mode ∧ t.keys = s.keys ∧ t.cfg = s.cfg) ∧
    ((n < 2000 ∨ s.clock < (s.port q).sched.cutAt + n) → exec (.fabricStallStomp ⟨q, n⟩) s = .next s))

/-- Gates, shapers, policers and monitors (R140, R169 to R172, R175, R180, R189): the entry in force is that of the replica's time; a
pending list takes over at its time; tokens and thresholds follow their ticks; a monitor counts a sample. Model's choices in it: log entries
41, 61. -/
def Obligations.GatesAndTicksFollowTheClock : Prop :=
  (∀ (s : State) (q : PortId), Safety.Canonical s → ∃ t, exec (.gateBoundary q) s = .next t ∧
    (∀ g, (s.port q).sched.oper = some g → (t.port q).sched.entry = entryAt g (stationTime s q)) ∧
    ((s.port q).sched.oper = none → (t.port q).sched.entry = 0) ∧ (t.port q).sched.oper = (s.port q).sched.oper ∧
    (∀ r, r ≠ q.val → t.port r = s.port r) ∧ t = { s with ports := t.ports }) ∧
  (∀ (s : State) (q : PortId) (d : PendList), Safety.Canonical s → (s.port q).sched.pend = some d →
    (d.ts ≤ stationTime s q → ∃ t, exec (.gateListSwitch q) s = .next t ∧ (t.port q).sched.pend = none ∧
      (t.port q).sched.oper = d.list.map (fun g => { g with base := d.ts }) ∧ w32Bit (t.reg (offSch q 0x20)) 3 = true ∧
      t.reg (offSch q 0x2C) = w32 (sat32 (s.reg (offSch q 0x2C)).toNat 1) ∧ (∀ r, r ≠ q.val → t.port r = s.port r) ∧
      t = { s with ports := t.ports, regs := t.regs, cupel := t.cupel }) ∧
    (stationTime s q < d.ts → exec (.gateListSwitch q) s = .next s)) ∧
  (∀ s : State, ∃ t, exec .shaperRefill s = .next t ∧
    (∀ k x, tfind s.shapers k = some x → ∃ y, tfind t.shapers k = some y ∧ y.rate = x.nextRate ∧ y.tok ≤ tokens x.burst ∧
      (x.tok + tickTokens x.nextRate ≤ tokens x.burst → y.tok = x.tok + tickTokens x.nextRate)) ∧ t = { s with shapers := t.shapers }) ∧
  (∀ s : State, tsorted 0 s.policers = true → s.staging = [] → ∃ t, exec .policerTick s = .next t ∧
    (∀ k i n e, policerEntry s k = some (i, n, e) → (tget {} t.policers k).c = min ((tget {} s.policers k).c + tickTokens e.cir) (65536 * e.cbs) ∧
      (tget {} t.policers k).p = min ((tget {} s.policers k).p + tickTokens e.pir) (65536 * e.pbs)) ∧ t = { s with policers := t.policers }) ∧
  (∀ (s : State) (n : Nat) (r : TenantRec), tsorted 0 s.cfg.tenants = true → tfind s.cfg.tenants n = some r → ∃ t, exec .thresholdTick s = .next t ∧
    thrOf t n 2 = min (sharedPool s) (sharedFree s * 2 ^ r.alphaCpl / 64) ∧ thrOf t n 3 = min (sharedPool s) (sharedFree s * 2 ^ r.alphaBulk / 64) ∧
    t = { s with thr := t.thr }) ∧
  (∀ (s : State) (q : PortId) (m : MonEntry), Safety.Canonical s → (schedRec s q).mons = [m] → ∃ t, exec (.monitorSample q) s = .next t ∧
    t.reg (offMon m.id 0x88) = w32 (sat32 (s.reg (offMon m.id 0x88)).toNat 1) ∧
    (let k := bin16 ((monScope s q m).map (·.cells)).sum
     t.reg (offMon m.id (4 * k)) = w32 (sat32 (s.reg (offMon m.id (4 * k))).toNat 1)) ∧ t = { s with regs := t.regs })

/-- Multicast and taps (R143 to R154, R159 to R161): a write of a group whose members all have credit is copied once to each and counted;
one under ATOMIC_ADMIT without credit waits, and after its limit is dropped for all; a parked copy is delivered again when credit holds;
reports and samples are written to their rings in order. Model's choices in it: log entries 10, 13, 62, 81. -/
def Obligations.MulticastCopiesParkedAndSampled : Prop :=
  (∀ (s : State) (q : PortId) (x : Staged) (g : Nat) (m : McastRec), Safety.Canonical s → mcHead s q = some (x, g) → mcastRec s g = some m →
    portWaits s q = [] → behindWait s x = false → mcAdmissible s x = true → x.id < s.nextId →
    ((∀ k ∈ mcTargets s x m (s.group g).members, deadCause s x m k = 0 ∧ copyGate s x m k = .pass ∧ hasCredit s g m k (tlpCells x.tlp) = true ∧
        parkedTo s g k = [] ∧ (destAt m k).chip = s.chipId ∧ (s.port (destAt m k).port).contain.phase = 0 ∧
          (s.port (destAt m k).port).quarantine = false) → ∃ t,
      exec (.multicastWrite q) s = .next t ∧ t.descs.length = s.descs.length + (mcTargets s x m (s.group g).members).length ∧
      (∀ k ∈ mcTargets s x m (s.group g).members, ∃ d ∈ t.descs, d.egress = (destAt m k).port ∧ d.tlp = x.tlp ∧ d.origin = x.id) ∧
      (∀ y ∈ t.staging, y.id ≠ x.id) ∧ t.reg (offMcg g 0x20) = w32 ((s.reg (offMcg g 0x20)).toNat + 1) ∧
      t = { s with staging := t.staging, regs := t.regs, used := t.used, usedTo := t.usedTo, banks := t.banks, nextId := t.nextId,
                   groups := t.groups, descs := t.descs, ports := t.ports, mcEntries := t.mcEntries, mcWaits := t.mcWaits, ended := t.ended }) ∧
    (m.policy = .atomicAdmit → (∃ k ∈ mcTargets s x m (s.group g).members, deadCause s x m k = 0 ∧ hasCredit s g m k (tlpCells x.tlp) = false) →
      ∃ t w,
      exec (.multicastWrite q) s = .next t ∧ t.mcWaits = s.mcWaits ++ [w] ∧ w.x = x ∧ w.members = (s.group g).members ∧
      w.since = s.clock ∧ w.time = s.now ∧ (∀ y ∈ t.staging, y.id ≠ x.id) ∧ t.descs = s.descs ∧
      usedOf t x.owner x.cls = usedOf s x.owner x.cls + tlpCells x.tlp ∧
      t = { s with staging := t.staging, regs := t.regs, used := t.used, usedTo := t.usedTo, banks := t.banks, nextId := t.nextId,
                   mcEntries := t.mcEntries, mcWaits := t.mcWaits })) ∧
  (∀ (s : State) (q : PortId) (w : McWait) (m : McastRec), Safety.Canonical s → (portWaits s q).head? = some w → mcastRec s w.group = some m →
    (w.since + 1000 * m.admitTimeout ≤ s.clock → mcAllCredit s w m = false → ∃ t, exec (.atomicAdmitTimeout q) s = .next t ∧
      (∀ d ∈ t.descs, d ∈ s.descs) ∧ (∀ y ∈ t.mcWaits, y.entry ≠ w.entry) ∧ t.mode = s.mode ∧ t.keys = s.keys ∧ t.cfg = s.cfg) ∧
    (portWaits s q = [w] → s.clock < w.since + 1000 * m.admitTimeout → exec (.atomicAdmitTimeout q) s = .next s)) ∧
  (∀ (s : State) (g : GroupId) (k : Fin 64) (m : McastRec) (x : Parked), Safety.Canonical s → mcastRec s g = some m →
    (parkedTo s g k).head? = some x →
    (∀ p, s.mode ≠ .safe → copyEgress s x.src x.owner x.tlp.tc.toNat x.trusted x.epoch (destAt m k) = some p → x.isOpen = false →
      destLive s m k = true → hasCredit s g m k x.cells = true → s.parkUsed + x.cells ≤ 2048 → ∃ t d, exec (.parkRedelivery g k false) s = .next t ∧
        t.descs = s.descs ++ [d] ∧ d.egress = p ∧ d.tlp = x.tlp ∧ d.redeliv = some (g.val, k.val, x.seq, x.time) ∧
        t.parkUsed = s.parkUsed + x.cells ∧ (∀ z ∈ (t.group g).parked, z.id ≠ x.id) ∧
        t = { s with groups := t.groups, descs := t.descs, ports := t.ports, parkUsed := t.parkUsed, banks := t.banks, chans := t.chans }) ∧
    (s.mode ≠ .safe → ∃ t, exec (.parkRedelivery g k true) s = .next t ∧ (∀ z ∈ (t.group g).parked, z.id ≠ x.id) ∧
      t.descs = s.descs ∧ t.mode = s.mode ∧ t.keys = s.keys ∧ t.cfg = s.cfg) ∧
    (∀ b, s.mode = .safe → exec (.parkRedelivery g k b) s = .next s)) ∧
  (∀ (s : State) (r : Report) (l : List Report) (m : McastRec) (v : VhRec), Safety.Canonical s → tsorted 0 (s.vh m.vh).rings = true →
    s.reports = r :: l → mcastRec s r.group = some m → s.vhRec m.vh = some v →
    let z := tget {} (s.vh m.vh).rings m.vhIndex
    ∃ t y, exec .deliveryReportWrite s = .next t ∧ t.reports = l ∧ t.staging = s.staging ++ [y] ∧ y.owner = ownerM ∧ y.tlp.kind = .mwr ∧
      y.tlp.data = reportEntry r ∧ y.tlp.addr = w64 (z.addr.toNat + 32 * z.next) ∧
      tget {} (t.vh m.vh).rings m.vhIndex = { z with next := (z.next + 1) % 2 ^ z.log2 } ∧
      t = { s with reports := t.reports, staging := t.staging, nextId := t.nextId, vhs := t.vhs }) ∧
  (∀ s : State, s.reports = [] → exec .deliveryReportWrite s = .next s) ∧
  (∀ (s : State) (x : Sample) (l : List Sample), Safety.Canonical s → s.samples = x :: l → x.tap < 32 →
    (∃ t, exec (.sampleWrite true) s = .next t ∧ t.samples = l ∧
      t.reg (offMcgA (0x20004 + 16 * x.tap)) = w32 (sat32 (s.reg (offMcgA (0x20004 + 16 * x.tap))).toNat 1) ∧
      t = { s with samples := t.samples, regs := t.regs }) ∧
    ((s.reg (offMcgA 0x20400)).toNat < 256 → ∃ t, exec (.sampleWrite false) s = .next t ∧ t.samples = l ∧
      t.reg (offMcgA 0x20400) = w32 (((s.reg (offMcgA 0x20400)).toNat + 1) % 256) ∧
      t.reg (offMcgA (0x20008 + 16 * x.tap)) = w32 ((s.reg (offMcgA (0x20008 + 16 * x.tap))).toNat + 1) ∧
      (∀ j, j < 32 → t.reg (offMcgA (0x30000 + 128 * (s.reg (offMcgA 0x20400)).toNat + 4 * j))
        = w32 ((wordsOf 32 (sampleEntry x (s.reg (offMcgA (0x20008 + 16 * x.tap))).toNat 0)).getD j 0)) ∧
      t = { s with samples := t.samples, regs := t.regs, staging := t.staging, nextId := t.nextId, tapRing := t.tapRing }))


/-! The Crucible pool. -/

/-- A VF (R239, R240, R243 to R246): a pop takes the oldest notification only with all four byte enables; the tail is the host's; Bus Master
Enable cleared ends every descriptor in progress; an FLR clears the function, once, and ends with its last open request or after 90 ms; a
NOTIFY queues one entry at its consumer. Model's choices in it: log entries 63, 73, 93. -/
def Obligations.VfControlsActOnOneFunction : Prop :=
  (∀ (s : State) (n : TenantId), Safety.Canonical s → (s.tenantRec n).isSome = true → tfind s.evict n = none → (s.vf n).flr = none →
    s.inRunModes = true →
    (∀ w l, (s.vf n).ntfy = w :: l →
      (∃ t, exec (.vfNtfypopRead n 15) s = .next t ∧ t.vf n = { s.vf n with ntfy := l } ∧ t.out = .vfRead n w :: s.out ∧
        (∀ y, y ≠ n.val → t.vf y = s.vf y) ∧ t = { s with vfs := t.vfs, out := t.out }) ∧
      ∀ be, be ≠ 15 → exec (.vfNtfypopRead n be) s = .next { s with out := .vfRead n w :: s.out }) ∧
    (∀ be, (s.vf n).ntfy = [] → exec (.vfNtfypopRead n be) s = .next { s with out := .vfRead n 0 :: s.out }) ∧
    (∀ x, ∃ t, exec (.vfSqtailWrite n x) s = .next t ∧ t.vf n = { s.vf n with tail := x } ∧ (∀ y, y ≠ n.val → t.vf y = s.vf y) ∧
      t = { s with vfs := t.vfs })) ∧
  (∀ (s : State) (n : TenantId) (be : BitVec 4) (x : BitVec 6), ((s.tenantRec n).isNone = true ∨ (tfind s.evict n).isSome = true ∨
    (s.vf n).flr.isSome = true ∨ s.inRunModes = false) → exec (.vfNtfypopRead n be) s = .next s ∧ exec (.vfSqtailWrite n x) s = .next s) ∧
  (∀ (s : State) (n : TenantId), Safety.Canonical s → (s.tenantRec n).isSome = true → s.inRunModes = true →
    (∃ t, exec (.vfBmeClear n) s = .next t ∧ (t.vf n).bme = false ∧ (t.vf n).jobs = [] ∧ (∀ y, y ≠ n.val → t.vf y = s.vf y) ∧
      t = { s with vfs := t.vfs }) ∧
    (∃ t, exec (.vfBmeSet n) s = .next t ∧ (t.vf n).bme = true ∧ (∀ y, y ≠ n.val → t.vf y = s.vf y) ∧
      t = { s with vfs := t.vfs, staging := t.staging, nextId := t.nextId }) ∧
    ((s.vf n).flr = none → ∃ t, exec (.vfFlr n) s = .next t ∧ (t.vf n).flr = some s.clock ∧ (t.vf n).bme = false ∧ (t.vf n).jobs = [] ∧
      (t.vf n).ring = [] ∧ (t.vf n).ntfy = [] ∧ (t.vf n).head = 0 ∧ (t.vf n).tail = 0 ∧ (t.vf n).evt = 0 ∧ (t.vf n).msix = [] ∧
      (t.vf n).pba = 0 ∧ (∀ y, y ≠ n.val → t.vf y = s.vf y) ∧ t = { s with vfs := t.vfs }) ∧
    ((s.vf n).flr.isSome = true → exec (.vfFlr n) s = .next s)) ∧
  (∀ (s : State) (n : TenantId) (x : Nat), Safety.Canonical s → (s.vf n).flr = some x →
    (vfOpen s n = [] → ∃ t, exec (.vfFlrComplete n) s = .next t ∧ t.vf n = { s.vf n with flr := none } ∧ t = { s with vfs := t.vfs }) ∧
    (vfOpen s n ≠ [] → s.clock < x + 90000000 → exec (.vfFlrComplete n) s = .next s) ∧
    (x + 90000000 ≤ s.clock → ∃ t, exec (.vfFlrComplete n) s = .next t ∧ vfOpen t n = [] ∧ t.vf n = { s.vf n with flr := none } ∧
      t = { s with vfs := t.vfs, tracker := t.tracker, staging := t.staging, nextId := t.nextId, ideQ := t.ideQ, regs := t.regs,
                   cupel := t.cupel })) ∧
  (∀ (s : State) (n : TenantId) (u : Nat) (j : Job) (l : List Job) (f : Fanout), (s.vf n).jobs = j :: l → vfHalted s n = false →
    descOp (s.vf n) j.entry = 4 → j.fail = 0 → j.told = false → (poolRec s).fanout[descList (s.vf n) j.entry]? = some f →
    consumers s f = [u] → u ≠ n.val → tfind s.evict u = none → (s.vf u).flr = none → (s.vf u).ntfy.length < 64 → ∃ t,
      exec (.notify n) s = .next t ∧ (∃ j' r, (t.vf n).jobs = j' :: r ∧ j' = { j with told := true }) ∧
      (t.vf u).ntfy = (s.vf u).ntfy ++ [w32 (2 ^ 31 + fld (descList (s.vf n) j.entry) 24 4 + fld (descTag (s.vf n) j.entry) 0 20)] ∧
      (∀ y, y ≠ n.val → y ≠ u → t.vf y = s.vf y) ∧ t = { s with vfs := t.vfs, regs := t.regs, staging := t.staging, nextId := t.nextId })

/-- The window and the engine (R230, R231, R240 to R242): a read or write that passes its checks reads or writes exactly its bytes of the
pool, a read that fails them changes no byte and is answered with its status; a descriptor starts with its own check, a pool copy moves its
bytes, and a descriptor that ends has its status written and the head past it. Model's choices in it: log entries 4, 60, 63. -/
def Obligations.WindowAndEngineAccessThePool : Prop :=
  (∀ (s : State) (n : TenantId) (a : WinAccess), Safety.Canonical s → s.inRunModes = true → (s.tenantRec n).isSome = true → tfind s.evict n = none →
    (∀ c x, a.kind = .mwr → s.poison = [] → translate s n a.offset a.data.length .mwr (isPriv (winTlp a) a.priv) (isExe (winTlp a)) = .ok c x →
      ∃ t, exec (.poolWindowAccess n a) s = .next t ∧ memRead t.poolMem (poolAddr c x) a.data.length = a.data ∧
        (∀ y, (y < poolAddr c x ∨ poolAddr c x + a.data.length ≤ y) → tget 0 t.poolMem y = tget 0 s.poolMem y) ∧
        t = { s with poolMem := t.poolMem, chans := t.chans }) ∧
    (∀ c x, a.kind = .mrd → s.poison = [] → a.err = none → 0 < a.len → x % mpsOf s n + a.len ≤ mpsOf s n →
      translate s n a.offset a.len .mrd (isPriv (winTlp a) a.priv) (isExe (winTlp a)) = .ok c x →
      ∃ t y, exec (.poolWindowAccess n a) s = .next t ∧ t.staging = s.staging ++ [y] ∧ y.tlp.kind = .cpl ∧ y.tlp.status = .sc ∧ y.tlp.tag = a.tag ∧
        y.tlp.data = memRead s.poolMem (poolAddr c x) a.len ∧ y.tlp.poisoned = false ∧ y.dest = .port a.port ∧ y.owner = n.val ∧
        t = { s with staging := t.staging, nextId := t.nextId, chans := t.chans }) ∧
    (∀ w, a.kind = .mrd → translate s n a.offset a.len .mrd (isPriv (winTlp a) a.priv) (isExe (winTlp a)) = .window w →
      ∃ t y, exec (.poolWindowAccess n a) s = .next t ∧ y ∈ t.staging ∧ y.tlp.kind = .cpl ∧ y.tlp.status = (if w = 4 then .ca else .ur) ∧
        y.tlp.tag = a.tag ∧ (t.vf n).winCause = w ∧ (t.vf n).winLast = a.offset ∧
        (t.vf n).winRej = w32 (sat32 (s.vf n).winRej.toNat 1) ∧ t.poolMem = s.poolMem ∧ t.lots = s.lots)) ∧
  (∀ (s : State) (n : TenantId) (a : WinAccess), (s.inRunModes = false ∨ (s.tenantRec n).isNone = true ∨ (tfind s.evict n).isSome = true) →
    exec (.poolWindowAccess n a) s = .next s) ∧
  (∀ (s : State) (n : TenantId), Safety.Canonical s → mayStartDesc s n = true →
    let e := ((s.vf n).head.toNat + (s.vf n).jobs.length) % 64
    ∃ t, exec (.engineDescriptorStart n) s = .next t ∧ (∃ j ∈ (t.vf n).jobs, j.entry = e ∧ (descFault s n e ≠ 0 → j.fail = descFault s n e)) ∧
      (t.vf n).head = (s.vf n).head ∧ t.poolMem = s.poolMem ∧ t.mode = s.mode ∧ t.keys = s.keys ∧ t.cfg = s.cfg) ∧
  (∀ (s : State) (n : TenantId), mayStartDesc s n = false → exec (.engineDescriptorStart n) s = .next s) ∧
  (∀ (s : State) (n : TenantId) (e : Option LineError), (vfHalted s n = true ∨ (s.vf n).jobs = []) → exec (.engineDescriptorDone n e) s = .next s) ∧
  (∀ (s : State) (n : TenantId) (j : Job), Safety.Canonical s → tsorted 0 (s.vf n).ring = true → vfHalted s n = false → (s.vf n).jobs = [j] →
    descIrq (s.vf n) j.entry = false →
    ((j.fail ≠ 0 ∨ descOp (s.vf n) j.entry = 0) → ∃ t, exec (.engineDescriptorDone n none) s = .next t ∧ (t.vf n).jobs = [] ∧
      (t.vf n).head = BitVec.ofNat 6 (j.entry + 1) ∧
      tget 0 (t.vf n).ring (8 * j.entry) = ((tget 0 (s.vf n).ring (8 * j.entry) &&& 0xFF00FFFF) ||| w32 (fld (if j.fail = 0 then 1 else j.fail) 16 8)) ∧
      t = { s with vfs := t.vfs }) ∧
    (∀ c x d z, j.fail = 0 → descOp (s.vf n) j.entry = 3 → s.poison = [] → 0 < descLen (s.vf n) j.entry →
      descSrc (s.vf n) j.entry % 4096 + descLen (s.vf n) j.entry ≤ 4096 → descDst (s.vf n) j.entry % 4096 + descLen (s.vf n) j.entry ≤ 4096 →
      translate s n (descSrc (s.vf n) j.entry) (descLen (s.vf n) j.entry) .mrd false false = .ok c x →
      translate s n (descDst (s.vf n) j.entry) (descLen (s.vf n) j.entry) .mwr false false = .ok d z → ∃ t,
        exec (.engineDescriptorDone n none) s = .next t ∧ (t.vf n).jobs = [] ∧
          memRead t.poolMem (poolAddr d z) (descLen (s.vf n) j.entry) = memRead s.poolMem (poolAddr c x) (descLen (s.vf n) j.entry) ∧
          (∀ y, (y < poolAddr d z ∨ poolAddr d z + descLen (s.vf n) j.entry ≤ y) → tget 0 t.poolMem y = tget 0 s.poolMem y) ∧
          t = { s with vfs := t.vfs, chans := t.chans, poolMem := t.poolMem }))

/-- Channels and lots (R225 to R227, R232 to R235, R247 to R249): a channel that is trained and of its recorded size comes up with its lots,
else it is LOST with its cause; an idle one may refresh itself; a filled lot reads zero and is READY for its owner or FREE; a patrol burst
advances the pass and poisons what it cannot correct; alerts are counted, and a channel of CH_MASK that is lost in Run degrades the device.
Model's choices in it: log entries 4, 63. -/
def Obligations.ChannelsAndLotsComeUpAndAreLost : Prop :=
  (∀ (s : State) (c : ChanId) (p : ChannelProbe) (r : PoolRec), Safety.Canonical s → s.cfg.pool = some r → s.mode = .assay → (s.chan c).st < 2 →
    bitN r.chMask c = true →
    (bringupCause s c p = 0 → ∃ t, exec (.channelBringup c p) s = .next t ∧ (t.chan c).st = 2 ∧ (t.chan c).lots = 16 * p.capGib ∧
      (∀ i, i < 16 * p.capGib → i < 4096 → (t.lot (4096 * c + i)).st = 2 ∨ (t.lot (4096 * c + i)).st = 4) ∧
      (∀ l : Nat, (l < 4096 * c ∨ 4096 * c + 4096 ≤ l) → t.lot l = s.lot l) ∧ t = { s with chans := t.chans, lots := t.lots }) ∧
    (bringupCause s c p ≠ 0 → ∃ t, exec (.channelBringup c p) s = .next t ∧ (t.chan c).st = 3 ∧ (t.chan c).cause = bringupCause s c p ∧
      t.lots = s.lots ∧ t.mode = s.mode ∧ t.keys = s.keys ∧ t.cfg = s.cfg)) ∧
  (∀ (s : State) (c : ChanId), (s.chan c).st = 2 → fillPending s c = 0 →
    ((s.chan c).lastUse + 1000 * (poolRec s).srIdleUs ≤ s.clock → ∃ t, exec (.selfRefreshEntry c) s = .next t ∧
      t.chan c = { s.chan c with selfRef := true } ∧ t = { s with chans := t.chans }) ∧
    (s.clock < (s.chan c).lastUse + 1000 * (poolRec s).srIdleUs → exec (.selfRefreshEntry c) s = .next s)) ∧
  (∀ (s : State) (l : Fin 8192), (s.lot l).st = 2 → (s.chan (l.val / 4096)).st = 2 → fillTurn s l = true →
    let a := poolAddr (l.val / 4096) (l.val % 4096 * 2 ^ 26)
    ∃ t, exec (.lotFillDone l) s = .next t ∧ (∀ x, a ≤ x → x < a + 2 ^ 26 → tget 0 t.poolMem x = 0) ∧
      (∀ x, (x < a ∨ a + 2 ^ 26 ≤ x) → tget 0 t.poolMem x = tget 0 s.poolMem x) ∧
      t.lot l = { s.lot l with st := if (s.lot l).owner = 0x1FF then 1 else 3 } ∧ (∀ k, k ≠ l.val → t.lot k = s.lot k) ∧
      (∀ k ∈ t.poison, k < a ∨ a + 2 ^ 26 ≤ k) ∧
      t = { s with poolMem := t.poolMem, poison := t.poison, chans := t.chans, lots := t.lots, vfs := t.vfs, staging := t.staging, nextId := t.nextId }) ∧
  (∀ (s : State) (c : ChanId), (s.chan c).st = 2 → (s.chan c).initFill = true →
    (∃ t, exec (.patrolBurst c []) s = .next t ∧ t = { s with chans := t.chans } ∧
      (3600 * (poolRec s).patrolHours ≤ (s.chan c).progress + 1 → (t.chan c).progress = 0 ∧ (t.chan c).passes = ((s.chan c).passes + 1) % 65536) ∧
      ((s.chan c).progress + 1 < 3600 * (poolRec s).patrolHours → (t.chan c).progress = (s.chan c).progress + 1 ∧
        (t.chan c).passes = (s.chan c).passes)) ∧
    (∀ k, ∃ t, exec (.patrolBurst c [.uncorrectable k]) s = .next t ∧ poolAddr c (64 * k) ∈ t.poison ∧
      t = { s with chans := t.chans, poison := t.poison, regs := t.regs, vfs := t.vfs, cupel := t.cupel, staging := t.staging, nextId := t.nextId })) ∧
  (∀ (s : State) (c : ChanId), (s.chan c).st = 2 →
    (∀ n b, Safety.Canonical s → (b = true ∨ n < 3) → ∃ t, exec (.ddrAlert c n b) s = .next t ∧ (t.chan c).st = 2 ∧
      t.reg (offChan c 0x10) = w32 (sat32 (s.reg (offChan c 0x10)).toNat (min n 3)) ∧ w32Bit (t.reg (offChan c 0x04)) 0 = true ∧
      t = { s with chans := t.chans, regs := t.regs, cupel := t.cupel }) ∧
    (∀ n, 3 ≤ n → bitN (poolRec s).chMask c = true → ∃ t, exec (.ddrAlert c n false) s = .next t ∧ (t.chan c).st = 3 ∧ (t.chan c).cause = 6 ∧
      t.keys = s.keys ∧ t.cfg = s.cfg ∧
      t.poolMem = s.poolMem) ∧
    (bitN (poolRec s).chMask c = false → exec (.channelLost c true) s = .next s) ∧
    (bitN (poolRec s).chMask c = true → ∃ t, exec (.channelLost c true) s = .next t ∧ (t.chan c).st = 3 ∧ (t.chan c).cause = 6 ∧ (s.mode = .run →
      t.mode = .degraded ∧ t.modeCause = 4) ∧
      t.keys = s.keys ∧ t.cfg = s.cfg ∧ t.poolMem = s.poolMem) ∧
    (bitN (poolRec s).chMask c = true → (poolRec s).ueLimit < (s.chan c).ueSecond → ∃ t, exec (.channelLost c false) s = .next t ∧
      (t.chan c).st = 3 ∧ (t.chan c).cause = 7 ∧
      (s.mode = .run → t.mode = .degraded ∧ t.modeCause = 4) ∧ t.keys = s.keys ∧ t.cfg = s.cfg ∧ t.poolMem = s.poolMem) ∧
    ((s.chan c).ueSecond ≤ (poolRec s).ueLimit → exec (.channelLost c false) s = .next s))
end

