-- ==== Sys2Proof/Laws/State.lean ====
section
/-! SUPPORT. What each update of State leaves as it was, and what it writes: one lemma per field and update. -/

namespace Sys2Proof.Machine.State

@[simp] theorem setReg_pending (s : State) (o : Nat) (v : W32) : (s.setReg o v).pending = s.pending := rfl
@[simp] theorem setReg_clock (s : State) (o : Nat) (v : W32) : (s.setReg o v).clock = s.clock := rfl
@[simp] theorem setReg_mode (s : State) (o : Nat) (v : W32) : (s.setReg o v).mode = s.mode := rfl
@[simp] theorem setReg_modeCause (s : State) (o : Nat) (v : W32) : (s.setReg o v).modeCause = s.modeCause := rfl
@[simp] theorem setReg_resetCause (s : State) (o : Nat) (v : W32) : (s.setReg o v).resetCause = s.resetCause := rfl
@[simp] theorem setReg_pwrgd (s : State) (o : Nat) (v : W32) : (s.setReg o v).pwrgd = s.pwrgd := rfl
@[simp] theorem setReg_perstN (s : State) (o : Nat) (v : W32) : (s.setReg o v).perstN = s.perstN := rfl
@[simp] theorem setReg_alive (s : State) (o : Nat) (v : W32) : (s.setReg o v).alive = s.alive := rfl
@[simp] theorem setReg_faultN (s : State) (o : Nat) (v : W32) : (s.setReg o v).faultN = s.faultN := rfl
@[simp] theorem setReg_xspi (s : State) (o : Nat) (v : W32) : (s.setReg o v).xspi = s.xspi := rfl
@[simp] theorem setReg_hkRunning (s : State) (o : Nat) (v : W32) : (s.setReg o v).hkRunning = s.hkRunning := rfl
@[simp] theorem setReg_unusable (s : State) (o : Nat) (v : W32) : (s.setReg o v).unusable = s.unusable := rfl
@[simp] theorem setReg_banksOut (s : State) (o : Nat) (v : W32) : (s.setReg o v).banksOut = s.banksOut := rfl
@[simp] theorem setReg_peerLost (s : State) (o : Nat) (v : W32) : (s.setReg o v).peerLost = s.peerLost := rfl
@[simp] theorem setReg_time (s : State) (o : Nat) (v : W32) : (s.setReg o v).time = s.time := rfl
@[simp] theorem setReg_keys (s : State) (o : Nat) (v : W32) : (s.setReg o v).keys = s.keys := rfl
@[simp] theorem setReg_sec (s : State) (o : Nat) (v : W32) : (s.setReg o v).sec = s.sec := rfl
@[simp] theorem setReg_fetchStep (s : State) (o : Nat) (v : W32) : (s.setReg o v).fetchStep = s.fetchStep := rfl
@[simp] theorem setReg_verified (s : State) (o : Nat) (v : W32) : (s.setReg o v).verified = s.verified := rfl
@[simp] theorem setReg_ingotLive (s : State) (o : Nat) (v : W32) : (s.setReg o v).ingotLive = s.ingotLive := rfl
@[simp] theorem setReg_ingCause0 (s : State) (o : Nat) (v : W32) : (s.setReg o v).ingCause0 = s.ingCause0 := rfl
@[simp] theorem setReg_ingCause1 (s : State) (o : Nat) (v : W32) : (s.setReg o v).ingCause1 = s.ingCause1 := rfl
@[simp] theorem setReg_cfg (s : State) (o : Nat) (v : W32) : (s.setReg o v).cfg = s.cfg := rfl
@[simp] theorem setReg_records (s : State) (o : Nat) (v : W32) : (s.setReg o v).records = s.records := rfl
@[simp] theorem setReg_loadPorts (s : State) (o : Nat) (v : W32) : (s.setReg o v).loadPorts = s.loadPorts := rfl
@[simp] theorem setReg_mbx (s : State) (o : Nat) (v : W32) : (s.setReg o v).mbx = s.mbx := rfl
@[simp] theorem setReg_i3c (s : State) (o : Nat) (v : W32) : (s.setReg o v).i3c = s.i3c := rfl
@[simp] theorem setReg_stations (s : State) (o : Nat) (v : W32) : (s.setReg o v).stations = s.stations := rfl
@[simp] theorem setReg_ports (s : State) (o : Nat) (v : W32) : (s.setReg o v).ports = s.ports := rfl
@[simp] theorem setReg_bridges (s : State) (o : Nat) (v : W32) : (s.setReg o v).bridges = s.bridges := rfl
@[simp] theorem setReg_vhs (s : State) (o : Nat) (v : W32) : (s.setReg o v).vhs = s.vhs := rfl
@[simp] theorem setReg_nextId (s : State) (o : Nat) (v : W32) : (s.setReg o v).nextId = s.nextId := rfl
@[simp] theorem setReg_picks (s : State) (o : Nat) (v : W32) : (s.setReg o v).picks = s.picks := rfl
@[simp] theorem setReg_staging (s : State) (o : Nat) (v : W32) : (s.setReg o v).staging = s.staging := rfl
@[simp] theorem setReg_descs (s : State) (o : Nat) (v : W32) : (s.setReg o v).descs = s.descs := rfl
@[simp] theorem setReg_mcEntries (s : State) (o : Nat) (v : W32) : (s.setReg o v).mcEntries = s.mcEntries := rfl
@[simp] theorem setReg_mcWaits (s : State) (o : Nat) (v : W32) : (s.setReg o v).mcWaits = s.mcWaits := rfl
@[simp] theorem setReg_used (s : State) (o : Nat) (v : W32) : (s.setReg o v).used = s.used := rfl
@[simp] theorem setReg_usedTo (s : State) (o : Nat) (v : W32) : (s.setReg o v).usedTo = s.usedTo := rfl
@[simp] theorem setReg_parkUsed (s : State) (o : Nat) (v : W32) : (s.setReg o v).parkUsed = s.parkUsed := rfl
@[simp] theorem setReg_thr (s : State) (o : Nat) (v : W32) : (s.setReg o v).thr = s.thr := rfl
@[simp] theorem setReg_banks (s : State) (o : Nat) (v : W32) : (s.setReg o v).banks = s.banks := rfl
@[simp] theorem setReg_ended (s : State) (o : Nat) (v : W32) : (s.setReg o v).ended = s.ended := rfl
@[simp] theorem setReg_bankCe (s : State) (o : Nat) (v : W32) : (s.setReg o v).bankCe = s.bankCe := rfl
@[simp] theorem setReg_tracker (s : State) (o : Nat) (v : W32) : (s.setReg o v).tracker = s.tracker := rfl
@[simp] theorem setReg_ideQ (s : State) (o : Nat) (v : W32) : (s.setReg o v).ideQ = s.ideQ := rfl
@[simp] theorem setReg_groups (s : State) (o : Nat) (v : W32) : (s.setReg o v).groups = s.groups := rfl
@[simp] theorem setReg_reports (s : State) (o : Nat) (v : W32) : (s.setReg o v).reports = s.reports := rfl
@[simp] theorem setReg_tapCount (s : State) (o : Nat) (v : W32) : (s.setReg o v).tapCount = s.tapCount := rfl
@[simp] theorem setReg_tapRing (s : State) (o : Nat) (v : W32) : (s.setReg o v).tapRing = s.tapRing := rfl
@[simp] theorem setReg_samples (s : State) (o : Nat) (v : W32) : (s.setReg o v).samples = s.samples := rfl
@[simp] theorem setReg_shapers (s : State) (o : Nat) (v : W32) : (s.setReg o v).shapers = s.shapers := rfl
@[simp] theorem setReg_policers (s : State) (o : Nat) (v : W32) : (s.setReg o v).policers = s.policers := rfl
@[simp] theorem setReg_evict (s : State) (o : Nat) (v : W32) : (s.setReg o v).evict = s.evict := rfl
@[simp] theorem setReg_gateMs (s : State) (o : Nat) (v : W32) : (s.setReg o v).gateMs = s.gateMs := rfl
@[simp] theorem setReg_chans (s : State) (o : Nat) (v : W32) : (s.setReg o v).chans = s.chans := rfl
@[simp] theorem setReg_lots (s : State) (o : Nat) (v : W32) : (s.setReg o v).lots = s.lots := rfl
@[simp] theorem setReg_vfs (s : State) (o : Nat) (v : W32) : (s.setReg o v).vfs = s.vfs := rfl
@[simp] theorem setReg_poolMem (s : State) (o : Nat) (v : W32) : (s.setReg o v).poolMem = s.poolMem := rfl
@[simp] theorem setReg_poison (s : State) (o : Nat) (v : W32) : (s.setReg o v).poison = s.poison := rfl
@[simp] theorem setReg_hkMem (s : State) (o : Nat) (v : W32) : (s.setReg o v).hkMem = s.hkMem := rfl
@[simp] theorem setReg_fab (s : State) (o : Nat) (v : W32) : (s.setReg o v).fab = s.fab := rfl
@[simp] theorem setReg_cupel (s : State) (o : Nat) (v : W32) : (s.setReg o v).cupel = s.cupel := rfl
@[simp] theorem setReg_slots (s : State) (o : Nat) (v : W32) : (s.setReg o v).slots = s.slots := rfl
@[simp] theorem setReg_pd (s : State) (o : Nat) (v : W32) : (s.setReg o v).pd = s.pd := rfl
@[simp] theorem setReg_d2d (s : State) (o : Nat) (v : W32) : (s.setReg o v).d2d = s.d2d := rfl
@[simp] theorem setReg_assay (s : State) (o : Nat) (v : W32) : (s.setReg o v).assay = s.assay := rfl
@[simp] theorem setReg_out (s : State) (o : Nat) (v : W32) : (s.setReg o v).out = s.out := rfl

@[simp] theorem bump_pending (s : State) (o n : Nat) : (s.bump o n).pending = s.pending := rfl
@[simp] theorem bump_clock (s : State) (o n : Nat) : (s.bump o n).clock = s.clock := rfl
@[simp] theorem bump_mode (s : State) (o n : Nat) : (s.bump o n).mode = s.mode := rfl
@[simp] theorem bump_modeCause (s : State) (o n : Nat) : (s.bump o n).modeCause = s.modeCause := rfl
@[simp] theorem bump_resetCause (s : State) (o n : Nat) : (s.bump o n).resetCause = s.resetCause := rfl
@[simp] theorem bump_pwrgd (s : State) (o n : Nat) : (s.bump o n).pwrgd = s.pwrgd := rfl
@[simp] theorem bump_perstN (s : State) (o n : Nat) : (s.bump o n).perstN = s.perstN := rfl
@[simp] theorem bump_alive (s : State) (o n : Nat) : (s.bump o n).alive = s.alive := rfl
@[simp] theorem bump_faultN (s : State) (o n : Nat) : (s.bump o n).faultN = s.faultN := rfl
@[simp] theorem bump_xspi (s : State) (o n : Nat) : (s.bump o n).xspi = s.xspi := rfl
@[simp] theorem bump_hkRunning (s : State) (o n : Nat) : (s.bump o n).hkRunning = s.hkRunning := rfl
@[simp] theorem bump_unusable (s : State) (o n : Nat) : (s.bump o n).unusable = s.unusable := rfl
@[simp] theorem bump_banksOut (s : State) (o n : Nat) : (s.bump o n).banksOut = s.banksOut := rfl
@[simp] theorem bump_peerLost (s : State) (o n : Nat) : (s.bump o n).peerLost = s.peerLost := rfl
@[simp] theorem bump_time (s : State) (o n : Nat) : (s.bump o n).time = s.time := rfl
@[simp] theorem bump_keys (s : State) (o n : Nat) : (s.bump o n).keys = s.keys := rfl
@[simp] theorem bump_sec (s : State) (o n : Nat) : (s.bump o n).sec = s.sec := rfl
@[simp] theorem bump_fetchStep (s : State) (o n : Nat) : (s.bump o n).fetchStep = s.fetchStep := rfl
@[simp] theorem bump_verified (s : State) (o n : Nat) : (s.bump o n).verified = s.verified := rfl
@[simp] theorem bump_ingotLive (s : State) (o n : Nat) : (s.bump o n).ingotLive = s.ingotLive := rfl
@[simp] theorem bump_ingCause0 (s : State) (o n : Nat) : (s.bump o n).ingCause0 = s.ingCause0 := rfl
@[simp] theorem bump_ingCause1 (s : State) (o n : Nat) : (s.bump o n).ingCause1 = s.ingCause1 := rfl
@[simp] theorem bump_cfg (s : State) (o n : Nat) : (s.bump o n).cfg = s.cfg := rfl
@[simp] theorem bump_records (s : State) (o n : Nat) : (s.bump o n).records = s.records := rfl
@[simp] theorem bump_loadPorts (s : State) (o n : Nat) : (s.bump o n).loadPorts = s.loadPorts := rfl
@[simp] theorem bump_mbx (s : State) (o n : Nat) : (s.bump o n).mbx = s.mbx := rfl
@[simp] theorem bump_i3c (s : State) (o n : Nat) : (s.bump o n).i3c = s.i3c := rfl
@[simp] theorem bump_stations (s : State) (o n : Nat) : (s.bump o n).stations = s.stations := rfl
@[simp] theorem bump_ports (s : State) (o n : Nat) : (s.bump o n).ports = s.ports := rfl
@[simp] theorem bump_bridges (s : State) (o n : Nat) : (s.bump o n).bridges = s.bridges := rfl
@[simp] theorem bump_vhs (s : State) (o n : Nat) : (s.bump o n).vhs = s.vhs := rfl
@[simp] theorem bump_nextId (s : State) (o n : Nat) : (s.bump o n).nextId = s.nextId := rfl
@[simp] theorem bump_picks (s : State) (o n : Nat) : (s.bump o n).picks = s.picks := rfl
@[simp] theorem bump_staging (s : State) (o n : Nat) : (s.bump o n).staging = s.staging := rfl
@[simp] theorem bump_descs (s : State) (o n : Nat) : (s.bump o n).descs = s.descs := rfl
@[simp] theorem bump_mcEntries (s : State) (o n : Nat) : (s.bump o n).mcEntries = s.mcEntries := rfl
@[simp] theorem bump_mcWaits (s : State) (o n : Nat) : (s.bump o n).mcWaits = s.mcWaits := rfl
@[simp] theorem bump_used (s : State) (o n : Nat) : (s.bump o n).used = s.used := rfl
@[simp] theorem bump_usedTo (s : State) (o n : Nat) : (s.bump o n).usedTo = s.usedTo := rfl
@[simp] theorem bump_parkUsed (s : State) (o n : Nat) : (s.bump o n).parkUsed = s.parkUsed := rfl
@[simp] theorem bump_thr (s : State) (o n : Nat) : (s.bump o n).thr = s.thr := rfl
@[simp] theorem bump_banks (s : State) (o n : Nat) : (s.bump o n).banks = s.banks := rfl
@[simp] theorem bump_ended (s : State) (o n : Nat) : (s.bump o n).ended = s.ended := rfl
@[simp] theorem bump_bankCe (s : State) (o n : Nat) : (s.bump o n).bankCe = s.bankCe := rfl
@[simp] theorem bump_tracker (s : State) (o n : Nat) : (s.bump o n).tracker = s.tracker := rfl
@[simp] theorem bump_ideQ (s : State) (o n : Nat) : (s.bump o n).ideQ = s.ideQ := rfl
@[simp] theorem bump_groups (s : State) (o n : Nat) : (s.bump o n).groups = s.groups := rfl
@[simp] theorem bump_reports (s : State) (o n : Nat) : (s.bump o n).reports = s.reports := rfl
@[simp] theorem bump_tapCount (s : State) (o n : Nat) : (s.bump o n).tapCount = s.tapCount := rfl
@[simp] theorem bump_tapRing (s : State) (o n : Nat) : (s.bump o n).tapRing = s.tapRing := rfl
@[simp] theorem bump_samples (s : State) (o n : Nat) : (s.bump o n).samples = s.samples := rfl
@[simp] theorem bump_shapers (s : State) (o n : Nat) : (s.bump o n).shapers = s.shapers := rfl
@[simp] theorem bump_policers (s : State) (o n : Nat) : (s.bump o n).policers = s.policers := rfl
@[simp] theorem bump_evict (s : State) (o n : Nat) : (s.bump o n).evict = s.evict := rfl
@[simp] theorem bump_gateMs (s : State) (o n : Nat) : (s.bump o n).gateMs = s.gateMs := rfl
@[simp] theorem bump_chans (s : State) (o n : Nat) : (s.bump o n).chans = s.chans := rfl
@[simp] theorem bump_lots (s : State) (o n : Nat) : (s.bump o n).lots = s.lots := rfl
@[simp] theorem bump_vfs (s : State) (o n : Nat) : (s.bump o n).vfs = s.vfs := rfl
@[simp] theorem bump_poolMem (s : State) (o n : Nat) : (s.bump o n).poolMem = s.poolMem := rfl
@[simp] theorem bump_poison (s : State) (o n : Nat) : (s.bump o n).poison = s.poison := rfl
@[simp] theorem bump_hkMem (s : State) (o n : Nat) : (s.bump o n).hkMem = s.hkMem := rfl
@[simp] theorem bump_fab (s : State) (o n : Nat) : (s.bump o n).fab = s.fab := rfl
@[simp] theorem bump_cupel (s : State) (o n : Nat) : (s.bump o n).cupel = s.cupel := rfl
@[simp] theorem bump_slots (s : State) (o n : Nat) : (s.bump o n).slots = s.slots := rfl
@[simp] theorem bump_pd (s : State) (o n : Nat) : (s.bump o n).pd = s.pd := rfl
@[simp] theorem bump_d2d (s : State) (o n : Nat) : (s.bump o n).d2d = s.d2d := rfl
@[simp] theorem bump_assay (s : State) (o n : Nat) : (s.bump o n).assay = s.assay := rfl
@[simp] theorem bump_out (s : State) (o n : Nat) : (s.bump o n).out = s.out := rfl

@[simp] theorem setEvt_pending (s : State) (o b : Nat) : (s.setEvt o b).pending = s.pending := rfl
@[simp] theorem setEvt_clock (s : State) (o b : Nat) : (s.setEvt o b).clock = s.clock := rfl
@[simp] theorem setEvt_mode (s : State) (o b : Nat) : (s.setEvt o b).mode = s.mode := rfl
@[simp] theorem setEvt_modeCause (s : State) (o b : Nat) : (s.setEvt o b).modeCause = s.modeCause := rfl
@[simp] theorem setEvt_resetCause (s : State) (o b : Nat) : (s.setEvt o b).resetCause = s.resetCause := rfl
@[simp] theorem setEvt_pwrgd (s : State) (o b : Nat) : (s.setEvt o b).pwrgd = s.pwrgd := rfl
@[simp] theorem setEvt_perstN (s : State) (o b : Nat) : (s.setEvt o b).perstN = s.perstN := rfl
@[simp] theorem setEvt_alive (s : State) (o b : Nat) : (s.setEvt o b).alive = s.alive := rfl
@[simp] theorem setEvt_faultN (s : State) (o b : Nat) : (s.setEvt o b).faultN = s.faultN := rfl
@[simp] theorem setEvt_xspi (s : State) (o b : Nat) : (s.setEvt o b).xspi = s.xspi := rfl
@[simp] theorem setEvt_hkRunning (s : State) (o b : Nat) : (s.setEvt o b).hkRunning = s.hkRunning := rfl
@[simp] theorem setEvt_unusable (s : State) (o b : Nat) : (s.setEvt o b).unusable = s.unusable := rfl
@[simp] theorem setEvt_banksOut (s : State) (o b : Nat) : (s.setEvt o b).banksOut = s.banksOut := rfl
@[simp] theorem setEvt_peerLost (s : State) (o b : Nat) : (s.setEvt o b).peerLost = s.peerLost := rfl
@[simp] theorem setEvt_time (s : State) (o b : Nat) : (s.setEvt o b).time = s.time := rfl
@[simp] theorem setEvt_keys (s : State) (o b : Nat) : (s.setEvt o b).keys = s.keys := rfl
@[simp] theorem setEvt_sec (s : State) (o b : Nat) : (s.setEvt o b).sec = s.sec := rfl
@[simp] theorem setEvt_fetchStep (s : State) (o b : Nat) : (s.setEvt o b).fetchStep = s.fetchStep := rfl
@[simp] theorem setEvt_verified (s : State) (o b : Nat) : (s.setEvt o b).verified = s.verified := rfl
@[simp] theorem setEvt_ingotLive (s : State) (o b : Nat) : (s.setEvt o b).ingotLive = s.ingotLive := rfl
@[simp] theorem setEvt_ingCause0 (s : State) (o b : Nat) : (s.setEvt o b).ingCause0 = s.ingCause0 := rfl
@[simp] theorem setEvt_ingCause1 (s : State) (o b : Nat) : (s.setEvt o b).ingCause1 = s.ingCause1 := rfl
@[simp] theorem setEvt_cfg (s : State) (o b : Nat) : (s.setEvt o b).cfg = s.cfg := rfl
@[simp] theorem setEvt_records (s : State) (o b : Nat) : (s.setEvt o b).records = s.records := rfl
@[simp] theorem setEvt_loadPorts (s : State) (o b : Nat) : (s.setEvt o b).loadPorts = s.loadPorts := rfl
@[simp] theorem setEvt_mbx (s : State) (o b : Nat) : (s.setEvt o b).mbx = s.mbx := rfl
@[simp] theorem setEvt_i3c (s : State) (o b : Nat) : (s.setEvt o b).i3c = s.i3c := rfl
@[simp] theorem setEvt_stations (s : State) (o b : Nat) : (s.setEvt o b).stations = s.stations := rfl
@[simp] theorem setEvt_ports (s : State) (o b : Nat) : (s.setEvt o b).ports = s.ports := rfl
@[simp] theorem setEvt_bridges (s : State) (o b : Nat) : (s.setEvt o b).bridges = s.bridges := rfl
@[simp] theorem setEvt_vhs (s : State) (o b : Nat) : (s.setEvt o b).vhs = s.vhs := rfl
@[simp] theorem setEvt_nextId (s : State) (o b : Nat) : (s.setEvt o b).nextId = s.nextId := rfl
@[simp] theorem setEvt_picks (s : State) (o b : Nat) : (s.setEvt o b).picks = s.picks := rfl
@[simp] theorem setEvt_staging (s : State) (o b : Nat) : (s.setEvt o b).staging = s.staging := rfl
@[simp] theorem setEvt_descs (s : State) (o b : Nat) : (s.setEvt o b).descs = s.descs := rfl
@[simp] theorem setEvt_mcEntries (s : State) (o b : Nat) : (s.setEvt o b).mcEntries = s.mcEntries := rfl
@[simp] theorem setEvt_mcWaits (s : State) (o b : Nat) : (s.setEvt o b).mcWaits = s.mcWaits := rfl
@[simp] theorem setEvt_used (s : State) (o b : Nat) : (s.setEvt o b).used = s.used := rfl
@[simp] theorem setEvt_usedTo (s : State) (o b : Nat) : (s.setEvt o b).usedTo = s.usedTo := rfl
@[simp] theorem setEvt_parkUsed (s : State) (o b : Nat) : (s.setEvt o b).parkUsed = s.parkUsed := rfl
@[simp] theorem setEvt_thr (s : State) (o b : Nat) : (s.setEvt o b).thr = s.thr := rfl
@[simp] theorem setEvt_banks (s : State) (o b : Nat) : (s.setEvt o b).banks = s.banks := rfl
@[simp] theorem setEvt_ended (s : State) (o b : Nat) : (s.setEvt o b).ended = s.ended := rfl
@[simp] theorem setEvt_bankCe (s : State) (o b : Nat) : (s.setEvt o b).bankCe = s.bankCe := rfl
@[simp] theorem setEvt_tracker (s : State) (o b : Nat) : (s.setEvt o b).tracker = s.tracker := rfl
@[simp] theorem setEvt_ideQ (s : State) (o b : Nat) : (s.setEvt o b).ideQ = s.ideQ := rfl
@[simp] theorem setEvt_groups (s : State) (o b : Nat) : (s.setEvt o b).groups = s.groups := rfl
@[simp] theorem setEvt_reports (s : State) (o b : Nat) : (s.setEvt o b).reports = s.reports := rfl
@[simp] theorem setEvt_tapCount (s : State) (o b : Nat) : (s.setEvt o b).tapCount = s.tapCount := rfl
@[simp] theorem setEvt_tapRing (s : State) (o b : Nat) : (s.setEvt o b).tapRing = s.tapRing := rfl
@[simp] theorem setEvt_samples (s : State) (o b : Nat) : (s.setEvt o b).samples = s.samples := rfl
@[simp] theorem setEvt_shapers (s : State) (o b : Nat) : (s.setEvt o b).shapers = s.shapers := rfl
@[simp] theorem setEvt_policers (s : State) (o b : Nat) : (s.setEvt o b).policers = s.policers := rfl
@[simp] theorem setEvt_evict (s : State) (o b : Nat) : (s.setEvt o b).evict = s.evict := rfl
@[simp] theorem setEvt_gateMs (s : State) (o b : Nat) : (s.setEvt o b).gateMs = s.gateMs := rfl
@[simp] theorem setEvt_chans (s : State) (o b : Nat) : (s.setEvt o b).chans = s.chans := rfl
@[simp] theorem setEvt_lots (s : State) (o b : Nat) : (s.setEvt o b).lots = s.lots := rfl
@[simp] theorem setEvt_vfs (s : State) (o b : Nat) : (s.setEvt o b).vfs = s.vfs := rfl
@[simp] theorem setEvt_poolMem (s : State) (o b : Nat) : (s.setEvt o b).poolMem = s.poolMem := rfl
@[simp] theorem setEvt_poison (s : State) (o b : Nat) : (s.setEvt o b).poison = s.poison := rfl
@[simp] theorem setEvt_hkMem (s : State) (o b : Nat) : (s.setEvt o b).hkMem = s.hkMem := rfl
@[simp] theorem setEvt_fab (s : State) (o b : Nat) : (s.setEvt o b).fab = s.fab := rfl
@[simp] theorem setEvt_cupel (s : State) (o b : Nat) : (s.setEvt o b).cupel = s.cupel := rfl
@[simp] theorem setEvt_slots (s : State) (o b : Nat) : (s.setEvt o b).slots = s.slots := rfl
@[simp] theorem setEvt_pd (s : State) (o b : Nat) : (s.setEvt o b).pd = s.pd := rfl
@[simp] theorem setEvt_d2d (s : State) (o b : Nat) : (s.setEvt o b).d2d = s.d2d := rfl
@[simp] theorem setEvt_assay (s : State) (o b : Nat) : (s.setEvt o b).assay = s.assay := rfl
@[simp] theorem setEvt_out (s : State) (o b : Nat) : (s.setEvt o b).out = s.out := rfl

theorem setRegs_frame (l : List Nat) : ∀ (s : State) (o : Nat), s.setRegs o l = { s with regs := (s.setRegs o l).regs } := by
  induction l with
  | nil => intro s o; rfl
  | cons v r ih => intro s o; show (s.setReg o (w32 v)).setRegs (o + 4) r = _; rw [ih]; rfl

@[simp] theorem setRegs_pending (s : State) (o : Nat) (l : List Nat) : (s.setRegs o l).pending = s.pending := by rw [setRegs_frame]
@[simp] theorem setRegs_clock (s : State) (o : Nat) (l : List Nat) : (s.setRegs o l).clock = s.clock := by rw [setRegs_frame]
@[simp] theorem setRegs_mode (s : State) (o : Nat) (l : List Nat) : (s.setRegs o l).mode = s.mode := by rw [setRegs_frame]
@[simp] theorem setRegs_modeCause (s : State) (o : Nat) (l : List Nat) : (s.setRegs o l).modeCause = s.modeCause := by rw [setRegs_frame]
@[simp] theorem setRegs_resetCause (s : State) (o : Nat) (l : List Nat) : (s.setRegs o l).resetCause = s.resetCause := by rw [setRegs_frame]
@[simp] theorem setRegs_pwrgd (s : State) (o : Nat) (l : List Nat) : (s.setRegs o l).pwrgd = s.pwrgd := by rw [setRegs_frame]
@[simp] theorem setRegs_perstN (s : State) (o : Nat) (l : List Nat) : (s.setRegs o l).perstN = s.perstN := by rw [setRegs_frame]
@[simp] theorem setRegs_alive (s : State) (o : Nat) (l : List Nat) : (s.setRegs o l).alive = s.alive := by rw [setRegs_frame]
@[simp] theorem setRegs_faultN (s : State) (o : Nat) (l : List Nat) : (s.setRegs o l).faultN = s.faultN := by rw [setRegs_frame]
@[simp] theorem setRegs_xspi (s : State) (o : Nat) (l : List Nat) : (s.setRegs o l).xspi = s.xspi := by rw [setRegs_frame]
@[simp] theorem setRegs_hkRunning (s : State) (o : Nat) (l : List Nat) : (s.setRegs o l).hkRunning = s.hkRunning := by rw [setRegs_frame]
@[simp] theorem setRegs_unusable (s : State) (o : Nat) (l : List Nat) : (s.setRegs o l).unusable = s.unusable := by rw [setRegs_frame]
@[simp] theorem setRegs_banksOut (s : State) (o : Nat) (l : List Nat) : (s.setRegs o l).banksOut = s.banksOut := by rw [setRegs_frame]
@[simp] theorem setRegs_peerLost (s : State) (o : Nat) (l : List Nat) : (s.setRegs o l).peerLost = s.peerLost := by rw [setRegs_frame]
@[simp] theorem setRegs_time (s : State) (o : Nat) (l : List Nat) : (s.setRegs o l).time = s.time := by rw [setRegs_frame]
@[simp] theorem setRegs_keys (s : State) (o : Nat) (l : List Nat) : (s.setRegs o l).keys = s.keys := by rw [setRegs_frame]
@[simp] theorem setRegs_sec (s : State) (o : Nat) (l : List Nat) : (s.setRegs o l).sec = s.sec := by rw [setRegs_frame]
@[simp] theorem setRegs_fetchStep (s : State) (o : Nat) (l : List Nat) : (s.setRegs o l).fetchStep = s.fetchStep := by rw [setRegs_frame]
@[simp] theorem setRegs_verified (s : State) (o : Nat) (l : List Nat) : (s.setRegs o l).verified = s.verified := by rw [setRegs_frame]
@[simp] theorem setRegs_ingotLive (s : State) (o : Nat) (l : List Nat) : (s.setRegs o l).ingotLive = s.ingotLive := by rw [setRegs_frame]
@[simp] theorem setRegs_ingCause0 (s : State) (o : Nat) (l : List Nat) : (s.setRegs o l).ingCause0 = s.ingCause0 := by rw [setRegs_frame]
@[simp] theorem setRegs_ingCause1 (s : State) (o : Nat) (l : List Nat) : (s.setRegs o l).ingCause1 = s.ingCause1 := by rw [setRegs_frame]
@[simp] theorem setRegs_cfg (s : State) (o : Nat) (l : List Nat) : (s.setRegs o l).cfg = s.cfg := by rw [setRegs_frame]
@[simp] theorem setRegs_records (s : State) (o : Nat) (l : List Nat) : (s.setRegs o l).records = s.records := by rw [setRegs_frame]
@[simp] theorem setRegs_loadPorts (s : State) (o : Nat) (l : List Nat) : (s.setRegs o l).loadPorts = s.loadPorts := by rw [setRegs_frame]
@[simp] theorem setRegs_mbx (s : State) (o : Nat) (l : List Nat) : (s.setRegs o l).mbx = s.mbx := by rw [setRegs_frame]
@[simp] theorem setRegs_i3c (s : State) (o : Nat) (l : List Nat) : (s.setRegs o l).i3c = s.i3c := by rw [setRegs_frame]
@[simp] theorem setRegs_stations (s : State) (o : Nat) (l : List Nat) : (s.setRegs o l).stations = s.stations := by rw [setRegs_frame]
@[simp] theorem setRegs_ports (s : State) (o : Nat) (l : List Nat) : (s.setRegs o l).ports = s.ports := by rw [setRegs_frame]
@[simp] theorem setRegs_bridges (s : State) (o : Nat) (l : List Nat) : (s.setRegs o l).bridges = s.bridges := by rw [setRegs_frame]
@[simp] theorem setRegs_vhs (s : State) (o : Nat) (l : List Nat) : (s.setRegs o l).vhs = s.vhs := by rw [setRegs_frame]
@[simp] theorem setRegs_nextId (s : State) (o : Nat) (l : List Nat) : (s.setRegs o l).nextId = s.nextId := by rw [setRegs_frame]
@[simp] theorem setRegs_picks (s : State) (o : Nat) (l : List Nat) : (s.setRegs o l).picks = s.picks := by rw [setRegs_frame]
@[simp] theorem setRegs_staging (s : State) (o : Nat) (l : List Nat) : (s.setRegs o l).staging = s.staging := by rw [setRegs_frame]
@[simp] theorem setRegs_descs (s : State) (o : Nat) (l : List Nat) : (s.setRegs o l).descs = s.descs := by rw [setRegs_frame]
@[simp] theorem setRegs_mcEntries (s : State) (o : Nat) (l : List Nat) : (s.setRegs o l).mcEntries = s.mcEntries := by rw [setRegs_frame]
@[simp] theorem setRegs_mcWaits (s : State) (o : Nat) (l : List Nat) : (s.setRegs o l).mcWaits = s.mcWaits := by rw [setRegs_frame]
@[simp] theorem setRegs_used (s : State) (o : Nat) (l : List Nat) : (s.setRegs o l).used = s.used := by rw [setRegs_frame]
@[simp] theorem setRegs_usedTo (s : State) (o : Nat) (l : List Nat) : (s.setRegs o l).usedTo = s.usedTo := by rw [setRegs_frame]
@[simp] theorem setRegs_parkUsed (s : State) (o : Nat) (l : List Nat) : (s.setRegs o l).parkUsed = s.parkUsed := by rw [setRegs_frame]
@[simp] theorem setRegs_thr (s : State) (o : Nat) (l : List Nat) : (s.setRegs o l).thr = s.thr := by rw [setRegs_frame]
@[simp] theorem setRegs_banks (s : State) (o : Nat) (l : List Nat) : (s.setRegs o l).banks = s.banks := by rw [setRegs_frame]
@[simp] theorem setRegs_ended (s : State) (o : Nat) (l : List Nat) : (s.setRegs o l).ended = s.ended := by rw [setRegs_frame]
@[simp] theorem setRegs_bankCe (s : State) (o : Nat) (l : List Nat) : (s.setRegs o l).bankCe = s.bankCe := by rw [setRegs_frame]
@[simp] theorem setRegs_tracker (s : State) (o : Nat) (l : List Nat) : (s.setRegs o l).tracker = s.tracker := by rw [setRegs_frame]
@[simp] theorem setRegs_ideQ (s : State) (o : Nat) (l : List Nat) : (s.setRegs o l).ideQ = s.ideQ := by rw [setRegs_frame]
@[simp] theorem setRegs_groups (s : State) (o : Nat) (l : List Nat) : (s.setRegs o l).groups = s.groups := by rw [setRegs_frame]
@[simp] theorem setRegs_reports (s : State) (o : Nat) (l : List Nat) : (s.setRegs o l).reports = s.reports := by rw [setRegs_frame]
@[simp] theorem setRegs_tapCount (s : State) (o : Nat) (l : List Nat) : (s.setRegs o l).tapCount = s.tapCount := by rw [setRegs_frame]
@[simp] theorem setRegs_tapRing (s : State) (o : Nat) (l : List Nat) : (s.setRegs o l).tapRing = s.tapRing := by rw [setRegs_frame]
@[simp] theorem setRegs_samples (s : State) (o : Nat) (l : List Nat) : (s.setRegs o l).samples = s.samples := by rw [setRegs_frame]
@[simp] theorem setRegs_shapers (s : State) (o : Nat) (l : List Nat) : (s.setRegs o l).shapers = s.shapers := by rw [setRegs_frame]
@[simp] theorem setRegs_policers (s : State) (o : Nat) (l : List Nat) : (s.setRegs o l).policers = s.policers := by rw [setRegs_frame]
@[simp] theorem setRegs_evict (s : State) (o : Nat) (l : List Nat) : (s.setRegs o l).evict = s.evict := by rw [setRegs_frame]
@[simp] theorem setRegs_gateMs (s : State) (o : Nat) (l : List Nat) : (s.setRegs o l).gateMs = s.gateMs := by rw [setRegs_frame]
@[simp] theorem setRegs_chans (s : State) (o : Nat) (l : List Nat) : (s.setRegs o l).chans = s.chans := by rw [setRegs_frame]
@[simp] theorem setRegs_lots (s : State) (o : Nat) (l : List Nat) : (s.setRegs o l).lots = s.lots := by rw [setRegs_frame]
@[simp] theorem setRegs_vfs (s : State) (o : Nat) (l : List Nat) : (s.setRegs o l).vfs = s.vfs := by rw [setRegs_frame]
@[simp] theorem setRegs_poolMem (s : State) (o : Nat) (l : List Nat) : (s.setRegs o l).poolMem = s.poolMem := by rw [setRegs_frame]
@[simp] theorem setRegs_poison (s : State) (o : Nat) (l : List Nat) : (s.setRegs o l).poison = s.poison := by rw [setRegs_frame]
@[simp] theorem setRegs_hkMem (s : State) (o : Nat) (l : List Nat) : (s.setRegs o l).hkMem = s.hkMem := by rw [setRegs_frame]
@[simp] theorem setRegs_fab (s : State) (o : Nat) (l : List Nat) : (s.setRegs o l).fab = s.fab := by rw [setRegs_frame]
@[simp] theorem setRegs_cupel (s : State) (o : Nat) (l : List Nat) : (s.setRegs o l).cupel = s.cupel := by rw [setRegs_frame]
@[simp] theorem setRegs_slots (s : State) (o : Nat) (l : List Nat) : (s.setRegs o l).slots = s.slots := by rw [setRegs_frame]
@[simp] theorem setRegs_pd (s : State) (o : Nat) (l : List Nat) : (s.setRegs o l).pd = s.pd := by rw [setRegs_frame]
@[simp] theorem setRegs_d2d (s : State) (o : Nat) (l : List Nat) : (s.setRegs o l).d2d = s.d2d := by rw [setRegs_frame]
@[simp] theorem setRegs_assay (s : State) (o : Nat) (l : List Nat) : (s.setRegs o l).assay = s.assay := by rw [setRegs_frame]
@[simp] theorem setRegs_out (s : State) (o : Nat) (l : List Nat) : (s.setRegs o l).out = s.out := by rw [setRegs_frame]

@[simp] theorem setPort_pending (s : State) (p : Nat) (v : Port) : (s.setPort p v).pending = s.pending := rfl
@[simp] theorem setPort_clock (s : State) (p : Nat) (v : Port) : (s.setPort p v).clock = s.clock := rfl
@[simp] theorem setPort_mode (s : State) (p : Nat) (v : Port) : (s.setPort p v).mode = s.mode := rfl
@[simp] theorem setPort_modeCause (s : State) (p : Nat) (v : Port) : (s.setPort p v).modeCause = s.modeCause := rfl
@[simp] theorem setPort_resetCause (s : State) (p : Nat) (v : Port) : (s.setPort p v).resetCause = s.resetCause := rfl
@[simp] theorem setPort_pwrgd (s : State) (p : Nat) (v : Port) : (s.setPort p v).pwrgd = s.pwrgd := rfl
@[simp] theorem setPort_perstN (s : State) (p : Nat) (v : Port) : (s.setPort p v).perstN = s.perstN := rfl
@[simp] theorem setPort_alive (s : State) (p : Nat) (v : Port) : (s.setPort p v).alive = s.alive := rfl
@[simp] theorem setPort_faultN (s : State) (p : Nat) (v : Port) : (s.setPort p v).faultN = s.faultN := rfl
@[simp] theorem setPort_xspi (s : State) (p : Nat) (v : Port) : (s.setPort p v).xspi = s.xspi := rfl
@[simp] theorem setPort_hkRunning (s : State) (p : Nat) (v : Port) : (s.setPort p v).hkRunning = s.hkRunning := rfl
@[simp] theorem setPort_unusable (s : State) (p : Nat) (v : Port) : (s.setPort p v).unusable = s.unusable := rfl
@[simp] theorem setPort_banksOut (s : State) (p : Nat) (v : Port) : (s.setPort p v).banksOut = s.banksOut := rfl
@[simp] theorem setPort_peerLost (s : State) (p : Nat) (v : Port) : (s.setPort p v).peerLost = s.peerLost := rfl
@[simp] theorem setPort_time (s : State) (p : Nat) (v : Port) : (s.setPort p v).time = s.time := rfl
@[simp] theorem setPort_keys (s : State) (p : Nat) (v : Port) : (s.setPort p v).keys = s.keys := rfl
@[simp] theorem setPort_sec (s : State) (p : Nat) (v : Port) : (s.setPort p v).sec = s.sec := rfl
@[simp] theorem setPort_fetchStep (s : State) (p : Nat) (v : Port) : (s.setPort p v).fetchStep = s.fetchStep := rfl
@[simp] theorem setPort_verified (s : State) (p : Nat) (v : Port) : (s.setPort p v).verified = s.verified := rfl
@[simp] theorem setPort_ingotLive (s : State) (p : Nat) (v : Port) : (s.setPort p v).ingotLive = s.ingotLive := rfl
@[simp] theorem setPort_ingCause0 (s : State) (p : Nat) (v : Port) : (s.setPort p v).ingCause0 = s.ingCause0 := rfl
@[simp] theorem setPort_ingCause1 (s : State) (p : Nat) (v : Port) : (s.setPort p v).ingCause1 = s.ingCause1 := rfl
@[simp] theorem setPort_cfg (s : State) (p : Nat) (v : Port) : (s.setPort p v).cfg = s.cfg := rfl
@[simp] theorem setPort_records (s : State) (p : Nat) (v : Port) : (s.setPort p v).records = s.records := rfl
@[simp] theorem setPort_loadPorts (s : State) (p : Nat) (v : Port) : (s.setPort p v).loadPorts = s.loadPorts := rfl
@[simp] theorem setPort_regs (s : State) (p : Nat) (v : Port) : (s.setPort p v).regs = s.regs := rfl
@[simp] theorem setPort_mbx (s : State) (p : Nat) (v : Port) : (s.setPort p v).mbx = s.mbx := rfl
@[simp] theorem setPort_i3c (s : State) (p : Nat) (v : Port) : (s.setPort p v).i3c = s.i3c := rfl
@[simp] theorem setPort_stations (s : State) (p : Nat) (v : Port) : (s.setPort p v).stations = s.stations := rfl
@[simp] theorem setPort_bridges (s : State) (p : Nat) (v : Port) : (s.setPort p v).bridges = s.bridges := rfl
@[simp] theorem setPort_vhs (s : State) (p : Nat) (v : Port) : (s.setPort p v).vhs = s.vhs := rfl
@[simp] theorem setPort_nextId (s : State) (p : Nat) (v : Port) : (s.setPort p v).nextId = s.nextId := rfl
@[simp] theorem setPort_picks (s : State) (p : Nat) (v : Port) : (s.setPort p v).picks = s.picks := rfl
@[simp] theorem setPort_staging (s : State) (p : Nat) (v : Port) : (s.setPort p v).staging = s.staging := rfl
@[simp] theorem setPort_descs (s : State) (p : Nat) (v : Port) : (s.setPort p v).descs = s.descs := rfl
@[simp] theorem setPort_mcEntries (s : State) (p : Nat) (v : Port) : (s.setPort p v).mcEntries = s.mcEntries := rfl
@[simp] theorem setPort_mcWaits (s : State) (p : Nat) (v : Port) : (s.setPort p v).mcWaits = s.mcWaits := rfl
@[simp] theorem setPort_used (s : State) (p : Nat) (v : Port) : (s.setPort p v).used = s.used := rfl
@[simp] theorem setPort_usedTo (s : State) (p : Nat) (v : Port) : (s.setPort p v).usedTo = s.usedTo := rfl
@[simp] theorem setPort_parkUsed (s : State) (p : Nat) (v : Port) : (s.setPort p v).parkUsed = s.parkUsed := rfl
@[simp] theorem setPort_thr (s : State) (p : Nat) (v : Port) : (s.setPort p v).thr = s.thr := rfl
@[simp] theorem setPort_banks (s : State) (p : Nat) (v : Port) : (s.setPort p v).banks = s.banks := rfl
@[simp] theorem setPort_ended (s : State) (p : Nat) (v : Port) : (s.setPort p v).ended = s.ended := rfl
@[simp] theorem setPort_bankCe (s : State) (p : Nat) (v : Port) : (s.setPort p v).bankCe = s.bankCe := rfl
@[simp] theorem setPort_tracker (s : State) (p : Nat) (v : Port) : (s.setPort p v).tracker = s.tracker := rfl
@[simp] theorem setPort_ideQ (s : State) (p : Nat) (v : Port) : (s.setPort p v).ideQ = s.ideQ := rfl
@[simp] theorem setPort_groups (s : State) (p : Nat) (v : Port) : (s.setPort p v).groups = s.groups := rfl
@[simp] theorem setPort_reports (s : State) (p : Nat) (v : Port) : (s.setPort p v).reports = s.reports := rfl
@[simp] theorem setPort_tapCount (s : State) (p : Nat) (v : Port) : (s.setPort p v).tapCount = s.tapCount := rfl
@[simp] theorem setPort_tapRing (s : State) (p : Nat) (v : Port) : (s.setPort p v).tapRing = s.tapRing := rfl
@[simp] theorem setPort_samples (s : State) (p : Nat) (v : Port) : (s.setPort p v).samples = s.samples := rfl
@[simp] theorem setPort_shapers (s : State) (p : Nat) (v : Port) : (s.setPort p v).shapers = s.shapers := rfl
@[simp] theorem setPort_policers (s : State) (p : Nat) (v : Port) : (s.setPort p v).policers = s.policers := rfl
@[simp] theorem setPort_evict (s : State) (p : Nat) (v : Port) : (s.setPort p v).evict = s.evict := rfl
@[simp] theorem setPort_gateMs (s : State) (p : Nat) (v : Port) : (s.setPort p v).gateMs = s.gateMs := rfl
@[simp] theorem setPort_chans (s : State) (p : Nat) (v : Port) : (s.setPort p v).chans = s.chans := rfl
@[simp] theorem setPort_lots (s : State) (p : Nat) (v : Port) : (s.setPort p v).lots = s.lots := rfl
@[simp] theorem setPort_vfs (s : State) (p : Nat) (v : Port) : (s.setPort p v).vfs = s.vfs := rfl
@[simp] theorem setPort_poolMem (s : State) (p : Nat) (v : Port) : (s.setPort p v).poolMem = s.poolMem := rfl
@[simp] theorem setPort_poison (s : State) (p : Nat) (v : Port) : (s.setPort p v).poison = s.poison := rfl
@[simp] theorem setPort_hkMem (s : State) (p : Nat) (v : Port) : (s.setPort p v).hkMem = s.hkMem := rfl
@[simp] theorem setPort_fab (s : State) (p : Nat) (v : Port) : (s.setPort p v).fab = s.fab := rfl
@[simp] theorem setPort_cupel (s : State) (p : Nat) (v : Port) : (s.setPort p v).cupel = s.cupel := rfl
@[simp] theorem setPort_slots (s : State) (p : Nat) (v : Port) : (s.setPort p v).slots = s.slots := rfl
@[simp] theorem setPort_pd (s : State) (p : Nat) (v : Port) : (s.setPort p v).pd = s.pd := rfl
@[simp] theorem setPort_d2d (s : State) (p : Nat) (v : Port) : (s.setPort p v).d2d = s.d2d := rfl
@[simp] theorem setPort_assay (s : State) (p : Nat) (v : Port) : (s.setPort p v).assay = s.assay := rfl
@[simp] theorem setPort_out (s : State) (p : Nat) (v : Port) : (s.setPort p v).out = s.out := rfl

@[simp] theorem modPort_pending (s : State) (p : Nat) (f : Port → Port) : (s.modPort p f).pending = s.pending := rfl
@[simp] theorem modPort_clock (s : State) (p : Nat) (f : Port → Port) : (s.modPort p f).clock = s.clock := rfl
@[simp] theorem modPort_mode (s : State) (p : Nat) (f : Port → Port) : (s.modPort p f).mode = s.mode := rfl
@[simp] theorem modPort_modeCause (s : State) (p : Nat) (f : Port → Port) : (s.modPort p f).modeCause = s.modeCause := rfl
@[simp] theorem modPort_resetCause (s : State) (p : Nat) (f : Port → Port) : (s.modPort p f).resetCause = s.resetCause := rfl
@[simp] theorem modPort_pwrgd (s : State) (p : Nat) (f : Port → Port) : (s.modPort p f).pwrgd = s.pwrgd := rfl
@[simp] theorem modPort_perstN (s : State) (p : Nat) (f : Port → Port) : (s.modPort p f).perstN = s.perstN := rfl
@[simp] theorem modPort_alive (s : State) (p : Nat) (f : Port → Port) : (s.modPort p f).alive = s.alive := rfl
@[simp] theorem modPort_faultN (s : State) (p : Nat) (f : Port → Port) : (s.modPort p f).faultN = s.faultN := rfl
@[simp] theorem modPort_xspi (s : State) (p : Nat) (f : Port → Port) : (s.modPort p f).xspi = s.xspi := rfl
@[simp] theorem modPort_hkRunning (s : State) (p : Nat) (f : Port → Port) : (s.modPort p f).hkRunning = s.hkRunning := rfl
@[simp] theorem modPort_unusable (s : State) (p : Nat) (f : Port → Port) : (s.modPort p f).unusable = s.unusable := rfl
@[simp] theorem modPort_banksOut (s : State) (p : Nat) (f : Port → Port) : (s.modPort p f).banksOut = s.banksOut := rfl
@[simp] theorem modPort_peerLost (s : State) (p : Nat) (f : Port → Port) : (s.modPort p f).peerLost = s.peerLost := rfl
@[simp] theorem modPort_time (s : State) (p : Nat) (f : Port → Port) : (s.modPort p f).time = s.time := rfl
@[simp] theorem modPort_keys (s : State) (p : Nat) (f : Port → Port) : (s.modPort p f).keys = s.keys := rfl
@[simp] theorem modPort_sec (s : State) (p : Nat) (f : Port → Port) : (s.modPort p f).sec = s.sec := rfl
@[simp] theorem modPort_fetchStep (s : State) (p : Nat) (f : Port → Port) : (s.modPort p f).fetchStep = s.fetchStep := rfl
@[simp] theorem modPort_verified (s : State) (p : Nat) (f : Port → Port) : (s.modPort p f).verified = s.verified := rfl
@[simp] theorem modPort_ingotLive (s : State) (p : Nat) (f : Port → Port) : (s.modPort p f).ingotLive = s.ingotLive := rfl
@[simp] theorem modPort_ingCause0 (s : State) (p : Nat) (f : Port → Port) : (s.modPort p f).ingCause0 = s.ingCause0 := rfl
@[simp] theorem modPort_ingCause1 (s : State) (p : Nat) (f : Port → Port) : (s.modPort p f).ingCause1 = s.ingCause1 := rfl
@[simp] theorem modPort_cfg (s : State) (p : Nat) (f : Port → Port) : (s.modPort p f).cfg = s.cfg := rfl
@[simp] theorem modPort_records (s : State) (p : Nat) (f : Port → Port) : (s.modPort p f).records = s.records := rfl
@[simp] theorem modPort_loadPorts (s : State) (p : Nat) (f : Port → Port) : (s.modPort p f).loadPorts = s.loadPorts := rfl
@[simp] theorem modPort_regs (s : State) (p : Nat) (f : Port → Port) : (s.modPort p f).regs = s.regs := rfl
@[simp] theorem modPort_mbx (s : State) (p : Nat) (f : Port → Port) : (s.modPort p f).mbx = s.mbx := rfl
@[simp] theorem modPort_i3c (s : State) (p : Nat) (f : Port → Port) : (s.modPort p f).i3c = s.i3c := rfl
@[simp] theorem modPort_stations (s : State) (p : Nat) (f : Port → Port) : (s.modPort p f).stations = s.stations := rfl
@[simp] theorem modPort_bridges (s : State) (p : Nat) (f : Port → Port) : (s.modPort p f).bridges = s.bridges := rfl
@[simp] theorem modPort_vhs (s : State) (p : Nat) (f : Port → Port) : (s.modPort p f).vhs = s.vhs := rfl
@[simp] theorem modPort_nextId (s : State) (p : Nat) (f : Port → Port) : (s.modPort p f).nextId = s.nextId := rfl
@[simp] theorem modPort_picks (s : State) (p : Nat) (f : Port → Port) : (s.modPort p f).picks = s.picks := rfl
@[simp] theorem modPort_staging (s : State) (p : Nat) (f : Port → Port) : (s.modPort p f).staging = s.staging := rfl
@[simp] theorem modPort_descs (s : State) (p : Nat) (f : Port → Port) : (s.modPort p f).descs = s.descs := rfl
@[simp] theorem modPort_mcEntries (s : State) (p : Nat) (f : Port → Port) : (s.modPort p f).mcEntries = s.mcEntries := rfl
@[simp] theorem modPort_mcWaits (s : State) (p : Nat) (f : Port → Port) : (s.modPort p f).mcWaits = s.mcWaits := rfl
@[simp] theorem modPort_used (s : State) (p : Nat) (f : Port → Port) : (s.modPort p f).used = s.used := rfl
@[simp] theorem modPort_usedTo (s : State) (p : Nat) (f : Port → Port) : (s.modPort p f).usedTo = s.usedTo := rfl
@[simp] theorem modPort_parkUsed (s : State) (p : Nat) (f : Port → Port) : (s.modPort p f).parkUsed = s.parkUsed := rfl
@[simp] theorem modPort_thr (s : State) (p : Nat) (f : Port → Port) : (s.modPort p f).thr = s.thr := rfl
@[simp] theorem modPort_banks (s : State) (p : Nat) (f : Port → Port) : (s.modPort p f).banks = s.banks := rfl
@[simp] theorem modPort_ended (s : State) (p : Nat) (f : Port → Port) : (s.modPort p f).ended = s.ended := rfl
@[simp] theorem modPort_bankCe (s : State) (p : Nat) (f : Port → Port) : (s.modPort p f).bankCe = s.bankCe := rfl
@[simp] theorem modPort_tracker (s : State) (p : Nat) (f : Port → Port) : (s.modPort p f).tracker = s.tracker := rfl
@[simp] theorem modPort_ideQ (s : State) (p : Nat) (f : Port → Port) : (s.modPort p f).ideQ = s.ideQ := rfl
@[simp] theorem modPort_groups (s : State) (p : Nat) (f : Port → Port) : (s.modPort p f).groups = s.groups := rfl
@[simp] theorem modPort_reports (s : State) (p : Nat) (f : Port → Port) : (s.modPort p f).reports = s.reports := rfl
@[simp] theorem modPort_tapCount (s : State) (p : Nat) (f : Port → Port) : (s.modPort p f).tapCount = s.tapCount := rfl
@[simp] theorem modPort_tapRing (s : State) (p : Nat) (f : Port → Port) : (s.modPort p f).tapRing = s.tapRing := rfl
@[simp] theorem modPort_samples (s : State) (p : Nat) (f : Port → Port) : (s.modPort p f).samples = s.samples := rfl
@[simp] theorem modPort_shapers (s : State) (p : Nat) (f : Port → Port) : (s.modPort p f).shapers = s.shapers := rfl
@[simp] theorem modPort_policers (s : State) (p : Nat) (f : Port → Port) : (s.modPort p f).policers = s.policers := rfl
@[simp] theorem modPort_evict (s : State) (p : Nat) (f : Port → Port) : (s.modPort p f).evict = s.evict := rfl
@[simp] theorem modPort_gateMs (s : State) (p : Nat) (f : Port → Port) : (s.modPort p f).gateMs = s.gateMs := rfl
@[simp] theorem modPort_chans (s : State) (p : Nat) (f : Port → Port) : (s.modPort p f).chans = s.chans := rfl
@[simp] theorem modPort_lots (s : State) (p : Nat) (f : Port → Port) : (s.modPort p f).lots = s.lots := rfl
@[simp] theorem modPort_vfs (s : State) (p : Nat) (f : Port → Port) : (s.modPort p f).vfs = s.vfs := rfl
@[simp] theorem modPort_poolMem (s : State) (p : Nat) (f : Port → Port) : (s.modPort p f).poolMem = s.poolMem := rfl
@[simp] theorem modPort_poison (s : State) (p : Nat) (f : Port → Port) : (s.modPort p f).poison = s.poison := rfl
@[simp] theorem modPort_hkMem (s : State) (p : Nat) (f : Port → Port) : (s.modPort p f).hkMem = s.hkMem := rfl
@[simp] theorem modPort_fab (s : State) (p : Nat) (f : Port → Port) : (s.modPort p f).fab = s.fab := rfl
@[simp] theorem modPort_cupel (s : State) (p : Nat) (f : Port → Port) : (s.modPort p f).cupel = s.cupel := rfl
@[simp] theorem modPort_slots (s : State) (p : Nat) (f : Port → Port) : (s.modPort p f).slots = s.slots := rfl
@[simp] theorem modPort_pd (s : State) (p : Nat) (f : Port → Port) : (s.modPort p f).pd = s.pd := rfl
@[simp] theorem modPort_d2d (s : State) (p : Nat) (f : Port → Port) : (s.modPort p f).d2d = s.d2d := rfl
@[simp] theorem modPort_assay (s : State) (p : Nat) (f : Port → Port) : (s.modPort p f).assay = s.assay := rfl
@[simp] theorem modPort_out (s : State) (p : Nat) (f : Port → Port) : (s.modPort p f).out = s.out := rfl

@[simp] theorem modLink_pending (s : State) (p : Nat) (f : Link → Link) : (s.modLink p f).pending = s.pending := rfl
@[simp] theorem modLink_clock (s : State) (p : Nat) (f : Link → Link) : (s.modLink p f).clock = s.clock := rfl
@[simp] theorem modLink_mode (s : State) (p : Nat) (f : Link → Link) : (s.modLink p f).mode = s.mode := rfl
@[simp] theorem modLink_modeCause (s : State) (p : Nat) (f : Link → Link) : (s.modLink p f).modeCause = s.modeCause := rfl
@[simp] theorem modLink_resetCause (s : State) (p : Nat) (f : Link → Link) : (s.modLink p f).resetCause = s.resetCause := rfl
@[simp] theorem modLink_pwrgd (s : State) (p : Nat) (f : Link → Link) : (s.modLink p f).pwrgd = s.pwrgd := rfl
@[simp] theorem modLink_perstN (s : State) (p : Nat) (f : Link → Link) : (s.modLink p f).perstN = s.perstN := rfl
@[simp] theorem modLink_alive (s : State) (p : Nat) (f : Link → Link) : (s.modLink p f).alive = s.alive := rfl
@[simp] theorem modLink_faultN (s : State) (p : Nat) (f : Link → Link) : (s.modLink p f).faultN = s.faultN := rfl
@[simp] theorem modLink_xspi (s : State) (p : Nat) (f : Link → Link) : (s.modLink p f).xspi = s.xspi := rfl
@[simp] theorem modLink_hkRunning (s : State) (p : Nat) (f : Link → Link) : (s.modLink p f).hkRunning = s.hkRunning := rfl
@[simp] theorem modLink_unusable (s : State) (p : Nat) (f : Link → Link) : (s.modLink p f).unusable = s.unusable := rfl
@[simp] theorem modLink_banksOut (s : State) (p : Nat) (f : Link → Link) : (s.modLink p f).banksOut = s.banksOut := rfl
@[simp] theorem modLink_peerLost (s : State) (p : Nat) (f : Link → Link) : (s.modLink p f).peerLost = s.peerLost := rfl
@[simp] theorem modLink_time (s : State) (p : Nat) (f : Link → Link) : (s.modLink p f).time = s.time := rfl
@[simp] theorem modLink_keys (s : State) (p : Nat) (f : Link → Link) : (s.modLink p f).keys = s.keys := rfl
@[simp] theorem modLink_sec (s : State) (p : Nat) (f : Link → Link) : (s.modLink p f).sec = s.sec := rfl
@[simp] theorem modLink_fetchStep (s : State) (p : Nat) (f : Link → Link) : (s.modLink p f).fetchStep = s.fetchStep := rfl
@[simp] theorem modLink_verified (s : State) (p : Nat) (f : Link → Link) : (s.modLink p f).verified = s.verified := rfl
@[simp] theorem modLink_ingotLive (s : State) (p : Nat) (f : Link → Link) : (s.modLink p f).ingotLive = s.ingotLive := rfl
@[simp] theorem modLink_ingCause0 (s : State) (p : Nat) (f : Link → Link) : (s.modLink p f).ingCause0 = s.ingCause0 := rfl
@[simp] theorem modLink_ingCause1 (s : State) (p : Nat) (f : Link → Link) : (s.modLink p f).ingCause1 = s.ingCause1 := rfl
@[simp] theorem modLink_cfg (s : State) (p : Nat) (f : Link → Link) : (s.modLink p f).cfg = s.cfg := rfl
@[simp] theorem modLink_records (s : State) (p : Nat) (f : Link → Link) : (s.modLink p f).records = s.records := rfl
@[simp] theorem modLink_loadPorts (s : State) (p : Nat) (f : Link → Link) : (s.modLink p f).loadPorts = s.loadPorts := rfl
@[simp] theorem modLink_regs (s : State) (p : Nat) (f : Link → Link) : (s.modLink p f).regs = s.regs := rfl
@[simp] theorem modLink_mbx (s : State) (p : Nat) (f : Link → Link) : (s.modLink p f).mbx = s.mbx := rfl
@[simp] theorem modLink_i3c (s : State) (p : Nat) (f : Link → Link) : (s.modLink p f).i3c = s.i3c := rfl
@[simp] theorem modLink_stations (s : State) (p : Nat) (f : Link → Link) : (s.modLink p f).stations = s.stations := rfl
@[simp] theorem modLink_bridges (s : State) (p : Nat) (f : Link → Link) : (s.modLink p f).bridges = s.bridges := rfl
@[simp] theorem modLink_vhs (s : State) (p : Nat) (f : Link → Link) : (s.modLink p f).vhs = s.vhs := rfl
@[simp] theorem modLink_nextId (s : State) (p : Nat) (f : Link → Link) : (s.modLink p f).nextId = s.nextId := rfl
@[simp] theorem modLink_picks (s : State) (p : Nat) (f : Link → Link) : (s.modLink p f).picks = s.picks := rfl
@[simp] theorem modLink_staging (s : State) (p : Nat) (f : Link → Link) : (s.modLink p f).staging = s.staging := rfl
@[simp] theorem modLink_descs (s : State) (p : Nat) (f : Link → Link) : (s.modLink p f).descs = s.descs := rfl
@[simp] theorem modLink_mcEntries (s : State) (p : Nat) (f : Link → Link) : (s.modLink p f).mcEntries = s.mcEntries := rfl
@[simp] theorem modLink_mcWaits (s : State) (p : Nat) (f : Link → Link) : (s.modLink p f).mcWaits = s.mcWaits := rfl
@[simp] theorem modLink_used (s : State) (p : Nat) (f : Link → Link) : (s.modLink p f).used = s.used := rfl
@[simp] theorem modLink_usedTo (s : State) (p : Nat) (f : Link → Link) : (s.modLink p f).usedTo = s.usedTo := rfl
@[simp] theorem modLink_parkUsed (s : State) (p : Nat) (f : Link → Link) : (s.modLink p f).parkUsed = s.parkUsed := rfl
@[simp] theorem modLink_thr (s : State) (p : Nat) (f : Link → Link) : (s.modLink p f).thr = s.thr := rfl
@[simp] theorem modLink_banks (s : State) (p : Nat) (f : Link → Link) : (s.modLink p f).banks = s.banks := rfl
@[simp] theorem modLink_ended (s : State) (p : Nat) (f : Link → Link) : (s.modLink p f).ended = s.ended := rfl
@[simp] theorem modLink_bankCe (s : State) (p : Nat) (f : Link → Link) : (s.modLink p f).bankCe = s.bankCe := rfl
@[simp] theorem modLink_tracker (s : State) (p : Nat) (f : Link → Link) : (s.modLink p f).tracker = s.tracker := rfl
@[simp] theorem modLink_ideQ (s : State) (p : Nat) (f : Link → Link) : (s.modLink p f).ideQ = s.ideQ := rfl
@[simp] theorem modLink_groups (s : State) (p : Nat) (f : Link → Link) : (s.modLink p f).groups = s.groups := rfl
@[simp] theorem modLink_reports (s : State) (p : Nat) (f : Link → Link) : (s.modLink p f).reports = s.reports := rfl
@[simp] theorem modLink_tapCount (s : State) (p : Nat) (f : Link → Link) : (s.modLink p f).tapCount = s.tapCount := rfl
@[simp] theorem modLink_tapRing (s : State) (p : Nat) (f : Link → Link) : (s.modLink p f).tapRing = s.tapRing := rfl
@[simp] theorem modLink_samples (s : State) (p : Nat) (f : Link → Link) : (s.modLink p f).samples = s.samples := rfl
@[simp] theorem modLink_shapers (s : State) (p : Nat) (f : Link → Link) : (s.modLink p f).shapers = s.shapers := rfl
@[simp] theorem modLink_policers (s : State) (p : Nat) (f : Link → Link) : (s.modLink p f).policers = s.policers := rfl
@[simp] theorem modLink_evict (s : State) (p : Nat) (f : Link → Link) : (s.modLink p f).evict = s.evict := rfl
@[simp] theorem modLink_gateMs (s : State) (p : Nat) (f : Link → Link) : (s.modLink p f).gateMs = s.gateMs := rfl
@[simp] theorem modLink_chans (s : State) (p : Nat) (f : Link → Link) : (s.modLink p f).chans = s.chans := rfl
@[simp] theorem modLink_lots (s : State) (p : Nat) (f : Link → Link) : (s.modLink p f).lots = s.lots := rfl
@[simp] theorem modLink_vfs (s : State) (p : Nat) (f : Link → Link) : (s.modLink p f).vfs = s.vfs := rfl
@[simp] theorem modLink_poolMem (s : State) (p : Nat) (f : Link → Link) : (s.modLink p f).poolMem = s.poolMem := rfl
@[simp] theorem modLink_poison (s : State) (p : Nat) (f : Link → Link) : (s.modLink p f).poison = s.poison := rfl
@[simp] theorem modLink_hkMem (s : State) (p : Nat) (f : Link → Link) : (s.modLink p f).hkMem = s.hkMem := rfl
@[simp] theorem modLink_fab (s : State) (p : Nat) (f : Link → Link) : (s.modLink p f).fab = s.fab := rfl
@[simp] theorem modLink_cupel (s : State) (p : Nat) (f : Link → Link) : (s.modLink p f).cupel = s.cupel := rfl
@[simp] theorem modLink_slots (s : State) (p : Nat) (f : Link → Link) : (s.modLink p f).slots = s.slots := rfl
@[simp] theorem modLink_pd (s : State) (p : Nat) (f : Link → Link) : (s.modLink p f).pd = s.pd := rfl
@[simp] theorem modLink_d2d (s : State) (p : Nat) (f : Link → Link) : (s.modLink p f).d2d = s.d2d := rfl
@[simp] theorem modLink_assay (s : State) (p : Nat) (f : Link → Link) : (s.modLink p f).assay = s.assay := rfl
@[simp] theorem modLink_out (s : State) (p : Nat) (f : Link → Link) : (s.modLink p f).out = s.out := rfl

@[simp] theorem modSched_pending (s : State) (p : Nat) (f : Sched → Sched) : (s.modSched p f).pending = s.pending := rfl
@[simp] theorem modSched_clock (s : State) (p : Nat) (f : Sched → Sched) : (s.modSched p f).clock = s.clock := rfl
@[simp] theorem modSched_mode (s : State) (p : Nat) (f : Sched → Sched) : (s.modSched p f).mode = s.mode := rfl
@[simp] theorem modSched_modeCause (s : State) (p : Nat) (f : Sched → Sched) : (s.modSched p f).modeCause = s.modeCause := rfl
@[simp] theorem modSched_resetCause (s : State) (p : Nat) (f : Sched → Sched) : (s.modSched p f).resetCause = s.resetCause := rfl
@[simp] theorem modSched_pwrgd (s : State) (p : Nat) (f : Sched → Sched) : (s.modSched p f).pwrgd = s.pwrgd := rfl
@[simp] theorem modSched_perstN (s : State) (p : Nat) (f : Sched → Sched) : (s.modSched p f).perstN = s.perstN := rfl
@[simp] theorem modSched_alive (s : State) (p : Nat) (f : Sched → Sched) : (s.modSched p f).alive = s.alive := rfl
@[simp] theorem modSched_faultN (s : State) (p : Nat) (f : Sched → Sched) : (s.modSched p f).faultN = s.faultN := rfl
@[simp] theorem modSched_xspi (s : State) (p : Nat) (f : Sched → Sched) : (s.modSched p f).xspi = s.xspi := rfl
@[simp] theorem modSched_hkRunning (s : State) (p : Nat) (f : Sched → Sched) : (s.modSched p f).hkRunning = s.hkRunning := rfl
@[simp] theorem modSched_unusable (s : State) (p : Nat) (f : Sched → Sched) : (s.modSched p f).unusable = s.unusable := rfl
@[simp] theorem modSched_banksOut (s : State) (p : Nat) (f : Sched → Sched) : (s.modSched p f).banksOut = s.banksOut := rfl
@[simp] theorem modSched_peerLost (s : State) (p : Nat) (f : Sched → Sched) : (s.modSched p f).peerLost = s.peerLost := rfl
@[simp] theorem modSched_time (s : State) (p : Nat) (f : Sched → Sched) : (s.modSched p f).time = s.time := rfl
@[simp] theorem modSched_keys (s : State) (p : Nat) (f : Sched → Sched) : (s.modSched p f).keys = s.keys := rfl
@[simp] theorem modSched_sec (s : State) (p : Nat) (f : Sched → Sched) : (s.modSched p f).sec = s.sec := rfl
@[simp] theorem modSched_fetchStep (s : State) (p : Nat) (f : Sched → Sched) : (s.modSched p f).fetchStep = s.fetchStep := rfl
@[simp] theorem modSched_verified (s : State) (p : Nat) (f : Sched → Sched) : (s.modSched p f).verified = s.verified := rfl
@[simp] theorem modSched_ingotLive (s : State) (p : Nat) (f : Sched → Sched) : (s.modSched p f).ingotLive = s.ingotLive := rfl
@[simp] theorem modSched_ingCause0 (s : State) (p : Nat) (f : Sched → Sched) : (s.modSched p f).ingCause0 = s.ingCause0 := rfl
@[simp] theorem modSched_ingCause1 (s : State) (p : Nat) (f : Sched → Sched) : (s.modSched p f).ingCause1 = s.ingCause1 := rfl
@[simp] theorem modSched_cfg (s : State) (p : Nat) (f : Sched → Sched) : (s.modSched p f).cfg = s.cfg := rfl
@[simp] theorem modSched_records (s : State) (p : Nat) (f : Sched → Sched) : (s.modSched p f).records = s.records := rfl
@[simp] theorem modSched_loadPorts (s : State) (p : Nat) (f : Sched → Sched) : (s.modSched p f).loadPorts = s.loadPorts := rfl
@[simp] theorem modSched_regs (s : State) (p : Nat) (f : Sched → Sched) : (s.modSched p f).regs = s.regs := rfl
@[simp] theorem modSched_mbx (s : State) (p : Nat) (f : Sched → Sched) : (s.modSched p f).mbx = s.mbx := rfl
@[simp] theorem modSched_i3c (s : State) (p : Nat) (f : Sched → Sched) : (s.modSched p f).i3c = s.i3c := rfl
@[simp] theorem modSched_stations (s : State) (p : Nat) (f : Sched → Sched) : (s.modSched p f).stations = s.stations := rfl
@[simp] theorem modSched_bridges (s : State) (p : Nat) (f : Sched → Sched) : (s.modSched p f).bridges = s.bridges := rfl
@[simp] theorem modSched_vhs (s : State) (p : Nat) (f : Sched → Sched) : (s.modSched p f).vhs = s.vhs := rfl
@[simp] theorem modSched_nextId (s : State) (p : Nat) (f : Sched → Sched) : (s.modSched p f).nextId = s.nextId := rfl
@[simp] theorem modSched_picks (s : State) (p : Nat) (f : Sched → Sched) : (s.modSched p f).picks = s.picks := rfl
@[simp] theorem modSched_staging (s : State) (p : Nat) (f : Sched → Sched) : (s.modSched p f).staging = s.staging := rfl
@[simp] theorem modSched_descs (s : State) (p : Nat) (f : Sched → Sched) : (s.modSched p f).descs = s.descs := rfl
@[simp] theorem modSched_mcEntries (s : State) (p : Nat) (f : Sched → Sched) : (s.modSched p f).mcEntries = s.mcEntries := rfl
@[simp] theorem modSched_mcWaits (s : State) (p : Nat) (f : Sched → Sched) : (s.modSched p f).mcWaits = s.mcWaits := rfl
@[simp] theorem modSched_used (s : State) (p : Nat) (f : Sched → Sched) : (s.modSched p f).used = s.used := rfl
@[simp] theorem modSched_usedTo (s : State) (p : Nat) (f : Sched → Sched) : (s.modSched p f).usedTo = s.usedTo := rfl
@[simp] theorem modSched_parkUsed (s : State) (p : Nat) (f : Sched → Sched) : (s.modSched p f).parkUsed = s.parkUsed := rfl
@[simp] theorem modSched_thr (s : State) (p : Nat) (f : Sched → Sched) : (s.modSched p f).thr = s.thr := rfl
@[simp] theorem modSched_banks (s : State) (p : Nat) (f : Sched → Sched) : (s.modSched p f).banks = s.banks := rfl
@[simp] theorem modSched_ended (s : State) (p : Nat) (f : Sched → Sched) : (s.modSched p f).ended = s.ended := rfl
@[simp] theorem modSched_bankCe (s : State) (p : Nat) (f : Sched → Sched) : (s.modSched p f).bankCe = s.bankCe := rfl
@[simp] theorem modSched_tracker (s : State) (p : Nat) (f : Sched → Sched) : (s.modSched p f).tracker = s.tracker := rfl
@[simp] theorem modSched_ideQ (s : State) (p : Nat) (f : Sched → Sched) : (s.modSched p f).ideQ = s.ideQ := rfl
@[simp] theorem modSched_groups (s : State) (p : Nat) (f : Sched → Sched) : (s.modSched p f).groups = s.groups := rfl
@[simp] theorem modSched_reports (s : State) (p : Nat) (f : Sched → Sched) : (s.modSched p f).reports = s.reports := rfl
@[simp] theorem modSched_tapCount (s : State) (p : Nat) (f : Sched → Sched) : (s.modSched p f).tapCount = s.tapCount := rfl
@[simp] theorem modSched_tapRing (s : State) (p : Nat) (f : Sched → Sched) : (s.modSched p f).tapRing = s.tapRing := rfl
@[simp] theorem modSched_samples (s : State) (p : Nat) (f : Sched → Sched) : (s.modSched p f).samples = s.samples := rfl
@[simp] theorem modSched_shapers (s : State) (p : Nat) (f : Sched → Sched) : (s.modSched p f).shapers = s.shapers := rfl
@[simp] theorem modSched_policers (s : State) (p : Nat) (f : Sched → Sched) : (s.modSched p f).policers = s.policers := rfl
@[simp] theorem modSched_evict (s : State) (p : Nat) (f : Sched → Sched) : (s.modSched p f).evict = s.evict := rfl
@[simp] theorem modSched_gateMs (s : State) (p : Nat) (f : Sched → Sched) : (s.modSched p f).gateMs = s.gateMs := rfl
@[simp] theorem modSched_chans (s : State) (p : Nat) (f : Sched → Sched) : (s.modSched p f).chans = s.chans := rfl
@[simp] theorem modSched_lots (s : State) (p : Nat) (f : Sched → Sched) : (s.modSched p f).lots = s.lots := rfl
@[simp] theorem modSched_vfs (s : State) (p : Nat) (f : Sched → Sched) : (s.modSched p f).vfs = s.vfs := rfl
@[simp] theorem modSched_poolMem (s : State) (p : Nat) (f : Sched → Sched) : (s.modSched p f).poolMem = s.poolMem := rfl
@[simp] theorem modSched_poison (s : State) (p : Nat) (f : Sched → Sched) : (s.modSched p f).poison = s.poison := rfl
@[simp] theorem modSched_hkMem (s : State) (p : Nat) (f : Sched → Sched) : (s.modSched p f).hkMem = s.hkMem := rfl
@[simp] theorem modSched_fab (s : State) (p : Nat) (f : Sched → Sched) : (s.modSched p f).fab = s.fab := rfl
@[simp] theorem modSched_cupel (s : State) (p : Nat) (f : Sched → Sched) : (s.modSched p f).cupel = s.cupel := rfl
@[simp] theorem modSched_slots (s : State) (p : Nat) (f : Sched → Sched) : (s.modSched p f).slots = s.slots := rfl
@[simp] theorem modSched_pd (s : State) (p : Nat) (f : Sched → Sched) : (s.modSched p f).pd = s.pd := rfl
@[simp] theorem modSched_d2d (s : State) (p : Nat) (f : Sched → Sched) : (s.modSched p f).d2d = s.d2d := rfl
@[simp] theorem modSched_assay (s : State) (p : Nat) (f : Sched → Sched) : (s.modSched p f).assay = s.assay := rfl
@[simp] theorem modSched_out (s : State) (p : Nat) (f : Sched → Sched) : (s.modSched p f).out = s.out := rfl

@[simp] theorem modContain_pending (s : State) (p : Nat) (f : Contain → Contain) : (s.modContain p f).pending = s.pending := rfl
@[simp] theorem modContain_clock (s : State) (p : Nat) (f : Contain → Contain) : (s.modContain p f).clock = s.clock := rfl
@[simp] theorem modContain_mode (s : State) (p : Nat) (f : Contain → Contain) : (s.modContain p f).mode = s.mode := rfl
@[simp] theorem modContain_modeCause (s : State) (p : Nat) (f : Contain → Contain) : (s.modContain p f).modeCause = s.modeCause := rfl
@[simp] theorem modContain_resetCause (s : State) (p : Nat) (f : Contain → Contain) : (s.modContain p f).resetCause = s.resetCause := rfl
@[simp] theorem modContain_pwrgd (s : State) (p : Nat) (f : Contain → Contain) : (s.modContain p f).pwrgd = s.pwrgd := rfl
@[simp] theorem modContain_perstN (s : State) (p : Nat) (f : Contain → Contain) : (s.modContain p f).perstN = s.perstN := rfl
@[simp] theorem modContain_alive (s : State) (p : Nat) (f : Contain → Contain) : (s.modContain p f).alive = s.alive := rfl
@[simp] theorem modContain_faultN (s : State) (p : Nat) (f : Contain → Contain) : (s.modContain p f).faultN = s.faultN := rfl
@[simp] theorem modContain_xspi (s : State) (p : Nat) (f : Contain → Contain) : (s.modContain p f).xspi = s.xspi := rfl
@[simp] theorem modContain_hkRunning (s : State) (p : Nat) (f : Contain → Contain) : (s.modContain p f).hkRunning = s.hkRunning := rfl
@[simp] theorem modContain_unusable (s : State) (p : Nat) (f : Contain → Contain) : (s.modContain p f).unusable = s.unusable := rfl
@[simp] theorem modContain_banksOut (s : State) (p : Nat) (f : Contain → Contain) : (s.modContain p f).banksOut = s.banksOut := rfl
@[simp] theorem modContain_peerLost (s : State) (p : Nat) (f : Contain → Contain) : (s.modContain p f).peerLost = s.peerLost := rfl
@[simp] theorem modContain_time (s : State) (p : Nat) (f : Contain → Contain) : (s.modContain p f).time = s.time := rfl
@[simp] theorem modContain_keys (s : State) (p : Nat) (f : Contain → Contain) : (s.modContain p f).keys = s.keys := rfl
@[simp] theorem modContain_sec (s : State) (p : Nat) (f : Contain → Contain) : (s.modContain p f).sec = s.sec := rfl
@[simp] theorem modContain_fetchStep (s : State) (p : Nat) (f : Contain → Contain) : (s.modContain p f).fetchStep = s.fetchStep := rfl
@[simp] theorem modContain_verified (s : State) (p : Nat) (f : Contain → Contain) : (s.modContain p f).verified = s.verified := rfl
@[simp] theorem modContain_ingotLive (s : State) (p : Nat) (f : Contain → Contain) : (s.modContain p f).ingotLive = s.ingotLive := rfl
@[simp] theorem modContain_ingCause0 (s : State) (p : Nat) (f : Contain → Contain) : (s.modContain p f).ingCause0 = s.ingCause0 := rfl
@[simp] theorem modContain_ingCause1 (s : State) (p : Nat) (f : Contain → Contain) : (s.modContain p f).ingCause1 = s.ingCause1 := rfl
@[simp] theorem modContain_cfg (s : State) (p : Nat) (f : Contain → Contain) : (s.modContain p f).cfg = s.cfg := rfl
@[simp] theorem modContain_records (s : State) (p : Nat) (f : Contain → Contain) : (s.modContain p f).records = s.records := rfl
@[simp] theorem modContain_loadPorts (s : State) (p : Nat) (f : Contain → Contain) : (s.modContain p f).loadPorts = s.loadPorts := rfl
@[simp] theorem modContain_regs (s : State) (p : Nat) (f : Contain → Contain) : (s.modContain p f).regs = s.regs := rfl
@[simp] theorem modContain_mbx (s : State) (p : Nat) (f : Contain → Contain) : (s.modContain p f).mbx = s.mbx := rfl
@[simp] theorem modContain_i3c (s : State) (p : Nat) (f : Contain → Contain) : (s.modContain p f).i3c = s.i3c := rfl
@[simp] theorem modContain_stations (s : State) (p : Nat) (f : Contain → Contain) : (s.modContain p f).stations = s.stations := rfl
@[simp] theorem modContain_bridges (s : State) (p : Nat) (f : Contain → Contain) : (s.modContain p f).bridges = s.bridges := rfl
@[simp] theorem modContain_vhs (s : State) (p : Nat) (f : Contain → Contain) : (s.modContain p f).vhs = s.vhs := rfl
@[simp] theorem modContain_nextId (s : State) (p : Nat) (f : Contain → Contain) : (s.modContain p f).nextId = s.nextId := rfl
@[simp] theorem modContain_picks (s : State) (p : Nat) (f : Contain → Contain) : (s.modContain p f).picks = s.picks := rfl
@[simp] theorem modContain_staging (s : State) (p : Nat) (f : Contain → Contain) : (s.modContain p f).staging = s.staging := rfl
@[simp] theorem modContain_descs (s : State) (p : Nat) (f : Contain → Contain) : (s.modContain p f).descs = s.descs := rfl
@[simp] theorem modContain_mcEntries (s : State) (p : Nat) (f : Contain → Contain) : (s.modContain p f).mcEntries = s.mcEntries := rfl
@[simp] theorem modContain_mcWaits (s : State) (p : Nat) (f : Contain → Contain) : (s.modContain p f).mcWaits = s.mcWaits := rfl
@[simp] theorem modContain_used (s : State) (p : Nat) (f : Contain → Contain) : (s.modContain p f).used = s.used := rfl
@[simp] theorem modContain_usedTo (s : State) (p : Nat) (f : Contain → Contain) : (s.modContain p f).usedTo = s.usedTo := rfl
@[simp] theorem modContain_parkUsed (s : State) (p : Nat) (f : Contain → Contain) : (s.modContain p f).parkUsed = s.parkUsed := rfl
@[simp] theorem modContain_thr (s : State) (p : Nat) (f : Contain → Contain) : (s.modContain p f).thr = s.thr := rfl
@[simp] theorem modContain_banks (s : State) (p : Nat) (f : Contain → Contain) : (s.modContain p f).banks = s.banks := rfl
@[simp] theorem modContain_ended (s : State) (p : Nat) (f : Contain → Contain) : (s.modContain p f).ended = s.ended := rfl
@[simp] theorem modContain_bankCe (s : State) (p : Nat) (f : Contain → Contain) : (s.modContain p f).bankCe = s.bankCe := rfl
@[simp] theorem modContain_tracker (s : State) (p : Nat) (f : Contain → Contain) : (s.modContain p f).tracker = s.tracker := rfl
@[simp] theorem modContain_ideQ (s : State) (p : Nat) (f : Contain → Contain) : (s.modContain p f).ideQ = s.ideQ := rfl
@[simp] theorem modContain_groups (s : State) (p : Nat) (f : Contain → Contain) : (s.modContain p f).groups = s.groups := rfl
@[simp] theorem modContain_reports (s : State) (p : Nat) (f : Contain → Contain) : (s.modContain p f).reports = s.reports := rfl
@[simp] theorem modContain_tapCount (s : State) (p : Nat) (f : Contain → Contain) : (s.modContain p f).tapCount = s.tapCount := rfl
@[simp] theorem modContain_tapRing (s : State) (p : Nat) (f : Contain → Contain) : (s.modContain p f).tapRing = s.tapRing := rfl
@[simp] theorem modContain_samples (s : State) (p : Nat) (f : Contain → Contain) : (s.modContain p f).samples = s.samples := rfl
@[simp] theorem modContain_shapers (s : State) (p : Nat) (f : Contain → Contain) : (s.modContain p f).shapers = s.shapers := rfl
@[simp] theorem modContain_policers (s : State) (p : Nat) (f : Contain → Contain) : (s.modContain p f).policers = s.policers := rfl
@[simp] theorem modContain_evict (s : State) (p : Nat) (f : Contain → Contain) : (s.modContain p f).evict = s.evict := rfl
@[simp] theorem modContain_gateMs (s : State) (p : Nat) (f : Contain → Contain) : (s.modContain p f).gateMs = s.gateMs := rfl
@[simp] theorem modContain_chans (s : State) (p : Nat) (f : Contain → Contain) : (s.modContain p f).chans = s.chans := rfl
@[simp] theorem modContain_lots (s : State) (p : Nat) (f : Contain → Contain) : (s.modContain p f).lots = s.lots := rfl
@[simp] theorem modContain_vfs (s : State) (p : Nat) (f : Contain → Contain) : (s.modContain p f).vfs = s.vfs := rfl
@[simp] theorem modContain_poolMem (s : State) (p : Nat) (f : Contain → Contain) : (s.modContain p f).poolMem = s.poolMem := rfl
@[simp] theorem modContain_poison (s : State) (p : Nat) (f : Contain → Contain) : (s.modContain p f).poison = s.poison := rfl
@[simp] theorem modContain_hkMem (s : State) (p : Nat) (f : Contain → Contain) : (s.modContain p f).hkMem = s.hkMem := rfl
@[simp] theorem modContain_fab (s : State) (p : Nat) (f : Contain → Contain) : (s.modContain p f).fab = s.fab := rfl
@[simp] theorem modContain_cupel (s : State) (p : Nat) (f : Contain → Contain) : (s.modContain p f).cupel = s.cupel := rfl
@[simp] theorem modContain_slots (s : State) (p : Nat) (f : Contain → Contain) : (s.modContain p f).slots = s.slots := rfl
@[simp] theorem modContain_pd (s : State) (p : Nat) (f : Contain → Contain) : (s.modContain p f).pd = s.pd := rfl
@[simp] theorem modContain_d2d (s : State) (p : Nat) (f : Contain → Contain) : (s.modContain p f).d2d = s.d2d := rfl
@[simp] theorem modContain_assay (s : State) (p : Nat) (f : Contain → Contain) : (s.modContain p f).assay = s.assay := rfl
@[simp] theorem modContain_out (s : State) (p : Nat) (f : Contain → Contain) : (s.modContain p f).out = s.out := rfl

@[simp] theorem setStation_pending (s : State) (i : Nat) (v : Station) : (s.setStation i v).pending = s.pending := rfl
@[simp] theorem setStation_clock (s : State) (i : Nat) (v : Station) : (s.setStation i v).clock = s.clock := rfl
@[simp] theorem setStation_mode (s : State) (i : Nat) (v : Station) : (s.setStation i v).mode = s.mode := rfl
@[simp] theorem setStation_modeCause (s : State) (i : Nat) (v : Station) : (s.setStation i v).modeCause = s.modeCause := rfl
@[simp] theorem setStation_resetCause (s : State) (i : Nat) (v : Station) : (s.setStation i v).resetCause = s.resetCause := rfl
@[simp] theorem setStation_pwrgd (s : State) (i : Nat) (v : Station) : (s.setStation i v).pwrgd = s.pwrgd := rfl
@[simp] theorem setStation_perstN (s : State) (i : Nat) (v : Station) : (s.setStation i v).perstN = s.perstN := rfl
@[simp] theorem setStation_alive (s : State) (i : Nat) (v : Station) : (s.setStation i v).alive = s.alive := rfl
@[simp] theorem setStation_faultN (s : State) (i : Nat) (v : Station) : (s.setStation i v).faultN = s.faultN := rfl
@[simp] theorem setStation_xspi (s : State) (i : Nat) (v : Station) : (s.setStation i v).xspi = s.xspi := rfl
@[simp] theorem setStation_hkRunning (s : State) (i : Nat) (v : Station) : (s.setStation i v).hkRunning = s.hkRunning := rfl
@[simp] theorem setStation_unusable (s : State) (i : Nat) (v : Station) : (s.setStation i v).unusable = s.unusable := rfl
@[simp] theorem setStation_banksOut (s : State) (i : Nat) (v : Station) : (s.setStation i v).banksOut = s.banksOut := rfl
@[simp] theorem setStation_peerLost (s : State) (i : Nat) (v : Station) : (s.setStation i v).peerLost = s.peerLost := rfl
@[simp] theorem setStation_time (s : State) (i : Nat) (v : Station) : (s.setStation i v).time = s.time := rfl
@[simp] theorem setStation_keys (s : State) (i : Nat) (v : Station) : (s.setStation i v).keys = s.keys := rfl
@[simp] theorem setStation_sec (s : State) (i : Nat) (v : Station) : (s.setStation i v).sec = s.sec := rfl
@[simp] theorem setStation_fetchStep (s : State) (i : Nat) (v : Station) : (s.setStation i v).fetchStep = s.fetchStep := rfl
@[simp] theorem setStation_verified (s : State) (i : Nat) (v : Station) : (s.setStation i v).verified = s.verified := rfl
@[simp] theorem setStation_ingotLive (s : State) (i : Nat) (v : Station) : (s.setStation i v).ingotLive = s.ingotLive := rfl
@[simp] theorem setStation_ingCause0 (s : State) (i : Nat) (v : Station) : (s.setStation i v).ingCause0 = s.ingCause0 := rfl
@[simp] theorem setStation_ingCause1 (s : State) (i : Nat) (v : Station) : (s.setStation i v).ingCause1 = s.ingCause1 := rfl
@[simp] theorem setStation_cfg (s : State) (i : Nat) (v : Station) : (s.setStation i v).cfg = s.cfg := rfl
@[simp] theorem setStation_records (s : State) (i : Nat) (v : Station) : (s.setStation i v).records = s.records := rfl
@[simp] theorem setStation_loadPorts (s : State) (i : Nat) (v : Station) : (s.setStation i v).loadPorts = s.loadPorts := rfl
@[simp] theorem setStation_regs (s : State) (i : Nat) (v : Station) : (s.setStation i v).regs = s.regs := rfl
@[simp] theorem setStation_mbx (s : State) (i : Nat) (v : Station) : (s.setStation i v).mbx = s.mbx := rfl
@[simp] theorem setStation_i3c (s : State) (i : Nat) (v : Station) : (s.setStation i v).i3c = s.i3c := rfl
@[simp] theorem setStation_ports (s : State) (i : Nat) (v : Station) : (s.setStation i v).ports = s.ports := rfl
@[simp] theorem setStation_bridges (s : State) (i : Nat) (v : Station) : (s.setStation i v).bridges = s.bridges := rfl
@[simp] theorem setStation_vhs (s : State) (i : Nat) (v : Station) : (s.setStation i v).vhs = s.vhs := rfl
@[simp] theorem setStation_nextId (s : State) (i : Nat) (v : Station) : (s.setStation i v).nextId = s.nextId := rfl
@[simp] theorem setStation_picks (s : State) (i : Nat) (v : Station) : (s.setStation i v).picks = s.picks := rfl
@[simp] theorem setStation_staging (s : State) (i : Nat) (v : Station) : (s.setStation i v).staging = s.staging := rfl
@[simp] theorem setStation_descs (s : State) (i : Nat) (v : Station) : (s.setStation i v).descs = s.descs := rfl
@[simp] theorem setStation_mcEntries (s : State) (i : Nat) (v : Station) : (s.setStation i v).mcEntries = s.mcEntries := rfl
@[simp] theorem setStation_mcWaits (s : State) (i : Nat) (v : Station) : (s.setStation i v).mcWaits = s.mcWaits := rfl
@[simp] theorem setStation_used (s : State) (i : Nat) (v : Station) : (s.setStation i v).used = s.used := rfl
@[simp] theorem setStation_usedTo (s : State) (i : Nat) (v : Station) : (s.setStation i v).usedTo = s.usedTo := rfl
@[simp] theorem setStation_parkUsed (s : State) (i : Nat) (v : Station) : (s.setStation i v).parkUsed = s.parkUsed := rfl
@[simp] theorem setStation_thr (s : State) (i : Nat) (v : Station) : (s.setStation i v).thr = s.thr := rfl
@[simp] theorem setStation_banks (s : State) (i : Nat) (v : Station) : (s.setStation i v).banks = s.banks := rfl
@[simp] theorem setStation_ended (s : State) (i : Nat) (v : Station) : (s.setStation i v).ended = s.ended := rfl
@[simp] theorem setStation_bankCe (s : State) (i : Nat) (v : Station) : (s.setStation i v).bankCe = s.bankCe := rfl
@[simp] theorem setStation_tracker (s : State) (i : Nat) (v : Station) : (s.setStation i v).tracker = s.tracker := rfl
@[simp] theorem setStation_ideQ (s : State) (i : Nat) (v : Station) : (s.setStation i v).ideQ = s.ideQ := rfl
@[simp] theorem setStation_groups (s : State) (i : Nat) (v : Station) : (s.setStation i v).groups = s.groups := rfl
@[simp] theorem setStation_reports (s : State) (i : Nat) (v : Station) : (s.setStation i v).reports = s.reports := rfl
@[simp] theorem setStation_tapCount (s : State) (i : Nat) (v : Station) : (s.setStation i v).tapCount = s.tapCount := rfl
@[simp] theorem setStation_tapRing (s : State) (i : Nat) (v : Station) : (s.setStation i v).tapRing = s.tapRing := rfl
@[simp] theorem setStation_samples (s : State) (i : Nat) (v : Station) : (s.setStation i v).samples = s.samples := rfl
@[simp] theorem setStation_shapers (s : State) (i : Nat) (v : Station) : (s.setStation i v).shapers = s.shapers := rfl
@[simp] theorem setStation_policers (s : State) (i : Nat) (v : Station) : (s.setStation i v).policers = s.policers := rfl
@[simp] theorem setStation_evict (s : State) (i : Nat) (v : Station) : (s.setStation i v).evict = s.evict := rfl
@[simp] theorem setStation_gateMs (s : State) (i : Nat) (v : Station) : (s.setStation i v).gateMs = s.gateMs := rfl
@[simp] theorem setStation_chans (s : State) (i : Nat) (v : Station) : (s.setStation i v).chans = s.chans := rfl
@[simp] theorem setStation_lots (s : State) (i : Nat) (v : Station) : (s.setStation i v).lots = s.lots := rfl
@[simp] theorem setStation_vfs (s : State) (i : Nat) (v : Station) : (s.setStation i v).vfs = s.vfs := rfl
@[simp] theorem setStation_poolMem (s : State) (i : Nat) (v : Station) : (s.setStation i v).poolMem = s.poolMem := rfl
@[simp] theorem setStation_poison (s : State) (i : Nat) (v : Station) : (s.setStation i v).poison = s.poison := rfl
@[simp] theorem setStation_hkMem (s : State) (i : Nat) (v : Station) : (s.setStation i v).hkMem = s.hkMem := rfl
@[simp] theorem setStation_fab (s : State) (i : Nat) (v : Station) : (s.setStation i v).fab = s.fab := rfl
@[simp] theorem setStation_cupel (s : State) (i : Nat) (v : Station) : (s.setStation i v).cupel = s.cupel := rfl
@[simp] theorem setStation_slots (s : State) (i : Nat) (v : Station) : (s.setStation i v).slots = s.slots := rfl
@[simp] theorem setStation_pd (s : State) (i : Nat) (v : Station) : (s.setStation i v).pd = s.pd := rfl
@[simp] theorem setStation_d2d (s : State) (i : Nat) (v : Station) : (s.setStation i v).d2d = s.d2d := rfl
@[simp] theorem setStation_assay (s : State) (i : Nat) (v : Station) : (s.setStation i v).assay = s.assay := rfl
@[simp] theorem setStation_out (s : State) (i : Nat) (v : Station) : (s.setStation i v).out = s.out := rfl

@[simp] theorem modStation_pending (s : State) (i : Nat) (f : Station → Station) : (s.modStation i f).pending = s.pending := rfl
@[simp] theorem modStation_clock (s : State) (i : Nat) (f : Station → Station) : (s.modStation i f).clock = s.clock := rfl
@[simp] theorem modStation_mode (s : State) (i : Nat) (f : Station → Station) : (s.modStation i f).mode = s.mode := rfl
@[simp] theorem modStation_modeCause (s : State) (i : Nat) (f : Station → Station) : (s.modStation i f).modeCause = s.modeCause := rfl
@[simp] theorem modStation_resetCause (s : State) (i : Nat) (f : Station → Station) : (s.modStation i f).resetCause = s.resetCause := rfl
@[simp] theorem modStation_pwrgd (s : State) (i : Nat) (f : Station → Station) : (s.modStation i f).pwrgd = s.pwrgd := rfl
@[simp] theorem modStation_perstN (s : State) (i : Nat) (f : Station → Station) : (s.modStation i f).perstN = s.perstN := rfl
@[simp] theorem modStation_alive (s : State) (i : Nat) (f : Station → Station) : (s.modStation i f).alive = s.alive := rfl
@[simp] theorem modStation_faultN (s : State) (i : Nat) (f : Station → Station) : (s.modStation i f).faultN = s.faultN := rfl
@[simp] theorem modStation_xspi (s : State) (i : Nat) (f : Station → Station) : (s.modStation i f).xspi = s.xspi := rfl
@[simp] theorem modStation_hkRunning (s : State) (i : Nat) (f : Station → Station) : (s.modStation i f).hkRunning = s.hkRunning := rfl
@[simp] theorem modStation_unusable (s : State) (i : Nat) (f : Station → Station) : (s.modStation i f).unusable = s.unusable := rfl
@[simp] theorem modStation_banksOut (s : State) (i : Nat) (f : Station → Station) : (s.modStation i f).banksOut = s.banksOut := rfl
@[simp] theorem modStation_peerLost (s : State) (i : Nat) (f : Station → Station) : (s.modStation i f).peerLost = s.peerLost := rfl
@[simp] theorem modStation_time (s : State) (i : Nat) (f : Station → Station) : (s.modStation i f).time = s.time := rfl
@[simp] theorem modStation_keys (s : State) (i : Nat) (f : Station → Station) : (s.modStation i f).keys = s.keys := rfl
@[simp] theorem modStation_sec (s : State) (i : Nat) (f : Station → Station) : (s.modStation i f).sec = s.sec := rfl
@[simp] theorem modStation_fetchStep (s : State) (i : Nat) (f : Station → Station) : (s.modStation i f).fetchStep = s.fetchStep := rfl
@[simp] theorem modStation_verified (s : State) (i : Nat) (f : Station → Station) : (s.modStation i f).verified = s.verified := rfl
@[simp] theorem modStation_ingotLive (s : State) (i : Nat) (f : Station → Station) : (s.modStation i f).ingotLive = s.ingotLive := rfl
@[simp] theorem modStation_ingCause0 (s : State) (i : Nat) (f : Station → Station) : (s.modStation i f).ingCause0 = s.ingCause0 := rfl
@[simp] theorem modStation_ingCause1 (s : State) (i : Nat) (f : Station → Station) : (s.modStation i f).ingCause1 = s.ingCause1 := rfl
@[simp] theorem modStation_cfg (s : State) (i : Nat) (f : Station → Station) : (s.modStation i f).cfg = s.cfg := rfl
@[simp] theorem modStation_records (s : State) (i : Nat) (f : Station → Station) : (s.modStation i f).records = s.records := rfl
@[simp] theorem modStation_loadPorts (s : State) (i : Nat) (f : Station → Station) : (s.modStation i f).loadPorts = s.loadPorts := rfl
@[simp] theorem modStation_regs (s : State) (i : Nat) (f : Station → Station) : (s.modStation i f).regs = s.regs := rfl
@[simp] theorem modStation_mbx (s : State) (i : Nat) (f : Station → Station) : (s.modStation i f).mbx = s.mbx := rfl
@[simp] theorem modStation_i3c (s : State) (i : Nat) (f : Station → Station) : (s.modStation i f).i3c = s.i3c := rfl
@[simp] theorem modStation_ports (s : State) (i : Nat) (f : Station → Station) : (s.modStation i f).ports = s.ports := rfl
@[simp] theorem modStation_bridges (s : State) (i : Nat) (f : Station → Station) : (s.modStation i f).bridges = s.bridges := rfl
@[simp] theorem modStation_vhs (s : State) (i : Nat) (f : Station → Station) : (s.modStation i f).vhs = s.vhs := rfl
@[simp] theorem modStation_nextId (s : State) (i : Nat) (f : Station → Station) : (s.modStation i f).nextId = s.nextId := rfl
@[simp] theorem modStation_picks (s : State) (i : Nat) (f : Station → Station) : (s.modStation i f).picks = s.picks := rfl
@[simp] theorem modStation_staging (s : State) (i : Nat) (f : Station → Station) : (s.modStation i f).staging = s.staging := rfl
@[simp] theorem modStation_descs (s : State) (i : Nat) (f : Station → Station) : (s.modStation i f).descs = s.descs := rfl
@[simp] theorem modStation_mcEntries (s : State) (i : Nat) (f : Station → Station) : (s.modStation i f).mcEntries = s.mcEntries := rfl
@[simp] theorem modStation_mcWaits (s : State) (i : Nat) (f : Station → Station) : (s.modStation i f).mcWaits = s.mcWaits := rfl
@[simp] theorem modStation_used (s : State) (i : Nat) (f : Station → Station) : (s.modStation i f).used = s.used := rfl
@[simp] theorem modStation_usedTo (s : State) (i : Nat) (f : Station → Station) : (s.modStation i f).usedTo = s.usedTo := rfl
@[simp] theorem modStation_parkUsed (s : State) (i : Nat) (f : Station → Station) : (s.modStation i f).parkUsed = s.parkUsed := rfl
@[simp] theorem modStation_thr (s : State) (i : Nat) (f : Station → Station) : (s.modStation i f).thr = s.thr := rfl
@[simp] theorem modStation_banks (s : State) (i : Nat) (f : Station → Station) : (s.modStation i f).banks = s.banks := rfl
@[simp] theorem modStation_ended (s : State) (i : Nat) (f : Station → Station) : (s.modStation i f).ended = s.ended := rfl
@[simp] theorem modStation_bankCe (s : State) (i : Nat) (f : Station → Station) : (s.modStation i f).bankCe = s.bankCe := rfl
@[simp] theorem modStation_tracker (s : State) (i : Nat) (f : Station → Station) : (s.modStation i f).tracker = s.tracker := rfl
@[simp] theorem modStation_ideQ (s : State) (i : Nat) (f : Station → Station) : (s.modStation i f).ideQ = s.ideQ := rfl
@[simp] theorem modStation_groups (s : State) (i : Nat) (f : Station → Station) : (s.modStation i f).groups = s.groups := rfl
@[simp] theorem modStation_reports (s : State) (i : Nat) (f : Station → Station) : (s.modStation i f).reports = s.reports := rfl
@[simp] theorem modStation_tapCount (s : State) (i : Nat) (f : Station → Station) : (s.modStation i f).tapCount = s.tapCount := rfl
@[simp] theorem modStation_tapRing (s : State) (i : Nat) (f : Station → Station) : (s.modStation i f).tapRing = s.tapRing := rfl
@[simp] theorem modStation_samples (s : State) (i : Nat) (f : Station → Station) : (s.modStation i f).samples = s.samples := rfl
@[simp] theorem modStation_shapers (s : State) (i : Nat) (f : Station → Station) : (s.modStation i f).shapers = s.shapers := rfl
@[simp] theorem modStation_policers (s : State) (i : Nat) (f : Station → Station) : (s.modStation i f).policers = s.policers := rfl
@[simp] theorem modStation_evict (s : State) (i : Nat) (f : Station → Station) : (s.modStation i f).evict = s.evict := rfl
@[simp] theorem modStation_gateMs (s : State) (i : Nat) (f : Station → Station) : (s.modStation i f).gateMs = s.gateMs := rfl
@[simp] theorem modStation_chans (s : State) (i : Nat) (f : Station → Station) : (s.modStation i f).chans = s.chans := rfl
@[simp] theorem modStation_lots (s : State) (i : Nat) (f : Station → Station) : (s.modStation i f).lots = s.lots := rfl
@[simp] theorem modStation_vfs (s : State) (i : Nat) (f : Station → Station) : (s.modStation i f).vfs = s.vfs := rfl
@[simp] theorem modStation_poolMem (s : State) (i : Nat) (f : Station → Station) : (s.modStation i f).poolMem = s.poolMem := rfl
@[simp] theorem modStation_poison (s : State) (i : Nat) (f : Station → Station) : (s.modStation i f).poison = s.poison := rfl
@[simp] theorem modStation_hkMem (s : State) (i : Nat) (f : Station → Station) : (s.modStation i f).hkMem = s.hkMem := rfl
@[simp] theorem modStation_fab (s : State) (i : Nat) (f : Station → Station) : (s.modStation i f).fab = s.fab := rfl
@[simp] theorem modStation_cupel (s : State) (i : Nat) (f : Station → Station) : (s.modStation i f).cupel = s.cupel := rfl
@[simp] theorem modStation_slots (s : State) (i : Nat) (f : Station → Station) : (s.modStation i f).slots = s.slots := rfl
@[simp] theorem modStation_pd (s : State) (i : Nat) (f : Station → Station) : (s.modStation i f).pd = s.pd := rfl
@[simp] theorem modStation_d2d (s : State) (i : Nat) (f : Station → Station) : (s.modStation i f).d2d = s.d2d := rfl
@[simp] theorem modStation_assay (s : State) (i : Nat) (f : Station → Station) : (s.modStation i f).assay = s.assay := rfl
@[simp] theorem modStation_out (s : State) (i : Nat) (f : Station → Station) : (s.modStation i f).out = s.out := rfl

@[simp] theorem modLane_pending (s : State) (i j : Nat) (f : Lane → Lane) : (s.modLane i j f).pending = s.pending := rfl
@[simp] theorem modLane_clock (s : State) (i j : Nat) (f : Lane → Lane) : (s.modLane i j f).clock = s.clock := rfl
@[simp] theorem modLane_mode (s : State) (i j : Nat) (f : Lane → Lane) : (s.modLane i j f).mode = s.mode := rfl
@[simp] theorem modLane_modeCause (s : State) (i j : Nat) (f : Lane → Lane) : (s.modLane i j f).modeCause = s.modeCause := rfl
@[simp] theorem modLane_resetCause (s : State) (i j : Nat) (f : Lane → Lane) : (s.modLane i j f).resetCause = s.resetCause := rfl
@[simp] theorem modLane_pwrgd (s : State) (i j : Nat) (f : Lane → Lane) : (s.modLane i j f).pwrgd = s.pwrgd := rfl
@[simp] theorem modLane_perstN (s : State) (i j : Nat) (f : Lane → Lane) : (s.modLane i j f).perstN = s.perstN := rfl
@[simp] theorem modLane_alive (s : State) (i j : Nat) (f : Lane → Lane) : (s.modLane i j f).alive = s.alive := rfl
@[simp] theorem modLane_faultN (s : State) (i j : Nat) (f : Lane → Lane) : (s.modLane i j f).faultN = s.faultN := rfl
@[simp] theorem modLane_xspi (s : State) (i j : Nat) (f : Lane → Lane) : (s.modLane i j f).xspi = s.xspi := rfl
@[simp] theorem modLane_hkRunning (s : State) (i j : Nat) (f : Lane → Lane) : (s.modLane i j f).hkRunning = s.hkRunning := rfl
@[simp] theorem modLane_unusable (s : State) (i j : Nat) (f : Lane → Lane) : (s.modLane i j f).unusable = s.unusable := rfl
@[simp] theorem modLane_banksOut (s : State) (i j : Nat) (f : Lane → Lane) : (s.modLane i j f).banksOut = s.banksOut := rfl
@[simp] theorem modLane_peerLost (s : State) (i j : Nat) (f : Lane → Lane) : (s.modLane i j f).peerLost = s.peerLost := rfl
@[simp] theorem modLane_time (s : State) (i j : Nat) (f : Lane → Lane) : (s.modLane i j f).time = s.time := rfl
@[simp] theorem modLane_keys (s : State) (i j : Nat) (f : Lane → Lane) : (s.modLane i j f).keys = s.keys := rfl
@[simp] theorem modLane_sec (s : State) (i j : Nat) (f : Lane → Lane) : (s.modLane i j f).sec = s.sec := rfl
@[simp] theorem modLane_fetchStep (s : State) (i j : Nat) (f : Lane → Lane) : (s.modLane i j f).fetchStep = s.fetchStep := rfl
@[simp] theorem modLane_verified (s : State) (i j : Nat) (f : Lane → Lane) : (s.modLane i j f).verified = s.verified := rfl
@[simp] theorem modLane_ingotLive (s : State) (i j : Nat) (f : Lane → Lane) : (s.modLane i j f).ingotLive = s.ingotLive := rfl
@[simp] theorem modLane_ingCause0 (s : State) (i j : Nat) (f : Lane → Lane) : (s.modLane i j f).ingCause0 = s.ingCause0 := rfl
@[simp] theorem modLane_ingCause1 (s : State) (i j : Nat) (f : Lane → Lane) : (s.modLane i j f).ingCause1 = s.ingCause1 := rfl
@[simp] theorem modLane_cfg (s : State) (i j : Nat) (f : Lane → Lane) : (s.modLane i j f).cfg = s.cfg := rfl
@[simp] theorem modLane_records (s : State) (i j : Nat) (f : Lane → Lane) : (s.modLane i j f).records = s.records := rfl
@[simp] theorem modLane_loadPorts (s : State) (i j : Nat) (f : Lane → Lane) : (s.modLane i j f).loadPorts = s.loadPorts := rfl
@[simp] theorem modLane_regs (s : State) (i j : Nat) (f : Lane → Lane) : (s.modLane i j f).regs = s.regs := rfl
@[simp] theorem modLane_mbx (s : State) (i j : Nat) (f : Lane → Lane) : (s.modLane i j f).mbx = s.mbx := rfl
@[simp] theorem modLane_i3c (s : State) (i j : Nat) (f : Lane → Lane) : (s.modLane i j f).i3c = s.i3c := rfl
@[simp] theorem modLane_ports (s : State) (i j : Nat) (f : Lane → Lane) : (s.modLane i j f).ports = s.ports := rfl
@[simp] theorem modLane_bridges (s : State) (i j : Nat) (f : Lane → Lane) : (s.modLane i j f).bridges = s.bridges := rfl
@[simp] theorem modLane_vhs (s : State) (i j : Nat) (f : Lane → Lane) : (s.modLane i j f).vhs = s.vhs := rfl
@[simp] theorem modLane_nextId (s : State) (i j : Nat) (f : Lane → Lane) : (s.modLane i j f).nextId = s.nextId := rfl
@[simp] theorem modLane_picks (s : State) (i j : Nat) (f : Lane → Lane) : (s.modLane i j f).picks = s.picks := rfl
@[simp] theorem modLane_staging (s : State) (i j : Nat) (f : Lane → Lane) : (s.modLane i j f).staging = s.staging := rfl
@[simp] theorem modLane_descs (s : State) (i j : Nat) (f : Lane → Lane) : (s.modLane i j f).descs = s.descs := rfl
@[simp] theorem modLane_mcEntries (s : State) (i j : Nat) (f : Lane → Lane) : (s.modLane i j f).mcEntries = s.mcEntries := rfl
@[simp] theorem modLane_mcWaits (s : State) (i j : Nat) (f : Lane → Lane) : (s.modLane i j f).mcWaits = s.mcWaits := rfl
@[simp] theorem modLane_used (s : State) (i j : Nat) (f : Lane → Lane) : (s.modLane i j f).used = s.used := rfl
@[simp] theorem modLane_usedTo (s : State) (i j : Nat) (f : Lane → Lane) : (s.modLane i j f).usedTo = s.usedTo := rfl
@[simp] theorem modLane_parkUsed (s : State) (i j : Nat) (f : Lane → Lane) : (s.modLane i j f).parkUsed = s.parkUsed := rfl
@[simp] theorem modLane_thr (s : State) (i j : Nat) (f : Lane → Lane) : (s.modLane i j f).thr = s.thr := rfl
@[simp] theorem modLane_banks (s : State) (i j : Nat) (f : Lane → Lane) : (s.modLane i j f).banks = s.banks := rfl
@[simp] theorem modLane_ended (s : State) (i j : Nat) (f : Lane → Lane) : (s.modLane i j f).ended = s.ended := rfl
@[simp] theorem modLane_bankCe (s : State) (i j : Nat) (f : Lane → Lane) : (s.modLane i j f).bankCe = s.bankCe := rfl
@[simp] theorem modLane_tracker (s : State) (i j : Nat) (f : Lane → Lane) : (s.modLane i j f).tracker = s.tracker := rfl
@[simp] theorem modLane_ideQ (s : State) (i j : Nat) (f : Lane → Lane) : (s.modLane i j f).ideQ = s.ideQ := rfl
@[simp] theorem modLane_groups (s : State) (i j : Nat) (f : Lane → Lane) : (s.modLane i j f).groups = s.groups := rfl
@[simp] theorem modLane_reports (s : State) (i j : Nat) (f : Lane → Lane) : (s.modLane i j f).reports = s.reports := rfl
@[simp] theorem modLane_tapCount (s : State) (i j : Nat) (f : Lane → Lane) : (s.modLane i j f).tapCount = s.tapCount := rfl
@[simp] theorem modLane_tapRing (s : State) (i j : Nat) (f : Lane → Lane) : (s.modLane i j f).tapRing = s.tapRing := rfl
@[simp] theorem modLane_samples (s : State) (i j : Nat) (f : Lane → Lane) : (s.modLane i j f).samples = s.samples := rfl
@[simp] theorem modLane_shapers (s : State) (i j : Nat) (f : Lane → Lane) : (s.modLane i j f).shapers = s.shapers := rfl
@[simp] theorem modLane_policers (s : State) (i j : Nat) (f : Lane → Lane) : (s.modLane i j f).policers = s.policers := rfl
@[simp] theorem modLane_evict (s : State) (i j : Nat) (f : Lane → Lane) : (s.modLane i j f).evict = s.evict := rfl
@[simp] theorem modLane_gateMs (s : State) (i j : Nat) (f : Lane → Lane) : (s.modLane i j f).gateMs = s.gateMs := rfl
@[simp] theorem modLane_chans (s : State) (i j : Nat) (f : Lane → Lane) : (s.modLane i j f).chans = s.chans := rfl
@[simp] theorem modLane_lots (s : State) (i j : Nat) (f : Lane → Lane) : (s.modLane i j f).lots = s.lots := rfl
@[simp] theorem modLane_vfs (s : State) (i j : Nat) (f : Lane → Lane) : (s.modLane i j f).vfs = s.vfs := rfl
@[simp] theorem modLane_poolMem (s : State) (i j : Nat) (f : Lane → Lane) : (s.modLane i j f).poolMem = s.poolMem := rfl
@[simp] theorem modLane_poison (s : State) (i j : Nat) (f : Lane → Lane) : (s.modLane i j f).poison = s.poison := rfl
@[simp] theorem modLane_hkMem (s : State) (i j : Nat) (f : Lane → Lane) : (s.modLane i j f).hkMem = s.hkMem := rfl
@[simp] theorem modLane_fab (s : State) (i j : Nat) (f : Lane → Lane) : (s.modLane i j f).fab = s.fab := rfl
@[simp] theorem modLane_cupel (s : State) (i j : Nat) (f : Lane → Lane) : (s.modLane i j f).cupel = s.cupel := rfl
@[simp] theorem modLane_slots (s : State) (i j : Nat) (f : Lane → Lane) : (s.modLane i j f).slots = s.slots := rfl
@[simp] theorem modLane_pd (s : State) (i j : Nat) (f : Lane → Lane) : (s.modLane i j f).pd = s.pd := rfl
@[simp] theorem modLane_d2d (s : State) (i j : Nat) (f : Lane → Lane) : (s.modLane i j f).d2d = s.d2d := rfl
@[simp] theorem modLane_assay (s : State) (i j : Nat) (f : Lane → Lane) : (s.modLane i j f).assay = s.assay := rfl
@[simp] theorem modLane_out (s : State) (i j : Nat) (f : Lane → Lane) : (s.modLane i j f).out = s.out := rfl

@[simp] theorem setBridge_pending (s : State) (p : Nat) (v : Bridge) : (s.setBridge p v).pending = s.pending := rfl
@[simp] theorem setBridge_clock (s : State) (p : Nat) (v : Bridge) : (s.setBridge p v).clock = s.clock := rfl
@[simp] theorem setBridge_mode (s : State) (p : Nat) (v : Bridge) : (s.setBridge p v).mode = s.mode := rfl
@[simp] theorem setBridge_modeCause (s : State) (p : Nat) (v : Bridge) : (s.setBridge p v).modeCause = s.modeCause := rfl
@[simp] theorem setBridge_resetCause (s : State) (p : Nat) (v : Bridge) : (s.setBridge p v).resetCause = s.resetCause := rfl
@[simp] theorem setBridge_pwrgd (s : State) (p : Nat) (v : Bridge) : (s.setBridge p v).pwrgd = s.pwrgd := rfl
@[simp] theorem setBridge_perstN (s : State) (p : Nat) (v : Bridge) : (s.setBridge p v).perstN = s.perstN := rfl
@[simp] theorem setBridge_alive (s : State) (p : Nat) (v : Bridge) : (s.setBridge p v).alive = s.alive := rfl
@[simp] theorem setBridge_faultN (s : State) (p : Nat) (v : Bridge) : (s.setBridge p v).faultN = s.faultN := rfl
@[simp] theorem setBridge_xspi (s : State) (p : Nat) (v : Bridge) : (s.setBridge p v).xspi = s.xspi := rfl
@[simp] theorem setBridge_hkRunning (s : State) (p : Nat) (v : Bridge) : (s.setBridge p v).hkRunning = s.hkRunning := rfl
@[simp] theorem setBridge_unusable (s : State) (p : Nat) (v : Bridge) : (s.setBridge p v).unusable = s.unusable := rfl
@[simp] theorem setBridge_banksOut (s : State) (p : Nat) (v : Bridge) : (s.setBridge p v).banksOut = s.banksOut := rfl
@[simp] theorem setBridge_peerLost (s : State) (p : Nat) (v : Bridge) : (s.setBridge p v).peerLost = s.peerLost := rfl
@[simp] theorem setBridge_time (s : State) (p : Nat) (v : Bridge) : (s.setBridge p v).time = s.time := rfl
@[simp] theorem setBridge_keys (s : State) (p : Nat) (v : Bridge) : (s.setBridge p v).keys = s.keys := rfl
@[simp] theorem setBridge_sec (s : State) (p : Nat) (v : Bridge) : (s.setBridge p v).sec = s.sec := rfl
@[simp] theorem setBridge_fetchStep (s : State) (p : Nat) (v : Bridge) : (s.setBridge p v).fetchStep = s.fetchStep := rfl
@[simp] theorem setBridge_verified (s : State) (p : Nat) (v : Bridge) : (s.setBridge p v).verified = s.verified := rfl
@[simp] theorem setBridge_ingotLive (s : State) (p : Nat) (v : Bridge) : (s.setBridge p v).ingotLive = s.ingotLive := rfl
@[simp] theorem setBridge_ingCause0 (s : State) (p : Nat) (v : Bridge) : (s.setBridge p v).ingCause0 = s.ingCause0 := rfl
@[simp] theorem setBridge_ingCause1 (s : State) (p : Nat) (v : Bridge) : (s.setBridge p v).ingCause1 = s.ingCause1 := rfl
@[simp] theorem setBridge_cfg (s : State) (p : Nat) (v : Bridge) : (s.setBridge p v).cfg = s.cfg := rfl
@[simp] theorem setBridge_records (s : State) (p : Nat) (v : Bridge) : (s.setBridge p v).records = s.records := rfl
@[simp] theorem setBridge_loadPorts (s : State) (p : Nat) (v : Bridge) : (s.setBridge p v).loadPorts = s.loadPorts := rfl
@[simp] theorem setBridge_regs (s : State) (p : Nat) (v : Bridge) : (s.setBridge p v).regs = s.regs := rfl
@[simp] theorem setBridge_mbx (s : State) (p : Nat) (v : Bridge) : (s.setBridge p v).mbx = s.mbx := rfl
@[simp] theorem setBridge_i3c (s : State) (p : Nat) (v : Bridge) : (s.setBridge p v).i3c = s.i3c := rfl
@[simp] theorem setBridge_stations (s : State) (p : Nat) (v : Bridge) : (s.setBridge p v).stations = s.stations := rfl
@[simp] theorem setBridge_ports (s : State) (p : Nat) (v : Bridge) : (s.setBridge p v).ports = s.ports := rfl
@[simp] theorem setBridge_vhs (s : State) (p : Nat) (v : Bridge) : (s.setBridge p v).vhs = s.vhs := rfl
@[simp] theorem setBridge_nextId (s : State) (p : Nat) (v : Bridge) : (s.setBridge p v).nextId = s.nextId := rfl
@[simp] theorem setBridge_picks (s : State) (p : Nat) (v : Bridge) : (s.setBridge p v).picks = s.picks := rfl
@[simp] theorem setBridge_staging (s : State) (p : Nat) (v : Bridge) : (s.setBridge p v).staging = s.staging := rfl
@[simp] theorem setBridge_descs (s : State) (p : Nat) (v : Bridge) : (s.setBridge p v).descs = s.descs := rfl
@[simp] theorem setBridge_mcEntries (s : State) (p : Nat) (v : Bridge) : (s.setBridge p v).mcEntries = s.mcEntries := rfl
@[simp] theorem setBridge_mcWaits (s : State) (p : Nat) (v : Bridge) : (s.setBridge p v).mcWaits = s.mcWaits := rfl
@[simp] theorem setBridge_used (s : State) (p : Nat) (v : Bridge) : (s.setBridge p v).used = s.used := rfl
@[simp] theorem setBridge_usedTo (s : State) (p : Nat) (v : Bridge) : (s.setBridge p v).usedTo = s.usedTo := rfl
@[simp] theorem setBridge_parkUsed (s : State) (p : Nat) (v : Bridge) : (s.setBridge p v).parkUsed = s.parkUsed := rfl
@[simp] theorem setBridge_thr (s : State) (p : Nat) (v : Bridge) : (s.setBridge p v).thr = s.thr := rfl
@[simp] theorem setBridge_banks (s : State) (p : Nat) (v : Bridge) : (s.setBridge p v).banks = s.banks := rfl
@[simp] theorem setBridge_ended (s : State) (p : Nat) (v : Bridge) : (s.setBridge p v).ended = s.ended := rfl
@[simp] theorem setBridge_bankCe (s : State) (p : Nat) (v : Bridge) : (s.setBridge p v).bankCe = s.bankCe := rfl
@[simp] theorem setBridge_tracker (s : State) (p : Nat) (v : Bridge) : (s.setBridge p v).tracker = s.tracker := rfl
@[simp] theorem setBridge_ideQ (s : State) (p : Nat) (v : Bridge) : (s.setBridge p v).ideQ = s.ideQ := rfl
@[simp] theorem setBridge_groups (s : State) (p : Nat) (v : Bridge) : (s.setBridge p v).groups = s.groups := rfl
@[simp] theorem setBridge_reports (s : State) (p : Nat) (v : Bridge) : (s.setBridge p v).reports = s.reports := rfl
@[simp] theorem setBridge_tapCount (s : State) (p : Nat) (v : Bridge) : (s.setBridge p v).tapCount = s.tapCount := rfl
@[simp] theorem setBridge_tapRing (s : State) (p : Nat) (v : Bridge) : (s.setBridge p v).tapRing = s.tapRing := rfl
@[simp] theorem setBridge_samples (s : State) (p : Nat) (v : Bridge) : (s.setBridge p v).samples = s.samples := rfl
@[simp] theorem setBridge_shapers (s : State) (p : Nat) (v : Bridge) : (s.setBridge p v).shapers = s.shapers := rfl
@[simp] theorem setBridge_policers (s : State) (p : Nat) (v : Bridge) : (s.setBridge p v).policers = s.policers := rfl
@[simp] theorem setBridge_evict (s : State) (p : Nat) (v : Bridge) : (s.setBridge p v).evict = s.evict := rfl
@[simp] theorem setBridge_gateMs (s : State) (p : Nat) (v : Bridge) : (s.setBridge p v).gateMs = s.gateMs := rfl
@[simp] theorem setBridge_chans (s : State) (p : Nat) (v : Bridge) : (s.setBridge p v).chans = s.chans := rfl
@[simp] theorem setBridge_lots (s : State) (p : Nat) (v : Bridge) : (s.setBridge p v).lots = s.lots := rfl
@[simp] theorem setBridge_vfs (s : State) (p : Nat) (v : Bridge) : (s.setBridge p v).vfs = s.vfs := rfl
@[simp] theorem setBridge_poolMem (s : State) (p : Nat) (v : Bridge) : (s.setBridge p v).poolMem = s.poolMem := rfl
@[simp] theorem setBridge_poison (s : State) (p : Nat) (v : Bridge) : (s.setBridge p v).poison = s.poison := rfl
@[simp] theorem setBridge_hkMem (s : State) (p : Nat) (v : Bridge) : (s.setBridge p v).hkMem = s.hkMem := rfl
@[simp] theorem setBridge_fab (s : State) (p : Nat) (v : Bridge) : (s.setBridge p v).fab = s.fab := rfl
@[simp] theorem setBridge_cupel (s : State) (p : Nat) (v : Bridge) : (s.setBridge p v).cupel = s.cupel := rfl
@[simp] theorem setBridge_slots (s : State) (p : Nat) (v : Bridge) : (s.setBridge p v).slots = s.slots := rfl
@[simp] theorem setBridge_pd (s : State) (p : Nat) (v : Bridge) : (s.setBridge p v).pd = s.pd := rfl
@[simp] theorem setBridge_d2d (s : State) (p : Nat) (v : Bridge) : (s.setBridge p v).d2d = s.d2d := rfl
@[simp] theorem setBridge_assay (s : State) (p : Nat) (v : Bridge) : (s.setBridge p v).assay = s.assay := rfl
@[simp] theorem setBridge_out (s : State) (p : Nat) (v : Bridge) : (s.setBridge p v).out = s.out := rfl

@[simp] theorem modBridge_pending (s : State) (p : Nat) (f : Bridge → Bridge) : (s.modBridge p f).pending = s.pending := rfl
@[simp] theorem modBridge_clock (s : State) (p : Nat) (f : Bridge → Bridge) : (s.modBridge p f).clock = s.clock := rfl
@[simp] theorem modBridge_mode (s : State) (p : Nat) (f : Bridge → Bridge) : (s.modBridge p f).mode = s.mode := rfl
@[simp] theorem modBridge_modeCause (s : State) (p : Nat) (f : Bridge → Bridge) : (s.modBridge p f).modeCause = s.modeCause := rfl
@[simp] theorem modBridge_resetCause (s : State) (p : Nat) (f : Bridge → Bridge) : (s.modBridge p f).resetCause = s.resetCause := rfl
@[simp] theorem modBridge_pwrgd (s : State) (p : Nat) (f : Bridge → Bridge) : (s.modBridge p f).pwrgd = s.pwrgd := rfl
@[simp] theorem modBridge_perstN (s : State) (p : Nat) (f : Bridge → Bridge) : (s.modBridge p f).perstN = s.perstN := rfl
@[simp] theorem modBridge_alive (s : State) (p : Nat) (f : Bridge → Bridge) : (s.modBridge p f).alive = s.alive := rfl
@[simp] theorem modBridge_faultN (s : State) (p : Nat) (f : Bridge → Bridge) : (s.modBridge p f).faultN = s.faultN := rfl
@[simp] theorem modBridge_xspi (s : State) (p : Nat) (f : Bridge → Bridge) : (s.modBridge p f).xspi = s.xspi := rfl
@[simp] theorem modBridge_hkRunning (s : State) (p : Nat) (f : Bridge → Bridge) : (s.modBridge p f).hkRunning = s.hkRunning := rfl
@[simp] theorem modBridge_unusable (s : State) (p : Nat) (f : Bridge → Bridge) : (s.modBridge p f).unusable = s.unusable := rfl
@[simp] theorem modBridge_banksOut (s : State) (p : Nat) (f : Bridge → Bridge) : (s.modBridge p f).banksOut = s.banksOut := rfl
@[simp] theorem modBridge_peerLost (s : State) (p : Nat) (f : Bridge → Bridge) : (s.modBridge p f).peerLost = s.peerLost := rfl
@[simp] theorem modBridge_time (s : State) (p : Nat) (f : Bridge → Bridge) : (s.modBridge p f).time = s.time := rfl
@[simp] theorem modBridge_keys (s : State) (p : Nat) (f : Bridge → Bridge) : (s.modBridge p f).keys = s.keys := rfl
@[simp] theorem modBridge_sec (s : State) (p : Nat) (f : Bridge → Bridge) : (s.modBridge p f).sec = s.sec := rfl
@[simp] theorem modBridge_fetchStep (s : State) (p : Nat) (f : Bridge → Bridge) : (s.modBridge p f).fetchStep = s.fetchStep := rfl
@[simp] theorem modBridge_verified (s : State) (p : Nat) (f : Bridge → Bridge) : (s.modBridge p f).verified = s.verified := rfl
@[simp] theorem modBridge_ingotLive (s : State) (p : Nat) (f : Bridge → Bridge) : (s.modBridge p f).ingotLive = s.ingotLive := rfl
@[simp] theorem modBridge_ingCause0 (s : State) (p : Nat) (f : Bridge → Bridge) : (s.modBridge p f).ingCause0 = s.ingCause0 := rfl
@[simp] theorem modBridge_ingCause1 (s : State) (p : Nat) (f : Bridge → Bridge) : (s.modBridge p f).ingCause1 = s.ingCause1 := rfl
@[simp] theorem modBridge_cfg (s : State) (p : Nat) (f : Bridge → Bridge) : (s.modBridge p f).cfg = s.cfg := rfl
@[simp] theorem modBridge_records (s : State) (p : Nat) (f : Bridge → Bridge) : (s.modBridge p f).records = s.records := rfl
@[simp] theorem modBridge_loadPorts (s : State) (p : Nat) (f : Bridge → Bridge) : (s.modBridge p f).loadPorts = s.loadPorts := rfl
@[simp] theorem modBridge_regs (s : State) (p : Nat) (f : Bridge → Bridge) : (s.modBridge p f).regs = s.regs := rfl
@[simp] theorem modBridge_mbx (s : State) (p : Nat) (f : Bridge → Bridge) : (s.modBridge p f).mbx = s.mbx := rfl
@[simp] theorem modBridge_i3c (s : State) (p : Nat) (f : Bridge → Bridge) : (s.modBridge p f).i3c = s.i3c := rfl
@[simp] theorem modBridge_stations (s : State) (p : Nat) (f : Bridge → Bridge) : (s.modBridge p f).stations = s.stations := rfl
@[simp] theorem modBridge_ports (s : State) (p : Nat) (f : Bridge → Bridge) : (s.modBridge p f).ports = s.ports := rfl
@[simp] theorem modBridge_vhs (s : State) (p : Nat) (f : Bridge → Bridge) : (s.modBridge p f).vhs = s.vhs := rfl
@[simp] theorem modBridge_nextId (s : State) (p : Nat) (f : Bridge → Bridge) : (s.modBridge p f).nextId = s.nextId := rfl
@[simp] theorem modBridge_picks (s : State) (p : Nat) (f : Bridge → Bridge) : (s.modBridge p f).picks = s.picks := rfl
@[simp] theorem modBridge_staging (s : State) (p : Nat) (f : Bridge → Bridge) : (s.modBridge p f).staging = s.staging := rfl
@[simp] theorem modBridge_descs (s : State) (p : Nat) (f : Bridge → Bridge) : (s.modBridge p f).descs = s.descs := rfl
@[simp] theorem modBridge_mcEntries (s : State) (p : Nat) (f : Bridge → Bridge) : (s.modBridge p f).mcEntries = s.mcEntries := rfl
@[simp] theorem modBridge_mcWaits (s : State) (p : Nat) (f : Bridge → Bridge) : (s.modBridge p f).mcWaits = s.mcWaits := rfl
@[simp] theorem modBridge_used (s : State) (p : Nat) (f : Bridge → Bridge) : (s.modBridge p f).used = s.used := rfl
@[simp] theorem modBridge_usedTo (s : State) (p : Nat) (f : Bridge → Bridge) : (s.modBridge p f).usedTo = s.usedTo := rfl
@[simp] theorem modBridge_parkUsed (s : State) (p : Nat) (f : Bridge → Bridge) : (s.modBridge p f).parkUsed = s.parkUsed := rfl
@[simp] theorem modBridge_thr (s : State) (p : Nat) (f : Bridge → Bridge) : (s.modBridge p f).thr = s.thr := rfl
@[simp] theorem modBridge_banks (s : State) (p : Nat) (f : Bridge → Bridge) : (s.modBridge p f).banks = s.banks := rfl
@[simp] theorem modBridge_ended (s : State) (p : Nat) (f : Bridge → Bridge) : (s.modBridge p f).ended = s.ended := rfl
@[simp] theorem modBridge_bankCe (s : State) (p : Nat) (f : Bridge → Bridge) : (s.modBridge p f).bankCe = s.bankCe := rfl
@[simp] theorem modBridge_tracker (s : State) (p : Nat) (f : Bridge → Bridge) : (s.modBridge p f).tracker = s.tracker := rfl
@[simp] theorem modBridge_ideQ (s : State) (p : Nat) (f : Bridge → Bridge) : (s.modBridge p f).ideQ = s.ideQ := rfl
@[simp] theorem modBridge_groups (s : State) (p : Nat) (f : Bridge → Bridge) : (s.modBridge p f).groups = s.groups := rfl
@[simp] theorem modBridge_reports (s : State) (p : Nat) (f : Bridge → Bridge) : (s.modBridge p f).reports = s.reports := rfl
@[simp] theorem modBridge_tapCount (s : State) (p : Nat) (f : Bridge → Bridge) : (s.modBridge p f).tapCount = s.tapCount := rfl
@[simp] theorem modBridge_tapRing (s : State) (p : Nat) (f : Bridge → Bridge) : (s.modBridge p f).tapRing = s.tapRing := rfl
@[simp] theorem modBridge_samples (s : State) (p : Nat) (f : Bridge → Bridge) : (s.modBridge p f).samples = s.samples := rfl
@[simp] theorem modBridge_shapers (s : State) (p : Nat) (f : Bridge → Bridge) : (s.modBridge p f).shapers = s.shapers := rfl
@[simp] theorem modBridge_policers (s : State) (p : Nat) (f : Bridge → Bridge) : (s.modBridge p f).policers = s.policers := rfl
@[simp] theorem modBridge_evict (s : State) (p : Nat) (f : Bridge → Bridge) : (s.modBridge p f).evict = s.evict := rfl
@[simp] theorem modBridge_gateMs (s : State) (p : Nat) (f : Bridge → Bridge) : (s.modBridge p f).gateMs = s.gateMs := rfl
@[simp] theorem modBridge_chans (s : State) (p : Nat) (f : Bridge → Bridge) : (s.modBridge p f).chans = s.chans := rfl
@[simp] theorem modBridge_lots (s : State) (p : Nat) (f : Bridge → Bridge) : (s.modBridge p f).lots = s.lots := rfl
@[simp] theorem modBridge_vfs (s : State) (p : Nat) (f : Bridge → Bridge) : (s.modBridge p f).vfs = s.vfs := rfl
@[simp] theorem modBridge_poolMem (s : State) (p : Nat) (f : Bridge → Bridge) : (s.modBridge p f).poolMem = s.poolMem := rfl
@[simp] theorem modBridge_poison (s : State) (p : Nat) (f : Bridge → Bridge) : (s.modBridge p f).poison = s.poison := rfl
@[simp] theorem modBridge_hkMem (s : State) (p : Nat) (f : Bridge → Bridge) : (s.modBridge p f).hkMem = s.hkMem := rfl
@[simp] theorem modBridge_fab (s : State) (p : Nat) (f : Bridge → Bridge) : (s.modBridge p f).fab = s.fab := rfl
@[simp] theorem modBridge_cupel (s : State) (p : Nat) (f : Bridge → Bridge) : (s.modBridge p f).cupel = s.cupel := rfl
@[simp] theorem modBridge_slots (s : State) (p : Nat) (f : Bridge → Bridge) : (s.modBridge p f).slots = s.slots := rfl
@[simp] theorem modBridge_pd (s : State) (p : Nat) (f : Bridge → Bridge) : (s.modBridge p f).pd = s.pd := rfl
@[simp] theorem modBridge_d2d (s : State) (p : Nat) (f : Bridge → Bridge) : (s.modBridge p f).d2d = s.d2d := rfl
@[simp] theorem modBridge_assay (s : State) (p : Nat) (f : Bridge → Bridge) : (s.modBridge p f).assay = s.assay := rfl
@[simp] theorem modBridge_out (s : State) (p : Nat) (f : Bridge → Bridge) : (s.modBridge p f).out = s.out := rfl

@[simp] theorem modVh_pending (s : State) (i : Nat) (f : Vh → Vh) : (s.modVh i f).pending = s.pending := rfl
@[simp] theorem modVh_clock (s : State) (i : Nat) (f : Vh → Vh) : (s.modVh i f).clock = s.clock := rfl
@[simp] theorem modVh_mode (s : State) (i : Nat) (f : Vh → Vh) : (s.modVh i f).mode = s.mode := rfl
@[simp] theorem modVh_modeCause (s : State) (i : Nat) (f : Vh → Vh) : (s.modVh i f).modeCause = s.modeCause := rfl
@[simp] theorem modVh_resetCause (s : State) (i : Nat) (f : Vh → Vh) : (s.modVh i f).resetCause = s.resetCause := rfl
@[simp] theorem modVh_pwrgd (s : State) (i : Nat) (f : Vh → Vh) : (s.modVh i f).pwrgd = s.pwrgd := rfl
@[simp] theorem modVh_perstN (s : State) (i : Nat) (f : Vh → Vh) : (s.modVh i f).perstN = s.perstN := rfl
@[simp] theorem modVh_alive (s : State) (i : Nat) (f : Vh → Vh) : (s.modVh i f).alive = s.alive := rfl
@[simp] theorem modVh_faultN (s : State) (i : Nat) (f : Vh → Vh) : (s.modVh i f).faultN = s.faultN := rfl
@[simp] theorem modVh_xspi (s : State) (i : Nat) (f : Vh → Vh) : (s.modVh i f).xspi = s.xspi := rfl
@[simp] theorem modVh_hkRunning (s : State) (i : Nat) (f : Vh → Vh) : (s.modVh i f).hkRunning = s.hkRunning := rfl
@[simp] theorem modVh_unusable (s : State) (i : Nat) (f : Vh → Vh) : (s.modVh i f).unusable = s.unusable := rfl
@[simp] theorem modVh_banksOut (s : State) (i : Nat) (f : Vh → Vh) : (s.modVh i f).banksOut = s.banksOut := rfl
@[simp] theorem modVh_peerLost (s : State) (i : Nat) (f : Vh → Vh) : (s.modVh i f).peerLost = s.peerLost := rfl
@[simp] theorem modVh_time (s : State) (i : Nat) (f : Vh → Vh) : (s.modVh i f).time = s.time := rfl
@[simp] theorem modVh_keys (s : State) (i : Nat) (f : Vh → Vh) : (s.modVh i f).keys = s.keys := rfl
@[simp] theorem modVh_sec (s : State) (i : Nat) (f : Vh → Vh) : (s.modVh i f).sec = s.sec := rfl
@[simp] theorem modVh_fetchStep (s : State) (i : Nat) (f : Vh → Vh) : (s.modVh i f).fetchStep = s.fetchStep := rfl
@[simp] theorem modVh_verified (s : State) (i : Nat) (f : Vh → Vh) : (s.modVh i f).verified = s.verified := rfl
@[simp] theorem modVh_ingotLive (s : State) (i : Nat) (f : Vh → Vh) : (s.modVh i f).ingotLive = s.ingotLive := rfl
@[simp] theorem modVh_ingCause0 (s : State) (i : Nat) (f : Vh → Vh) : (s.modVh i f).ingCause0 = s.ingCause0 := rfl
@[simp] theorem modVh_ingCause1 (s : State) (i : Nat) (f : Vh → Vh) : (s.modVh i f).ingCause1 = s.ingCause1 := rfl
@[simp] theorem modVh_cfg (s : State) (i : Nat) (f : Vh → Vh) : (s.modVh i f).cfg = s.cfg := rfl
@[simp] theorem modVh_records (s : State) (i : Nat) (f : Vh → Vh) : (s.modVh i f).records = s.records := rfl
@[simp] theorem modVh_loadPorts (s : State) (i : Nat) (f : Vh → Vh) : (s.modVh i f).loadPorts = s.loadPorts := rfl
@[simp] theorem modVh_regs (s : State) (i : Nat) (f : Vh → Vh) : (s.modVh i f).regs = s.regs := rfl
@[simp] theorem modVh_mbx (s : State) (i : Nat) (f : Vh → Vh) : (s.modVh i f).mbx = s.mbx := rfl
@[simp] theorem modVh_i3c (s : State) (i : Nat) (f : Vh → Vh) : (s.modVh i f).i3c = s.i3c := rfl
@[simp] theorem modVh_stations (s : State) (i : Nat) (f : Vh → Vh) : (s.modVh i f).stations = s.stations := rfl
@[simp] theorem modVh_ports (s : State) (i : Nat) (f : Vh → Vh) : (s.modVh i f).ports = s.ports := rfl
@[simp] theorem modVh_bridges (s : State) (i : Nat) (f : Vh → Vh) : (s.modVh i f).bridges = s.bridges := rfl
@[simp] theorem modVh_nextId (s : State) (i : Nat) (f : Vh → Vh) : (s.modVh i f).nextId = s.nextId := rfl
@[simp] theorem modVh_picks (s : State) (i : Nat) (f : Vh → Vh) : (s.modVh i f).picks = s.picks := rfl
@[simp] theorem modVh_staging (s : State) (i : Nat) (f : Vh → Vh) : (s.modVh i f).staging = s.staging := rfl
@[simp] theorem modVh_descs (s : State) (i : Nat) (f : Vh → Vh) : (s.modVh i f).descs = s.descs := rfl
@[simp] theorem modVh_mcEntries (s : State) (i : Nat) (f : Vh → Vh) : (s.modVh i f).mcEntries = s.mcEntries := rfl
@[simp] theorem modVh_mcWaits (s : State) (i : Nat) (f : Vh → Vh) : (s.modVh i f).mcWaits = s.mcWaits := rfl
@[simp] theorem modVh_used (s : State) (i : Nat) (f : Vh → Vh) : (s.modVh i f).used = s.used := rfl
@[simp] theorem modVh_usedTo (s : State) (i : Nat) (f : Vh → Vh) : (s.modVh i f).usedTo = s.usedTo := rfl
@[simp] theorem modVh_parkUsed (s : State) (i : Nat) (f : Vh → Vh) : (s.modVh i f).parkUsed = s.parkUsed := rfl
@[simp] theorem modVh_thr (s : State) (i : Nat) (f : Vh → Vh) : (s.modVh i f).thr = s.thr := rfl
@[simp] theorem modVh_banks (s : State) (i : Nat) (f : Vh → Vh) : (s.modVh i f).banks = s.banks := rfl
@[simp] theorem modVh_ended (s : State) (i : Nat) (f : Vh → Vh) : (s.modVh i f).ended = s.ended := rfl
@[simp] theorem modVh_bankCe (s : State) (i : Nat) (f : Vh → Vh) : (s.modVh i f).bankCe = s.bankCe := rfl
@[simp] theorem modVh_tracker (s : State) (i : Nat) (f : Vh → Vh) : (s.modVh i f).tracker = s.tracker := rfl
@[simp] theorem modVh_ideQ (s : State) (i : Nat) (f : Vh → Vh) : (s.modVh i f).ideQ = s.ideQ := rfl
@[simp] theorem modVh_groups (s : State) (i : Nat) (f : Vh → Vh) : (s.modVh i f).groups = s.groups := rfl
@[simp] theorem modVh_reports (s : State) (i : Nat) (f : Vh → Vh) : (s.modVh i f).reports = s.reports := rfl
@[simp] theorem modVh_tapCount (s : State) (i : Nat) (f : Vh → Vh) : (s.modVh i f).tapCount = s.tapCount := rfl
@[simp] theorem modVh_tapRing (s : State) (i : Nat) (f : Vh → Vh) : (s.modVh i f).tapRing = s.tapRing := rfl
@[simp] theorem modVh_samples (s : State) (i : Nat) (f : Vh → Vh) : (s.modVh i f).samples = s.samples := rfl
@[simp] theorem modVh_shapers (s : State) (i : Nat) (f : Vh → Vh) : (s.modVh i f).shapers = s.shapers := rfl
@[simp] theorem modVh_policers (s : State) (i : Nat) (f : Vh → Vh) : (s.modVh i f).policers = s.policers := rfl
@[simp] theorem modVh_evict (s : State) (i : Nat) (f : Vh → Vh) : (s.modVh i f).evict = s.evict := rfl
@[simp] theorem modVh_gateMs (s : State) (i : Nat) (f : Vh → Vh) : (s.modVh i f).gateMs = s.gateMs := rfl
@[simp] theorem modVh_chans (s : State) (i : Nat) (f : Vh → Vh) : (s.modVh i f).chans = s.chans := rfl
@[simp] theorem modVh_lots (s : State) (i : Nat) (f : Vh → Vh) : (s.modVh i f).lots = s.lots := rfl
@[simp] theorem modVh_vfs (s : State) (i : Nat) (f : Vh → Vh) : (s.modVh i f).vfs = s.vfs := rfl
@[simp] theorem modVh_poolMem (s : State) (i : Nat) (f : Vh → Vh) : (s.modVh i f).poolMem = s.poolMem := rfl
@[simp] theorem modVh_poison (s : State) (i : Nat) (f : Vh → Vh) : (s.modVh i f).poison = s.poison := rfl
@[simp] theorem modVh_hkMem (s : State) (i : Nat) (f : Vh → Vh) : (s.modVh i f).hkMem = s.hkMem := rfl
@[simp] theorem modVh_fab (s : State) (i : Nat) (f : Vh → Vh) : (s.modVh i f).fab = s.fab := rfl
@[simp] theorem modVh_cupel (s : State) (i : Nat) (f : Vh → Vh) : (s.modVh i f).cupel = s.cupel := rfl
@[simp] theorem modVh_slots (s : State) (i : Nat) (f : Vh → Vh) : (s.modVh i f).slots = s.slots := rfl
@[simp] theorem modVh_pd (s : State) (i : Nat) (f : Vh → Vh) : (s.modVh i f).pd = s.pd := rfl
@[simp] theorem modVh_d2d (s : State) (i : Nat) (f : Vh → Vh) : (s.modVh i f).d2d = s.d2d := rfl
@[simp] theorem modVh_assay (s : State) (i : Nat) (f : Vh → Vh) : (s.modVh i f).assay = s.assay := rfl
@[simp] theorem modVh_out (s : State) (i : Nat) (f : Vh → Vh) : (s.modVh i f).out = s.out := rfl

@[simp] theorem modGroup_pending (s : State) (g : Nat) (f : Group → Group) : (s.modGroup g f).pending = s.pending := rfl
@[simp] theorem modGroup_clock (s : State) (g : Nat) (f : Group → Group) : (s.modGroup g f).clock = s.clock := rfl
@[simp] theorem modGroup_mode (s : State) (g : Nat) (f : Group → Group) : (s.modGroup g f).mode = s.mode := rfl
@[simp] theorem modGroup_modeCause (s : State) (g : Nat) (f : Group → Group) : (s.modGroup g f).modeCause = s.modeCause := rfl
@[simp] theorem modGroup_resetCause (s : State) (g : Nat) (f : Group → Group) : (s.modGroup g f).resetCause = s.resetCause := rfl
@[simp] theorem modGroup_pwrgd (s : State) (g : Nat) (f : Group → Group) : (s.modGroup g f).pwrgd = s.pwrgd := rfl
@[simp] theorem modGroup_perstN (s : State) (g : Nat) (f : Group → Group) : (s.modGroup g f).perstN = s.perstN := rfl
@[simp] theorem modGroup_alive (s : State) (g : Nat) (f : Group → Group) : (s.modGroup g f).alive = s.alive := rfl
@[simp] theorem modGroup_faultN (s : State) (g : Nat) (f : Group → Group) : (s.modGroup g f).faultN = s.faultN := rfl
@[simp] theorem modGroup_xspi (s : State) (g : Nat) (f : Group → Group) : (s.modGroup g f).xspi = s.xspi := rfl
@[simp] theorem modGroup_hkRunning (s : State) (g : Nat) (f : Group → Group) : (s.modGroup g f).hkRunning = s.hkRunning := rfl
@[simp] theorem modGroup_unusable (s : State) (g : Nat) (f : Group → Group) : (s.modGroup g f).unusable = s.unusable := rfl
@[simp] theorem modGroup_banksOut (s : State) (g : Nat) (f : Group → Group) : (s.modGroup g f).banksOut = s.banksOut := rfl
@[simp] theorem modGroup_peerLost (s : State) (g : Nat) (f : Group → Group) : (s.modGroup g f).peerLost = s.peerLost := rfl
@[simp] theorem modGroup_time (s : State) (g : Nat) (f : Group → Group) : (s.modGroup g f).time = s.time := rfl
@[simp] theorem modGroup_keys (s : State) (g : Nat) (f : Group → Group) : (s.modGroup g f).keys = s.keys := rfl
@[simp] theorem modGroup_sec (s : State) (g : Nat) (f : Group → Group) : (s.modGroup g f).sec = s.sec := rfl
@[simp] theorem modGroup_fetchStep (s : State) (g : Nat) (f : Group → Group) : (s.modGroup g f).fetchStep = s.fetchStep := rfl
@[simp] theorem modGroup_verified (s : State) (g : Nat) (f : Group → Group) : (s.modGroup g f).verified = s.verified := rfl
@[simp] theorem modGroup_ingotLive (s : State) (g : Nat) (f : Group → Group) : (s.modGroup g f).ingotLive = s.ingotLive := rfl
@[simp] theorem modGroup_ingCause0 (s : State) (g : Nat) (f : Group → Group) : (s.modGroup g f).ingCause0 = s.ingCause0 := rfl
@[simp] theorem modGroup_ingCause1 (s : State) (g : Nat) (f : Group → Group) : (s.modGroup g f).ingCause1 = s.ingCause1 := rfl
@[simp] theorem modGroup_cfg (s : State) (g : Nat) (f : Group → Group) : (s.modGroup g f).cfg = s.cfg := rfl
@[simp] theorem modGroup_records (s : State) (g : Nat) (f : Group → Group) : (s.modGroup g f).records = s.records := rfl
@[simp] theorem modGroup_loadPorts (s : State) (g : Nat) (f : Group → Group) : (s.modGroup g f).loadPorts = s.loadPorts := rfl
@[simp] theorem modGroup_regs (s : State) (g : Nat) (f : Group → Group) : (s.modGroup g f).regs = s.regs := rfl
@[simp] theorem modGroup_mbx (s : State) (g : Nat) (f : Group → Group) : (s.modGroup g f).mbx = s.mbx := rfl
@[simp] theorem modGroup_i3c (s : State) (g : Nat) (f : Group → Group) : (s.modGroup g f).i3c = s.i3c := rfl
@[simp] theorem modGroup_stations (s : State) (g : Nat) (f : Group → Group) : (s.modGroup g f).stations = s.stations := rfl
@[simp] theorem modGroup_ports (s : State) (g : Nat) (f : Group → Group) : (s.modGroup g f).ports = s.ports := rfl
@[simp] theorem modGroup_bridges (s : State) (g : Nat) (f : Group → Group) : (s.modGroup g f).bridges = s.bridges := rfl
@[simp] theorem modGroup_vhs (s : State) (g : Nat) (f : Group → Group) : (s.modGroup g f).vhs = s.vhs := rfl
@[simp] theorem modGroup_nextId (s : State) (g : Nat) (f : Group → Group) : (s.modGroup g f).nextId = s.nextId := rfl
@[simp] theorem modGroup_picks (s : State) (g : Nat) (f : Group → Group) : (s.modGroup g f).picks = s.picks := rfl
@[simp] theorem modGroup_staging (s : State) (g : Nat) (f : Group → Group) : (s.modGroup g f).staging = s.staging := rfl
@[simp] theorem modGroup_descs (s : State) (g : Nat) (f : Group → Group) : (s.modGroup g f).descs = s.descs := rfl
@[simp] theorem modGroup_mcEntries (s : State) (g : Nat) (f : Group → Group) : (s.modGroup g f).mcEntries = s.mcEntries := rfl
@[simp] theorem modGroup_mcWaits (s : State) (g : Nat) (f : Group → Group) : (s.modGroup g f).mcWaits = s.mcWaits := rfl
@[simp] theorem modGroup_used (s : State) (g : Nat) (f : Group → Group) : (s.modGroup g f).used = s.used := rfl
@[simp] theorem modGroup_usedTo (s : State) (g : Nat) (f : Group → Group) : (s.modGroup g f).usedTo = s.usedTo := rfl
@[simp] theorem modGroup_parkUsed (s : State) (g : Nat) (f : Group → Group) : (s.modGroup g f).parkUsed = s.parkUsed := rfl
@[simp] theorem modGroup_thr (s : State) (g : Nat) (f : Group → Group) : (s.modGroup g f).thr = s.thr := rfl
@[simp] theorem modGroup_banks (s : State) (g : Nat) (f : Group → Group) : (s.modGroup g f).banks = s.banks := rfl
@[simp] theorem modGroup_ended (s : State) (g : Nat) (f : Group → Group) : (s.modGroup g f).ended = s.ended := rfl
@[simp] theorem modGroup_bankCe (s : State) (g : Nat) (f : Group → Group) : (s.modGroup g f).bankCe = s.bankCe := rfl
@[simp] theorem modGroup_tracker (s : State) (g : Nat) (f : Group → Group) : (s.modGroup g f).tracker = s.tracker := rfl
@[simp] theorem modGroup_ideQ (s : State) (g : Nat) (f : Group → Group) : (s.modGroup g f).ideQ = s.ideQ := rfl
@[simp] theorem modGroup_reports (s : State) (g : Nat) (f : Group → Group) : (s.modGroup g f).reports = s.reports := rfl
@[simp] theorem modGroup_tapCount (s : State) (g : Nat) (f : Group → Group) : (s.modGroup g f).tapCount = s.tapCount := rfl
@[simp] theorem modGroup_tapRing (s : State) (g : Nat) (f : Group → Group) : (s.modGroup g f).tapRing = s.tapRing := rfl
@[simp] theorem modGroup_samples (s : State) (g : Nat) (f : Group → Group) : (s.modGroup g f).samples = s.samples := rfl
@[simp] theorem modGroup_shapers (s : State) (g : Nat) (f : Group → Group) : (s.modGroup g f).shapers = s.shapers := rfl
@[simp] theorem modGroup_policers (s : State) (g : Nat) (f : Group → Group) : (s.modGroup g f).policers = s.policers := rfl
@[simp] theorem modGroup_evict (s : State) (g : Nat) (f : Group → Group) : (s.modGroup g f).evict = s.evict := rfl
@[simp] theorem modGroup_gateMs (s : State) (g : Nat) (f : Group → Group) : (s.modGroup g f).gateMs = s.gateMs := rfl
@[simp] theorem modGroup_chans (s : State) (g : Nat) (f : Group → Group) : (s.modGroup g f).chans = s.chans := rfl
@[simp] theorem modGroup_lots (s : State) (g : Nat) (f : Group → Group) : (s.modGroup g f).lots = s.lots := rfl
@[simp] theorem modGroup_vfs (s : State) (g : Nat) (f : Group → Group) : (s.modGroup g f).vfs = s.vfs := rfl
@[simp] theorem modGroup_poolMem (s : State) (g : Nat) (f : Group → Group) : (s.modGroup g f).poolMem = s.poolMem := rfl
@[simp] theorem modGroup_poison (s : State) (g : Nat) (f : Group → Group) : (s.modGroup g f).poison = s.poison := rfl
@[simp] theorem modGroup_hkMem (s : State) (g : Nat) (f : Group → Group) : (s.modGroup g f).hkMem = s.hkMem := rfl
@[simp] theorem modGroup_fab (s : State) (g : Nat) (f : Group → Group) : (s.modGroup g f).fab = s.fab := rfl
@[simp] theorem modGroup_cupel (s : State) (g : Nat) (f : Group → Group) : (s.modGroup g f).cupel = s.cupel := rfl
@[simp] theorem modGroup_slots (s : State) (g : Nat) (f : Group → Group) : (s.modGroup g f).slots = s.slots := rfl
@[simp] theorem modGroup_pd (s : State) (g : Nat) (f : Group → Group) : (s.modGroup g f).pd = s.pd := rfl
@[simp] theorem modGroup_d2d (s : State) (g : Nat) (f : Group → Group) : (s.modGroup g f).d2d = s.d2d := rfl
@[simp] theorem modGroup_assay (s : State) (g : Nat) (f : Group → Group) : (s.modGroup g f).assay = s.assay := rfl
@[simp] theorem modGroup_out (s : State) (g : Nat) (f : Group → Group) : (s.modGroup g f).out = s.out := rfl

@[simp] theorem modChan_pending (s : State) (c : Nat) (f : Chan → Chan) : (s.modChan c f).pending = s.pending := rfl
@[simp] theorem modChan_clock (s : State) (c : Nat) (f : Chan → Chan) : (s.modChan c f).clock = s.clock := rfl
@[simp] theorem modChan_mode (s : State) (c : Nat) (f : Chan → Chan) : (s.modChan c f).mode = s.mode := rfl
@[simp] theorem modChan_modeCause (s : State) (c : Nat) (f : Chan → Chan) : (s.modChan c f).modeCause = s.modeCause := rfl
@[simp] theorem modChan_resetCause (s : State) (c : Nat) (f : Chan → Chan) : (s.modChan c f).resetCause = s.resetCause := rfl
@[simp] theorem modChan_pwrgd (s : State) (c : Nat) (f : Chan → Chan) : (s.modChan c f).pwrgd = s.pwrgd := rfl
@[simp] theorem modChan_perstN (s : State) (c : Nat) (f : Chan → Chan) : (s.modChan c f).perstN = s.perstN := rfl
@[simp] theorem modChan_alive (s : State) (c : Nat) (f : Chan → Chan) : (s.modChan c f).alive = s.alive := rfl
@[simp] theorem modChan_faultN (s : State) (c : Nat) (f : Chan → Chan) : (s.modChan c f).faultN = s.faultN := rfl
@[simp] theorem modChan_xspi (s : State) (c : Nat) (f : Chan → Chan) : (s.modChan c f).xspi = s.xspi := rfl
@[simp] theorem modChan_hkRunning (s : State) (c : Nat) (f : Chan → Chan) : (s.modChan c f).hkRunning = s.hkRunning := rfl
@[simp] theorem modChan_unusable (s : State) (c : Nat) (f : Chan → Chan) : (s.modChan c f).unusable = s.unusable := rfl
@[simp] theorem modChan_banksOut (s : State) (c : Nat) (f : Chan → Chan) : (s.modChan c f).banksOut = s.banksOut := rfl
@[simp] theorem modChan_peerLost (s : State) (c : Nat) (f : Chan → Chan) : (s.modChan c f).peerLost = s.peerLost := rfl
@[simp] theorem modChan_time (s : State) (c : Nat) (f : Chan → Chan) : (s.modChan c f).time = s.time := rfl
@[simp] theorem modChan_keys (s : State) (c : Nat) (f : Chan → Chan) : (s.modChan c f).keys = s.keys := rfl
@[simp] theorem modChan_sec (s : State) (c : Nat) (f : Chan → Chan) : (s.modChan c f).sec = s.sec := rfl
@[simp] theorem modChan_fetchStep (s : State) (c : Nat) (f : Chan → Chan) : (s.modChan c f).fetchStep = s.fetchStep := rfl
@[simp] theorem modChan_verified (s : State) (c : Nat) (f : Chan → Chan) : (s.modChan c f).verified = s.verified := rfl
@[simp] theorem modChan_ingotLive (s : State) (c : Nat) (f : Chan → Chan) : (s.modChan c f).ingotLive = s.ingotLive := rfl
@[simp] theorem modChan_ingCause0 (s : State) (c : Nat) (f : Chan → Chan) : (s.modChan c f).ingCause0 = s.ingCause0 := rfl
@[simp] theorem modChan_ingCause1 (s : State) (c : Nat) (f : Chan → Chan) : (s.modChan c f).ingCause1 = s.ingCause1 := rfl
@[simp] theorem modChan_cfg (s : State) (c : Nat) (f : Chan → Chan) : (s.modChan c f).cfg = s.cfg := rfl
@[simp] theorem modChan_records (s : State) (c : Nat) (f : Chan → Chan) : (s.modChan c f).records = s.records := rfl
@[simp] theorem modChan_loadPorts (s : State) (c : Nat) (f : Chan → Chan) : (s.modChan c f).loadPorts = s.loadPorts := rfl
@[simp] theorem modChan_regs (s : State) (c : Nat) (f : Chan → Chan) : (s.modChan c f).regs = s.regs := rfl
@[simp] theorem modChan_mbx (s : State) (c : Nat) (f : Chan → Chan) : (s.modChan c f).mbx = s.mbx := rfl
@[simp] theorem modChan_i3c (s : State) (c : Nat) (f : Chan → Chan) : (s.modChan c f).i3c = s.i3c := rfl
@[simp] theorem modChan_stations (s : State) (c : Nat) (f : Chan → Chan) : (s.modChan c f).stations = s.stations := rfl
@[simp] theorem modChan_ports (s : State) (c : Nat) (f : Chan → Chan) : (s.modChan c f).ports = s.ports := rfl
@[simp] theorem modChan_bridges (s : State) (c : Nat) (f : Chan → Chan) : (s.modChan c f).bridges = s.bridges := rfl
@[simp] theorem modChan_vhs (s : State) (c : Nat) (f : Chan → Chan) : (s.modChan c f).vhs = s.vhs := rfl
@[simp] theorem modChan_nextId (s : State) (c : Nat) (f : Chan → Chan) : (s.modChan c f).nextId = s.nextId := rfl
@[simp] theorem modChan_picks (s : State) (c : Nat) (f : Chan → Chan) : (s.modChan c f).picks = s.picks := rfl
@[simp] theorem modChan_staging (s : State) (c : Nat) (f : Chan → Chan) : (s.modChan c f).staging = s.staging := rfl
@[simp] theorem modChan_descs (s : State) (c : Nat) (f : Chan → Chan) : (s.modChan c f).descs = s.descs := rfl
@[simp] theorem modChan_mcEntries (s : State) (c : Nat) (f : Chan → Chan) : (s.modChan c f).mcEntries = s.mcEntries := rfl
@[simp] theorem modChan_mcWaits (s : State) (c : Nat) (f : Chan → Chan) : (s.modChan c f).mcWaits = s.mcWaits := rfl
@[simp] theorem modChan_used (s : State) (c : Nat) (f : Chan → Chan) : (s.modChan c f).used = s.used := rfl
@[simp] theorem modChan_usedTo (s : State) (c : Nat) (f : Chan → Chan) : (s.modChan c f).usedTo = s.usedTo := rfl
@[simp] theorem modChan_parkUsed (s : State) (c : Nat) (f : Chan → Chan) : (s.modChan c f).parkUsed = s.parkUsed := rfl
@[simp] theorem modChan_thr (s : State) (c : Nat) (f : Chan → Chan) : (s.modChan c f).thr = s.thr := rfl
@[simp] theorem modChan_banks (s : State) (c : Nat) (f : Chan → Chan) : (s.modChan c f).banks = s.banks := rfl
@[simp] theorem modChan_ended (s : State) (c : Nat) (f : Chan → Chan) : (s.modChan c f).ended = s.ended := rfl
@[simp] theorem modChan_bankCe (s : State) (c : Nat) (f : Chan → Chan) : (s.modChan c f).bankCe = s.bankCe := rfl
@[simp] theorem modChan_tracker (s : State) (c : Nat) (f : Chan → Chan) : (s.modChan c f).tracker = s.tracker := rfl
@[simp] theorem modChan_ideQ (s : State) (c : Nat) (f : Chan → Chan) : (s.modChan c f).ideQ = s.ideQ := rfl
@[simp] theorem modChan_groups (s : State) (c : Nat) (f : Chan → Chan) : (s.modChan c f).groups = s.groups := rfl
@[simp] theorem modChan_reports (s : State) (c : Nat) (f : Chan → Chan) : (s.modChan c f).reports = s.reports := rfl
@[simp] theorem modChan_tapCount (s : State) (c : Nat) (f : Chan → Chan) : (s.modChan c f).tapCount = s.tapCount := rfl
@[simp] theorem modChan_tapRing (s : State) (c : Nat) (f : Chan → Chan) : (s.modChan c f).tapRing = s.tapRing := rfl
@[simp] theorem modChan_samples (s : State) (c : Nat) (f : Chan → Chan) : (s.modChan c f).samples = s.samples := rfl
@[simp] theorem modChan_shapers (s : State) (c : Nat) (f : Chan → Chan) : (s.modChan c f).shapers = s.shapers := rfl
@[simp] theorem modChan_policers (s : State) (c : Nat) (f : Chan → Chan) : (s.modChan c f).policers = s.policers := rfl
@[simp] theorem modChan_evict (s : State) (c : Nat) (f : Chan → Chan) : (s.modChan c f).evict = s.evict := rfl
@[simp] theorem modChan_gateMs (s : State) (c : Nat) (f : Chan → Chan) : (s.modChan c f).gateMs = s.gateMs := rfl
@[simp] theorem modChan_lots (s : State) (c : Nat) (f : Chan → Chan) : (s.modChan c f).lots = s.lots := rfl
@[simp] theorem modChan_vfs (s : State) (c : Nat) (f : Chan → Chan) : (s.modChan c f).vfs = s.vfs := rfl
@[simp] theorem modChan_poolMem (s : State) (c : Nat) (f : Chan → Chan) : (s.modChan c f).poolMem = s.poolMem := rfl
@[simp] theorem modChan_poison (s : State) (c : Nat) (f : Chan → Chan) : (s.modChan c f).poison = s.poison := rfl
@[simp] theorem modChan_hkMem (s : State) (c : Nat) (f : Chan → Chan) : (s.modChan c f).hkMem = s.hkMem := rfl
@[simp] theorem modChan_fab (s : State) (c : Nat) (f : Chan → Chan) : (s.modChan c f).fab = s.fab := rfl
@[simp] theorem modChan_cupel (s : State) (c : Nat) (f : Chan → Chan) : (s.modChan c f).cupel = s.cupel := rfl
@[simp] theorem modChan_slots (s : State) (c : Nat) (f : Chan → Chan) : (s.modChan c f).slots = s.slots := rfl
@[simp] theorem modChan_pd (s : State) (c : Nat) (f : Chan → Chan) : (s.modChan c f).pd = s.pd := rfl
@[simp] theorem modChan_d2d (s : State) (c : Nat) (f : Chan → Chan) : (s.modChan c f).d2d = s.d2d := rfl
@[simp] theorem modChan_assay (s : State) (c : Nat) (f : Chan → Chan) : (s.modChan c f).assay = s.assay := rfl
@[simp] theorem modChan_out (s : State) (c : Nat) (f : Chan → Chan) : (s.modChan c f).out = s.out := rfl

@[simp] theorem modLot_pending (s : State) (l : Nat) (f : Lot → Lot) : (s.modLot l f).pending = s.pending := rfl
@[simp] theorem modLot_clock (s : State) (l : Nat) (f : Lot → Lot) : (s.modLot l f).clock = s.clock := rfl
@[simp] theorem modLot_mode (s : State) (l : Nat) (f : Lot → Lot) : (s.modLot l f).mode = s.mode := rfl
@[simp] theorem modLot_modeCause (s : State) (l : Nat) (f : Lot → Lot) : (s.modLot l f).modeCause = s.modeCause := rfl
@[simp] theorem modLot_resetCause (s : State) (l : Nat) (f : Lot → Lot) : (s.modLot l f).resetCause = s.resetCause := rfl
@[simp] theorem modLot_pwrgd (s : State) (l : Nat) (f : Lot → Lot) : (s.modLot l f).pwrgd = s.pwrgd := rfl
@[simp] theorem modLot_perstN (s : State) (l : Nat) (f : Lot → Lot) : (s.modLot l f).perstN = s.perstN := rfl
@[simp] theorem modLot_alive (s : State) (l : Nat) (f : Lot → Lot) : (s.modLot l f).alive = s.alive := rfl
@[simp] theorem modLot_faultN (s : State) (l : Nat) (f : Lot → Lot) : (s.modLot l f).faultN = s.faultN := rfl
@[simp] theorem modLot_xspi (s : State) (l : Nat) (f : Lot → Lot) : (s.modLot l f).xspi = s.xspi := rfl
@[simp] theorem modLot_hkRunning (s : State) (l : Nat) (f : Lot → Lot) : (s.modLot l f).hkRunning = s.hkRunning := rfl
@[simp] theorem modLot_unusable (s : State) (l : Nat) (f : Lot → Lot) : (s.modLot l f).unusable = s.unusable := rfl
@[simp] theorem modLot_banksOut (s : State) (l : Nat) (f : Lot → Lot) : (s.modLot l f).banksOut = s.banksOut := rfl
@[simp] theorem modLot_peerLost (s : State) (l : Nat) (f : Lot → Lot) : (s.modLot l f).peerLost = s.peerLost := rfl
@[simp] theorem modLot_time (s : State) (l : Nat) (f : Lot → Lot) : (s.modLot l f).time = s.time := rfl
@[simp] theorem modLot_keys (s : State) (l : Nat) (f : Lot → Lot) : (s.modLot l f).keys = s.keys := rfl
@[simp] theorem modLot_sec (s : State) (l : Nat) (f : Lot → Lot) : (s.modLot l f).sec = s.sec := rfl
@[simp] theorem modLot_fetchStep (s : State) (l : Nat) (f : Lot → Lot) : (s.modLot l f).fetchStep = s.fetchStep := rfl
@[simp] theorem modLot_verified (s : State) (l : Nat) (f : Lot → Lot) : (s.modLot l f).verified = s.verified := rfl
@[simp] theorem modLot_ingotLive (s : State) (l : Nat) (f : Lot → Lot) : (s.modLot l f).ingotLive = s.ingotLive := rfl
@[simp] theorem modLot_ingCause0 (s : State) (l : Nat) (f : Lot → Lot) : (s.modLot l f).ingCause0 = s.ingCause0 := rfl
@[simp] theorem modLot_ingCause1 (s : State) (l : Nat) (f : Lot → Lot) : (s.modLot l f).ingCause1 = s.ingCause1 := rfl
@[simp] theorem modLot_cfg (s : State) (l : Nat) (f : Lot → Lot) : (s.modLot l f).cfg = s.cfg := rfl
@[simp] theorem modLot_records (s : State) (l : Nat) (f : Lot → Lot) : (s.modLot l f).records = s.records := rfl
@[simp] theorem modLot_loadPorts (s : State) (l : Nat) (f : Lot → Lot) : (s.modLot l f).loadPorts = s.loadPorts := rfl
@[simp] theorem modLot_regs (s : State) (l : Nat) (f : Lot → Lot) : (s.modLot l f).regs = s.regs := rfl
@[simp] theorem modLot_mbx (s : State) (l : Nat) (f : Lot → Lot) : (s.modLot l f).mbx = s.mbx := rfl
@[simp] theorem modLot_i3c (s : State) (l : Nat) (f : Lot → Lot) : (s.modLot l f).i3c = s.i3c := rfl
@[simp] theorem modLot_stations (s : State) (l : Nat) (f : Lot → Lot) : (s.modLot l f).stations = s.stations := rfl
@[simp] theorem modLot_ports (s : State) (l : Nat) (f : Lot → Lot) : (s.modLot l f).ports = s.ports := rfl
@[simp] theorem modLot_bridges (s : State) (l : Nat) (f : Lot → Lot) : (s.modLot l f).bridges = s.bridges := rfl
@[simp] theorem modLot_vhs (s : State) (l : Nat) (f : Lot → Lot) : (s.modLot l f).vhs = s.vhs := rfl
@[simp] theorem modLot_nextId (s : State) (l : Nat) (f : Lot → Lot) : (s.modLot l f).nextId = s.nextId := rfl
@[simp] theorem modLot_picks (s : State) (l : Nat) (f : Lot → Lot) : (s.modLot l f).picks = s.picks := rfl
@[simp] theorem modLot_staging (s : State) (l : Nat) (f : Lot → Lot) : (s.modLot l f).staging = s.staging := rfl
@[simp] theorem modLot_descs (s : State) (l : Nat) (f : Lot → Lot) : (s.modLot l f).descs = s.descs := rfl
@[simp] theorem modLot_mcEntries (s : State) (l : Nat) (f : Lot → Lot) : (s.modLot l f).mcEntries = s.mcEntries := rfl
@[simp] theorem modLot_mcWaits (s : State) (l : Nat) (f : Lot → Lot) : (s.modLot l f).mcWaits = s.mcWaits := rfl
@[simp] theorem modLot_used (s : State) (l : Nat) (f : Lot → Lot) : (s.modLot l f).used = s.used := rfl
@[simp] theorem modLot_usedTo (s : State) (l : Nat) (f : Lot → Lot) : (s.modLot l f).usedTo = s.usedTo := rfl
@[simp] theorem modLot_parkUsed (s : State) (l : Nat) (f : Lot → Lot) : (s.modLot l f).parkUsed = s.parkUsed := rfl
@[simp] theorem modLot_thr (s : State) (l : Nat) (f : Lot → Lot) : (s.modLot l f).thr = s.thr := rfl
@[simp] theorem modLot_banks (s : State) (l : Nat) (f : Lot → Lot) : (s.modLot l f).banks = s.banks := rfl
@[simp] theorem modLot_ended (s : State) (l : Nat) (f : Lot → Lot) : (s.modLot l f).ended = s.ended := rfl
@[simp] theorem modLot_bankCe (s : State) (l : Nat) (f : Lot → Lot) : (s.modLot l f).bankCe = s.bankCe := rfl
@[simp] theorem modLot_tracker (s : State) (l : Nat) (f : Lot → Lot) : (s.modLot l f).tracker = s.tracker := rfl
@[simp] theorem modLot_ideQ (s : State) (l : Nat) (f : Lot → Lot) : (s.modLot l f).ideQ = s.ideQ := rfl
@[simp] theorem modLot_groups (s : State) (l : Nat) (f : Lot → Lot) : (s.modLot l f).groups = s.groups := rfl
@[simp] theorem modLot_reports (s : State) (l : Nat) (f : Lot → Lot) : (s.modLot l f).reports = s.reports := rfl
@[simp] theorem modLot_tapCount (s : State) (l : Nat) (f : Lot → Lot) : (s.modLot l f).tapCount = s.tapCount := rfl
@[simp] theorem modLot_tapRing (s : State) (l : Nat) (f : Lot → Lot) : (s.modLot l f).tapRing = s.tapRing := rfl
@[simp] theorem modLot_samples (s : State) (l : Nat) (f : Lot → Lot) : (s.modLot l f).samples = s.samples := rfl
@[simp] theorem modLot_shapers (s : State) (l : Nat) (f : Lot → Lot) : (s.modLot l f).shapers = s.shapers := rfl
@[simp] theorem modLot_policers (s : State) (l : Nat) (f : Lot → Lot) : (s.modLot l f).policers = s.policers := rfl
@[simp] theorem modLot_evict (s : State) (l : Nat) (f : Lot → Lot) : (s.modLot l f).evict = s.evict := rfl
@[simp] theorem modLot_gateMs (s : State) (l : Nat) (f : Lot → Lot) : (s.modLot l f).gateMs = s.gateMs := rfl
@[simp] theorem modLot_chans (s : State) (l : Nat) (f : Lot → Lot) : (s.modLot l f).chans = s.chans := rfl
@[simp] theorem modLot_vfs (s : State) (l : Nat) (f : Lot → Lot) : (s.modLot l f).vfs = s.vfs := rfl
@[simp] theorem modLot_poolMem (s : State) (l : Nat) (f : Lot → Lot) : (s.modLot l f).poolMem = s.poolMem := rfl
@[simp] theorem modLot_poison (s : State) (l : Nat) (f : Lot → Lot) : (s.modLot l f).poison = s.poison := rfl
@[simp] theorem modLot_hkMem (s : State) (l : Nat) (f : Lot → Lot) : (s.modLot l f).hkMem = s.hkMem := rfl
@[simp] theorem modLot_fab (s : State) (l : Nat) (f : Lot → Lot) : (s.modLot l f).fab = s.fab := rfl
@[simp] theorem modLot_cupel (s : State) (l : Nat) (f : Lot → Lot) : (s.modLot l f).cupel = s.cupel := rfl
@[simp] theorem modLot_slots (s : State) (l : Nat) (f : Lot → Lot) : (s.modLot l f).slots = s.slots := rfl
@[simp] theorem modLot_pd (s : State) (l : Nat) (f : Lot → Lot) : (s.modLot l f).pd = s.pd := rfl
@[simp] theorem modLot_d2d (s : State) (l : Nat) (f : Lot → Lot) : (s.modLot l f).d2d = s.d2d := rfl
@[simp] theorem modLot_assay (s : State) (l : Nat) (f : Lot → Lot) : (s.modLot l f).assay = s.assay := rfl
@[simp] theorem modLot_out (s : State) (l : Nat) (f : Lot → Lot) : (s.modLot l f).out = s.out := rfl

@[simp] theorem modVf_pending (s : State) (t : Nat) (f : Vf → Vf) : (s.modVf t f).pending = s.pending := rfl
@[simp] theorem modVf_clock (s : State) (t : Nat) (f : Vf → Vf) : (s.modVf t f).clock = s.clock := rfl
@[simp] theorem modVf_mode (s : State) (t : Nat) (f : Vf → Vf) : (s.modVf t f).mode = s.mode := rfl
@[simp] theorem modVf_modeCause (s : State) (t : Nat) (f : Vf → Vf) : (s.modVf t f).modeCause = s.modeCause := rfl
@[simp] theorem modVf_resetCause (s : State) (t : Nat) (f : Vf → Vf) : (s.modVf t f).resetCause = s.resetCause := rfl
@[simp] theorem modVf_pwrgd (s : State) (t : Nat) (f : Vf → Vf) : (s.modVf t f).pwrgd = s.pwrgd := rfl
@[simp] theorem modVf_perstN (s : State) (t : Nat) (f : Vf → Vf) : (s.modVf t f).perstN = s.perstN := rfl
@[simp] theorem modVf_alive (s : State) (t : Nat) (f : Vf → Vf) : (s.modVf t f).alive = s.alive := rfl
@[simp] theorem modVf_faultN (s : State) (t : Nat) (f : Vf → Vf) : (s.modVf t f).faultN = s.faultN := rfl
@[simp] theorem modVf_xspi (s : State) (t : Nat) (f : Vf → Vf) : (s.modVf t f).xspi = s.xspi := rfl
@[simp] theorem modVf_hkRunning (s : State) (t : Nat) (f : Vf → Vf) : (s.modVf t f).hkRunning = s.hkRunning := rfl
@[simp] theorem modVf_unusable (s : State) (t : Nat) (f : Vf → Vf) : (s.modVf t f).unusable = s.unusable := rfl
@[simp] theorem modVf_banksOut (s : State) (t : Nat) (f : Vf → Vf) : (s.modVf t f).banksOut = s.banksOut := rfl
@[simp] theorem modVf_peerLost (s : State) (t : Nat) (f : Vf → Vf) : (s.modVf t f).peerLost = s.peerLost := rfl
@[simp] theorem modVf_time (s : State) (t : Nat) (f : Vf → Vf) : (s.modVf t f).time = s.time := rfl
@[simp] theorem modVf_keys (s : State) (t : Nat) (f : Vf → Vf) : (s.modVf t f).keys = s.keys := rfl
@[simp] theorem modVf_sec (s : State) (t : Nat) (f : Vf → Vf) : (s.modVf t f).sec = s.sec := rfl
@[simp] theorem modVf_fetchStep (s : State) (t : Nat) (f : Vf → Vf) : (s.modVf t f).fetchStep = s.fetchStep := rfl
@[simp] theorem modVf_verified (s : State) (t : Nat) (f : Vf → Vf) : (s.modVf t f).verified = s.verified := rfl
@[simp] theorem modVf_ingotLive (s : State) (t : Nat) (f : Vf → Vf) : (s.modVf t f).ingotLive = s.ingotLive := rfl
@[simp] theorem modVf_ingCause0 (s : State) (t : Nat) (f : Vf → Vf) : (s.modVf t f).ingCause0 = s.ingCause0 := rfl
@[simp] theorem modVf_ingCause1 (s : State) (t : Nat) (f : Vf → Vf) : (s.modVf t f).ingCause1 = s.ingCause1 := rfl
@[simp] theorem modVf_cfg (s : State) (t : Nat) (f : Vf → Vf) : (s.modVf t f).cfg = s.cfg := rfl
@[simp] theorem modVf_records (s : State) (t : Nat) (f : Vf → Vf) : (s.modVf t f).records = s.records := rfl
@[simp] theorem modVf_loadPorts (s : State) (t : Nat) (f : Vf → Vf) : (s.modVf t f).loadPorts = s.loadPorts := rfl
@[simp] theorem modVf_regs (s : State) (t : Nat) (f : Vf → Vf) : (s.modVf t f).regs = s.regs := rfl
@[simp] theorem modVf_mbx (s : State) (t : Nat) (f : Vf → Vf) : (s.modVf t f).mbx = s.mbx := rfl
@[simp] theorem modVf_i3c (s : State) (t : Nat) (f : Vf → Vf) : (s.modVf t f).i3c = s.i3c := rfl
@[simp] theorem modVf_stations (s : State) (t : Nat) (f : Vf → Vf) : (s.modVf t f).stations = s.stations := rfl
@[simp] theorem modVf_ports (s : State) (t : Nat) (f : Vf → Vf) : (s.modVf t f).ports = s.ports := rfl
@[simp] theorem modVf_bridges (s : State) (t : Nat) (f : Vf → Vf) : (s.modVf t f).bridges = s.bridges := rfl
@[simp] theorem modVf_vhs (s : State) (t : Nat) (f : Vf → Vf) : (s.modVf t f).vhs = s.vhs := rfl
@[simp] theorem modVf_nextId (s : State) (t : Nat) (f : Vf → Vf) : (s.modVf t f).nextId = s.nextId := rfl
@[simp] theorem modVf_picks (s : State) (t : Nat) (f : Vf → Vf) : (s.modVf t f).picks = s.picks := rfl
@[simp] theorem modVf_staging (s : State) (t : Nat) (f : Vf → Vf) : (s.modVf t f).staging = s.staging := rfl
@[simp] theorem modVf_descs (s : State) (t : Nat) (f : Vf → Vf) : (s.modVf t f).descs = s.descs := rfl
@[simp] theorem modVf_mcEntries (s : State) (t : Nat) (f : Vf → Vf) : (s.modVf t f).mcEntries = s.mcEntries := rfl
@[simp] theorem modVf_mcWaits (s : State) (t : Nat) (f : Vf → Vf) : (s.modVf t f).mcWaits = s.mcWaits := rfl
@[simp] theorem modVf_used (s : State) (t : Nat) (f : Vf → Vf) : (s.modVf t f).used = s.used := rfl
@[simp] theorem modVf_usedTo (s : State) (t : Nat) (f : Vf → Vf) : (s.modVf t f).usedTo = s.usedTo := rfl
@[simp] theorem modVf_parkUsed (s : State) (t : Nat) (f : Vf → Vf) : (s.modVf t f).parkUsed = s.parkUsed := rfl
@[simp] theorem modVf_thr (s : State) (t : Nat) (f : Vf → Vf) : (s.modVf t f).thr = s.thr := rfl
@[simp] theorem modVf_banks (s : State) (t : Nat) (f : Vf → Vf) : (s.modVf t f).banks = s.banks := rfl
@[simp] theorem modVf_ended (s : State) (t : Nat) (f : Vf → Vf) : (s.modVf t f).ended = s.ended := rfl
@[simp] theorem modVf_bankCe (s : State) (t : Nat) (f : Vf → Vf) : (s.modVf t f).bankCe = s.bankCe := rfl
@[simp] theorem modVf_tracker (s : State) (t : Nat) (f : Vf → Vf) : (s.modVf t f).tracker = s.tracker := rfl
@[simp] theorem modVf_ideQ (s : State) (t : Nat) (f : Vf → Vf) : (s.modVf t f).ideQ = s.ideQ := rfl
@[simp] theorem modVf_groups (s : State) (t : Nat) (f : Vf → Vf) : (s.modVf t f).groups = s.groups := rfl
@[simp] theorem modVf_reports (s : State) (t : Nat) (f : Vf → Vf) : (s.modVf t f).reports = s.reports := rfl
@[simp] theorem modVf_tapCount (s : State) (t : Nat) (f : Vf → Vf) : (s.modVf t f).tapCount = s.tapCount := rfl
@[simp] theorem modVf_tapRing (s : State) (t : Nat) (f : Vf → Vf) : (s.modVf t f).tapRing = s.tapRing := rfl
@[simp] theorem modVf_samples (s : State) (t : Nat) (f : Vf → Vf) : (s.modVf t f).samples = s.samples := rfl
@[simp] theorem modVf_shapers (s : State) (t : Nat) (f : Vf → Vf) : (s.modVf t f).shapers = s.shapers := rfl
@[simp] theorem modVf_policers (s : State) (t : Nat) (f : Vf → Vf) : (s.modVf t f).policers = s.policers := rfl
@[simp] theorem modVf_evict (s : State) (t : Nat) (f : Vf → Vf) : (s.modVf t f).evict = s.evict := rfl
@[simp] theorem modVf_gateMs (s : State) (t : Nat) (f : Vf → Vf) : (s.modVf t f).gateMs = s.gateMs := rfl
@[simp] theorem modVf_chans (s : State) (t : Nat) (f : Vf → Vf) : (s.modVf t f).chans = s.chans := rfl
@[simp] theorem modVf_lots (s : State) (t : Nat) (f : Vf → Vf) : (s.modVf t f).lots = s.lots := rfl
@[simp] theorem modVf_poolMem (s : State) (t : Nat) (f : Vf → Vf) : (s.modVf t f).poolMem = s.poolMem := rfl
@[simp] theorem modVf_poison (s : State) (t : Nat) (f : Vf → Vf) : (s.modVf t f).poison = s.poison := rfl
@[simp] theorem modVf_hkMem (s : State) (t : Nat) (f : Vf → Vf) : (s.modVf t f).hkMem = s.hkMem := rfl
@[simp] theorem modVf_fab (s : State) (t : Nat) (f : Vf → Vf) : (s.modVf t f).fab = s.fab := rfl
@[simp] theorem modVf_cupel (s : State) (t : Nat) (f : Vf → Vf) : (s.modVf t f).cupel = s.cupel := rfl
@[simp] theorem modVf_slots (s : State) (t : Nat) (f : Vf → Vf) : (s.modVf t f).slots = s.slots := rfl
@[simp] theorem modVf_pd (s : State) (t : Nat) (f : Vf → Vf) : (s.modVf t f).pd = s.pd := rfl
@[simp] theorem modVf_d2d (s : State) (t : Nat) (f : Vf → Vf) : (s.modVf t f).d2d = s.d2d := rfl
@[simp] theorem modVf_assay (s : State) (t : Nat) (f : Vf → Vf) : (s.modVf t f).assay = s.assay := rfl
@[simp] theorem modVf_out (s : State) (t : Nat) (f : Vf → Vf) : (s.modVf t f).out = s.out := rfl

@[simp] theorem modSlot_pending (s : State) (n : Nat) (f : Slot → Slot) : (s.modSlot n f).pending = s.pending := rfl
@[simp] theorem modSlot_clock (s : State) (n : Nat) (f : Slot → Slot) : (s.modSlot n f).clock = s.clock := rfl
@[simp] theorem modSlot_mode (s : State) (n : Nat) (f : Slot → Slot) : (s.modSlot n f).mode = s.mode := rfl
@[simp] theorem modSlot_modeCause (s : State) (n : Nat) (f : Slot → Slot) : (s.modSlot n f).modeCause = s.modeCause := rfl
@[simp] theorem modSlot_resetCause (s : State) (n : Nat) (f : Slot → Slot) : (s.modSlot n f).resetCause = s.resetCause := rfl
@[simp] theorem modSlot_pwrgd (s : State) (n : Nat) (f : Slot → Slot) : (s.modSlot n f).pwrgd = s.pwrgd := rfl
@[simp] theorem modSlot_perstN (s : State) (n : Nat) (f : Slot → Slot) : (s.modSlot n f).perstN = s.perstN := rfl
@[simp] theorem modSlot_alive (s : State) (n : Nat) (f : Slot → Slot) : (s.modSlot n f).alive = s.alive := rfl
@[simp] theorem modSlot_faultN (s : State) (n : Nat) (f : Slot → Slot) : (s.modSlot n f).faultN = s.faultN := rfl
@[simp] theorem modSlot_xspi (s : State) (n : Nat) (f : Slot → Slot) : (s.modSlot n f).xspi = s.xspi := rfl
@[simp] theorem modSlot_hkRunning (s : State) (n : Nat) (f : Slot → Slot) : (s.modSlot n f).hkRunning = s.hkRunning := rfl
@[simp] theorem modSlot_unusable (s : State) (n : Nat) (f : Slot → Slot) : (s.modSlot n f).unusable = s.unusable := rfl
@[simp] theorem modSlot_banksOut (s : State) (n : Nat) (f : Slot → Slot) : (s.modSlot n f).banksOut = s.banksOut := rfl
@[simp] theorem modSlot_peerLost (s : State) (n : Nat) (f : Slot → Slot) : (s.modSlot n f).peerLost = s.peerLost := rfl
@[simp] theorem modSlot_time (s : State) (n : Nat) (f : Slot → Slot) : (s.modSlot n f).time = s.time := rfl
@[simp] theorem modSlot_keys (s : State) (n : Nat) (f : Slot → Slot) : (s.modSlot n f).keys = s.keys := rfl
@[simp] theorem modSlot_sec (s : State) (n : Nat) (f : Slot → Slot) : (s.modSlot n f).sec = s.sec := rfl
@[simp] theorem modSlot_fetchStep (s : State) (n : Nat) (f : Slot → Slot) : (s.modSlot n f).fetchStep = s.fetchStep := rfl
@[simp] theorem modSlot_verified (s : State) (n : Nat) (f : Slot → Slot) : (s.modSlot n f).verified = s.verified := rfl
@[simp] theorem modSlot_ingotLive (s : State) (n : Nat) (f : Slot → Slot) : (s.modSlot n f).ingotLive = s.ingotLive := rfl
@[simp] theorem modSlot_ingCause0 (s : State) (n : Nat) (f : Slot → Slot) : (s.modSlot n f).ingCause0 = s.ingCause0 := rfl
@[simp] theorem modSlot_ingCause1 (s : State) (n : Nat) (f : Slot → Slot) : (s.modSlot n f).ingCause1 = s.ingCause1 := rfl
@[simp] theorem modSlot_cfg (s : State) (n : Nat) (f : Slot → Slot) : (s.modSlot n f).cfg = s.cfg := rfl
@[simp] theorem modSlot_records (s : State) (n : Nat) (f : Slot → Slot) : (s.modSlot n f).records = s.records := rfl
@[simp] theorem modSlot_loadPorts (s : State) (n : Nat) (f : Slot → Slot) : (s.modSlot n f).loadPorts = s.loadPorts := rfl
@[simp] theorem modSlot_regs (s : State) (n : Nat) (f : Slot → Slot) : (s.modSlot n f).regs = s.regs := rfl
@[simp] theorem modSlot_mbx (s : State) (n : Nat) (f : Slot → Slot) : (s.modSlot n f).mbx = s.mbx := rfl
@[simp] theorem modSlot_i3c (s : State) (n : Nat) (f : Slot → Slot) : (s.modSlot n f).i3c = s.i3c := rfl
@[simp] theorem modSlot_stations (s : State) (n : Nat) (f : Slot → Slot) : (s.modSlot n f).stations = s.stations := rfl
@[simp] theorem modSlot_ports (s : State) (n : Nat) (f : Slot → Slot) : (s.modSlot n f).ports = s.ports := rfl
@[simp] theorem modSlot_bridges (s : State) (n : Nat) (f : Slot → Slot) : (s.modSlot n f).bridges = s.bridges := rfl
@[simp] theorem modSlot_vhs (s : State) (n : Nat) (f : Slot → Slot) : (s.modSlot n f).vhs = s.vhs := rfl
@[simp] theorem modSlot_nextId (s : State) (n : Nat) (f : Slot → Slot) : (s.modSlot n f).nextId = s.nextId := rfl
@[simp] theorem modSlot_picks (s : State) (n : Nat) (f : Slot → Slot) : (s.modSlot n f).picks = s.picks := rfl
@[simp] theorem modSlot_staging (s : State) (n : Nat) (f : Slot → Slot) : (s.modSlot n f).staging = s.staging := rfl
@[simp] theorem modSlot_descs (s : State) (n : Nat) (f : Slot → Slot) : (s.modSlot n f).descs = s.descs := rfl
@[simp] theorem modSlot_mcEntries (s : State) (n : Nat) (f : Slot → Slot) : (s.modSlot n f).mcEntries = s.mcEntries := rfl
@[simp] theorem modSlot_mcWaits (s : State) (n : Nat) (f : Slot → Slot) : (s.modSlot n f).mcWaits = s.mcWaits := rfl
@[simp] theorem modSlot_used (s : State) (n : Nat) (f : Slot → Slot) : (s.modSlot n f).used = s.used := rfl
@[simp] theorem modSlot_usedTo (s : State) (n : Nat) (f : Slot → Slot) : (s.modSlot n f).usedTo = s.usedTo := rfl
@[simp] theorem modSlot_parkUsed (s : State) (n : Nat) (f : Slot → Slot) : (s.modSlot n f).parkUsed = s.parkUsed := rfl
@[simp] theorem modSlot_thr (s : State) (n : Nat) (f : Slot → Slot) : (s.modSlot n f).thr = s.thr := rfl
@[simp] theorem modSlot_banks (s : State) (n : Nat) (f : Slot → Slot) : (s.modSlot n f).banks = s.banks := rfl
@[simp] theorem modSlot_ended (s : State) (n : Nat) (f : Slot → Slot) : (s.modSlot n f).ended = s.ended := rfl
@[simp] theorem modSlot_bankCe (s : State) (n : Nat) (f : Slot → Slot) : (s.modSlot n f).bankCe = s.bankCe := rfl
@[simp] theorem modSlot_tracker (s : State) (n : Nat) (f : Slot → Slot) : (s.modSlot n f).tracker = s.tracker := rfl
@[simp] theorem modSlot_ideQ (s : State) (n : Nat) (f : Slot → Slot) : (s.modSlot n f).ideQ = s.ideQ := rfl
@[simp] theorem modSlot_groups (s : State) (n : Nat) (f : Slot → Slot) : (s.modSlot n f).groups = s.groups := rfl
@[simp] theorem modSlot_reports (s : State) (n : Nat) (f : Slot → Slot) : (s.modSlot n f).reports = s.reports := rfl
@[simp] theorem modSlot_tapCount (s : State) (n : Nat) (f : Slot → Slot) : (s.modSlot n f).tapCount = s.tapCount := rfl
@[simp] theorem modSlot_tapRing (s : State) (n : Nat) (f : Slot → Slot) : (s.modSlot n f).tapRing = s.tapRing := rfl
@[simp] theorem modSlot_samples (s : State) (n : Nat) (f : Slot → Slot) : (s.modSlot n f).samples = s.samples := rfl
@[simp] theorem modSlot_shapers (s : State) (n : Nat) (f : Slot → Slot) : (s.modSlot n f).shapers = s.shapers := rfl
@[simp] theorem modSlot_policers (s : State) (n : Nat) (f : Slot → Slot) : (s.modSlot n f).policers = s.policers := rfl
@[simp] theorem modSlot_evict (s : State) (n : Nat) (f : Slot → Slot) : (s.modSlot n f).evict = s.evict := rfl
@[simp] theorem modSlot_gateMs (s : State) (n : Nat) (f : Slot → Slot) : (s.modSlot n f).gateMs = s.gateMs := rfl
@[simp] theorem modSlot_chans (s : State) (n : Nat) (f : Slot → Slot) : (s.modSlot n f).chans = s.chans := rfl
@[simp] theorem modSlot_lots (s : State) (n : Nat) (f : Slot → Slot) : (s.modSlot n f).lots = s.lots := rfl
@[simp] theorem modSlot_vfs (s : State) (n : Nat) (f : Slot → Slot) : (s.modSlot n f).vfs = s.vfs := rfl
@[simp] theorem modSlot_poolMem (s : State) (n : Nat) (f : Slot → Slot) : (s.modSlot n f).poolMem = s.poolMem := rfl
@[simp] theorem modSlot_poison (s : State) (n : Nat) (f : Slot → Slot) : (s.modSlot n f).poison = s.poison := rfl
@[simp] theorem modSlot_hkMem (s : State) (n : Nat) (f : Slot → Slot) : (s.modSlot n f).hkMem = s.hkMem := rfl
@[simp] theorem modSlot_fab (s : State) (n : Nat) (f : Slot → Slot) : (s.modSlot n f).fab = s.fab := rfl
@[simp] theorem modSlot_cupel (s : State) (n : Nat) (f : Slot → Slot) : (s.modSlot n f).cupel = s.cupel := rfl
@[simp] theorem modSlot_pd (s : State) (n : Nat) (f : Slot → Slot) : (s.modSlot n f).pd = s.pd := rfl
@[simp] theorem modSlot_d2d (s : State) (n : Nat) (f : Slot → Slot) : (s.modSlot n f).d2d = s.d2d := rfl
@[simp] theorem modSlot_assay (s : State) (n : Nat) (f : Slot → Slot) : (s.modSlot n f).assay = s.assay := rfl
@[simp] theorem modSlot_out (s : State) (n : Nat) (f : Slot → Slot) : (s.modSlot n f).out = s.out := rfl

@[simp] theorem modFab_pending (s : State) (f : Fab → Fab) : (s.modFab f).pending = s.pending := rfl
@[simp] theorem modFab_clock (s : State) (f : Fab → Fab) : (s.modFab f).clock = s.clock := rfl
@[simp] theorem modFab_mode (s : State) (f : Fab → Fab) : (s.modFab f).mode = s.mode := rfl
@[simp] theorem modFab_modeCause (s : State) (f : Fab → Fab) : (s.modFab f).modeCause = s.modeCause := rfl
@[simp] theorem modFab_resetCause (s : State) (f : Fab → Fab) : (s.modFab f).resetCause = s.resetCause := rfl
@[simp] theorem modFab_pwrgd (s : State) (f : Fab → Fab) : (s.modFab f).pwrgd = s.pwrgd := rfl
@[simp] theorem modFab_perstN (s : State) (f : Fab → Fab) : (s.modFab f).perstN = s.perstN := rfl
@[simp] theorem modFab_alive (s : State) (f : Fab → Fab) : (s.modFab f).alive = s.alive := rfl
@[simp] theorem modFab_faultN (s : State) (f : Fab → Fab) : (s.modFab f).faultN = s.faultN := rfl
@[simp] theorem modFab_xspi (s : State) (f : Fab → Fab) : (s.modFab f).xspi = s.xspi := rfl
@[simp] theorem modFab_hkRunning (s : State) (f : Fab → Fab) : (s.modFab f).hkRunning = s.hkRunning := rfl
@[simp] theorem modFab_unusable (s : State) (f : Fab → Fab) : (s.modFab f).unusable = s.unusable := rfl
@[simp] theorem modFab_banksOut (s : State) (f : Fab → Fab) : (s.modFab f).banksOut = s.banksOut := rfl
@[simp] theorem modFab_peerLost (s : State) (f : Fab → Fab) : (s.modFab f).peerLost = s.peerLost := rfl
@[simp] theorem modFab_time (s : State) (f : Fab → Fab) : (s.modFab f).time = s.time := rfl
@[simp] theorem modFab_keys (s : State) (f : Fab → Fab) : (s.modFab f).keys = s.keys := rfl
@[simp] theorem modFab_sec (s : State) (f : Fab → Fab) : (s.modFab f).sec = s.sec := rfl
@[simp] theorem modFab_fetchStep (s : State) (f : Fab → Fab) : (s.modFab f).fetchStep = s.fetchStep := rfl
@[simp] theorem modFab_verified (s : State) (f : Fab → Fab) : (s.modFab f).verified = s.verified := rfl
@[simp] theorem modFab_ingotLive (s : State) (f : Fab → Fab) : (s.modFab f).ingotLive = s.ingotLive := rfl
@[simp] theorem modFab_ingCause0 (s : State) (f : Fab → Fab) : (s.modFab f).ingCause0 = s.ingCause0 := rfl
@[simp] theorem modFab_ingCause1 (s : State) (f : Fab → Fab) : (s.modFab f).ingCause1 = s.ingCause1 := rfl
@[simp] theorem modFab_cfg (s : State) (f : Fab → Fab) : (s.modFab f).cfg = s.cfg := rfl
@[simp] theorem modFab_records (s : State) (f : Fab → Fab) : (s.modFab f).records = s.records := rfl
@[simp] theorem modFab_loadPorts (s : State) (f : Fab → Fab) : (s.modFab f).loadPorts = s.loadPorts := rfl
@[simp] theorem modFab_regs (s : State) (f : Fab → Fab) : (s.modFab f).regs = s.regs := rfl
@[simp] theorem modFab_mbx (s : State) (f : Fab → Fab) : (s.modFab f).mbx = s.mbx := rfl
@[simp] theorem modFab_i3c (s : State) (f : Fab → Fab) : (s.modFab f).i3c = s.i3c := rfl
@[simp] theorem modFab_stations (s : State) (f : Fab → Fab) : (s.modFab f).stations = s.stations := rfl
@[simp] theorem modFab_ports (s : State) (f : Fab → Fab) : (s.modFab f).ports = s.ports := rfl
@[simp] theorem modFab_bridges (s : State) (f : Fab → Fab) : (s.modFab f).bridges = s.bridges := rfl
@[simp] theorem modFab_vhs (s : State) (f : Fab → Fab) : (s.modFab f).vhs = s.vhs := rfl
@[simp] theorem modFab_nextId (s : State) (f : Fab → Fab) : (s.modFab f).nextId = s.nextId := rfl
@[simp] theorem modFab_picks (s : State) (f : Fab → Fab) : (s.modFab f).picks = s.picks := rfl
@[simp] theorem modFab_staging (s : State) (f : Fab → Fab) : (s.modFab f).staging = s.staging := rfl
@[simp] theorem modFab_descs (s : State) (f : Fab → Fab) : (s.modFab f).descs = s.descs := rfl
@[simp] theorem modFab_mcEntries (s : State) (f : Fab → Fab) : (s.modFab f).mcEntries = s.mcEntries := rfl
@[simp] theorem modFab_mcWaits (s : State) (f : Fab → Fab) : (s.modFab f).mcWaits = s.mcWaits := rfl
@[simp] theorem modFab_used (s : State) (f : Fab → Fab) : (s.modFab f).used = s.used := rfl
@[simp] theorem modFab_usedTo (s : State) (f : Fab → Fab) : (s.modFab f).usedTo = s.usedTo := rfl
@[simp] theorem modFab_parkUsed (s : State) (f : Fab → Fab) : (s.modFab f).parkUsed = s.parkUsed := rfl
@[simp] theorem modFab_thr (s : State) (f : Fab → Fab) : (s.modFab f).thr = s.thr := rfl
@[simp] theorem modFab_banks (s : State) (f : Fab → Fab) : (s.modFab f).banks = s.banks := rfl
@[simp] theorem modFab_ended (s : State) (f : Fab → Fab) : (s.modFab f).ended = s.ended := rfl
@[simp] theorem modFab_bankCe (s : State) (f : Fab → Fab) : (s.modFab f).bankCe = s.bankCe := rfl
@[simp] theorem modFab_tracker (s : State) (f : Fab → Fab) : (s.modFab f).tracker = s.tracker := rfl
@[simp] theorem modFab_ideQ (s : State) (f : Fab → Fab) : (s.modFab f).ideQ = s.ideQ := rfl
@[simp] theorem modFab_groups (s : State) (f : Fab → Fab) : (s.modFab f).groups = s.groups := rfl
@[simp] theorem modFab_reports (s : State) (f : Fab → Fab) : (s.modFab f).reports = s.reports := rfl
@[simp] theorem modFab_tapCount (s : State) (f : Fab → Fab) : (s.modFab f).tapCount = s.tapCount := rfl
@[simp] theorem modFab_tapRing (s : State) (f : Fab → Fab) : (s.modFab f).tapRing = s.tapRing := rfl
@[simp] theorem modFab_samples (s : State) (f : Fab → Fab) : (s.modFab f).samples = s.samples := rfl
@[simp] theorem modFab_shapers (s : State) (f : Fab → Fab) : (s.modFab f).shapers = s.shapers := rfl
@[simp] theorem modFab_policers (s : State) (f : Fab → Fab) : (s.modFab f).policers = s.policers := rfl
@[simp] theorem modFab_evict (s : State) (f : Fab → Fab) : (s.modFab f).evict = s.evict := rfl
@[simp] theorem modFab_gateMs (s : State) (f : Fab → Fab) : (s.modFab f).gateMs = s.gateMs := rfl
@[simp] theorem modFab_chans (s : State) (f : Fab → Fab) : (s.modFab f).chans = s.chans := rfl
@[simp] theorem modFab_lots (s : State) (f : Fab → Fab) : (s.modFab f).lots = s.lots := rfl
@[simp] theorem modFab_vfs (s : State) (f : Fab → Fab) : (s.modFab f).vfs = s.vfs := rfl
@[simp] theorem modFab_poolMem (s : State) (f : Fab → Fab) : (s.modFab f).poolMem = s.poolMem := rfl
@[simp] theorem modFab_poison (s : State) (f : Fab → Fab) : (s.modFab f).poison = s.poison := rfl
@[simp] theorem modFab_hkMem (s : State) (f : Fab → Fab) : (s.modFab f).hkMem = s.hkMem := rfl
@[simp] theorem modFab_cupel (s : State) (f : Fab → Fab) : (s.modFab f).cupel = s.cupel := rfl
@[simp] theorem modFab_slots (s : State) (f : Fab → Fab) : (s.modFab f).slots = s.slots := rfl
@[simp] theorem modFab_pd (s : State) (f : Fab → Fab) : (s.modFab f).pd = s.pd := rfl
@[simp] theorem modFab_d2d (s : State) (f : Fab → Fab) : (s.modFab f).d2d = s.d2d := rfl
@[simp] theorem modFab_assay (s : State) (f : Fab → Fab) : (s.modFab f).assay = s.assay := rfl
@[simp] theorem modFab_out (s : State) (f : Fab → Fab) : (s.modFab f).out = s.out := rfl

@[simp] theorem modFabLink_pending (s : State) (p : Nat) (f : FabLink → FabLink) : (s.modFabLink p f).pending = s.pending := rfl
@[simp] theorem modFabLink_clock (s : State) (p : Nat) (f : FabLink → FabLink) : (s.modFabLink p f).clock = s.clock := rfl
@[simp] theorem modFabLink_mode (s : State) (p : Nat) (f : FabLink → FabLink) : (s.modFabLink p f).mode = s.mode := rfl
@[simp] theorem modFabLink_modeCause (s : State) (p : Nat) (f : FabLink → FabLink) : (s.modFabLink p f).modeCause = s.modeCause := rfl
@[simp] theorem modFabLink_resetCause (s : State) (p : Nat) (f : FabLink → FabLink) : (s.modFabLink p f).resetCause = s.resetCause := rfl
@[simp] theorem modFabLink_pwrgd (s : State) (p : Nat) (f : FabLink → FabLink) : (s.modFabLink p f).pwrgd = s.pwrgd := rfl
@[simp] theorem modFabLink_perstN (s : State) (p : Nat) (f : FabLink → FabLink) : (s.modFabLink p f).perstN = s.perstN := rfl
@[simp] theorem modFabLink_alive (s : State) (p : Nat) (f : FabLink → FabLink) : (s.modFabLink p f).alive = s.alive := rfl
@[simp] theorem modFabLink_faultN (s : State) (p : Nat) (f : FabLink → FabLink) : (s.modFabLink p f).faultN = s.faultN := rfl
@[simp] theorem modFabLink_xspi (s : State) (p : Nat) (f : FabLink → FabLink) : (s.modFabLink p f).xspi = s.xspi := rfl
@[simp] theorem modFabLink_hkRunning (s : State) (p : Nat) (f : FabLink → FabLink) : (s.modFabLink p f).hkRunning = s.hkRunning := rfl
@[simp] theorem modFabLink_unusable (s : State) (p : Nat) (f : FabLink → FabLink) : (s.modFabLink p f).unusable = s.unusable := rfl
@[simp] theorem modFabLink_banksOut (s : State) (p : Nat) (f : FabLink → FabLink) : (s.modFabLink p f).banksOut = s.banksOut := rfl
@[simp] theorem modFabLink_peerLost (s : State) (p : Nat) (f : FabLink → FabLink) : (s.modFabLink p f).peerLost = s.peerLost := rfl
@[simp] theorem modFabLink_time (s : State) (p : Nat) (f : FabLink → FabLink) : (s.modFabLink p f).time = s.time := rfl
@[simp] theorem modFabLink_keys (s : State) (p : Nat) (f : FabLink → FabLink) : (s.modFabLink p f).keys = s.keys := rfl
@[simp] theorem modFabLink_sec (s : State) (p : Nat) (f : FabLink → FabLink) : (s.modFabLink p f).sec = s.sec := rfl
@[simp] theorem modFabLink_fetchStep (s : State) (p : Nat) (f : FabLink → FabLink) : (s.modFabLink p f).fetchStep = s.fetchStep := rfl
@[simp] theorem modFabLink_verified (s : State) (p : Nat) (f : FabLink → FabLink) : (s.modFabLink p f).verified = s.verified := rfl
@[simp] theorem modFabLink_ingotLive (s : State) (p : Nat) (f : FabLink → FabLink) : (s.modFabLink p f).ingotLive = s.ingotLive := rfl
@[simp] theorem modFabLink_ingCause0 (s : State) (p : Nat) (f : FabLink → FabLink) : (s.modFabLink p f).ingCause0 = s.ingCause0 := rfl
@[simp] theorem modFabLink_ingCause1 (s : State) (p : Nat) (f : FabLink → FabLink) : (s.modFabLink p f).ingCause1 = s.ingCause1 := rfl
@[simp] theorem modFabLink_cfg (s : State) (p : Nat) (f : FabLink → FabLink) : (s.modFabLink p f).cfg = s.cfg := rfl
@[simp] theorem modFabLink_records (s : State) (p : Nat) (f : FabLink → FabLink) : (s.modFabLink p f).records = s.records := rfl
@[simp] theorem modFabLink_loadPorts (s : State) (p : Nat) (f : FabLink → FabLink) : (s.modFabLink p f).loadPorts = s.loadPorts := rfl
@[simp] theorem modFabLink_regs (s : State) (p : Nat) (f : FabLink → FabLink) : (s.modFabLink p f).regs = s.regs := rfl
@[simp] theorem modFabLink_mbx (s : State) (p : Nat) (f : FabLink → FabLink) : (s.modFabLink p f).mbx = s.mbx := rfl
@[simp] theorem modFabLink_i3c (s : State) (p : Nat) (f : FabLink → FabLink) : (s.modFabLink p f).i3c = s.i3c := rfl
@[simp] theorem modFabLink_stations (s : State) (p : Nat) (f : FabLink → FabLink) : (s.modFabLink p f).stations = s.stations := rfl
@[simp] theorem modFabLink_ports (s : State) (p : Nat) (f : FabLink → FabLink) : (s.modFabLink p f).ports = s.ports := rfl
@[simp] theorem modFabLink_bridges (s : State) (p : Nat) (f : FabLink → FabLink) : (s.modFabLink p f).bridges = s.bridges := rfl
@[simp] theorem modFabLink_vhs (s : State) (p : Nat) (f : FabLink → FabLink) : (s.modFabLink p f).vhs = s.vhs := rfl
@[simp] theorem modFabLink_nextId (s : State) (p : Nat) (f : FabLink → FabLink) : (s.modFabLink p f).nextId = s.nextId := rfl
@[simp] theorem modFabLink_picks (s : State) (p : Nat) (f : FabLink → FabLink) : (s.modFabLink p f).picks = s.picks := rfl
@[simp] theorem modFabLink_staging (s : State) (p : Nat) (f : FabLink → FabLink) : (s.modFabLink p f).staging = s.staging := rfl
@[simp] theorem modFabLink_descs (s : State) (p : Nat) (f : FabLink → FabLink) : (s.modFabLink p f).descs = s.descs := rfl
@[simp] theorem modFabLink_mcEntries (s : State) (p : Nat) (f : FabLink → FabLink) : (s.modFabLink p f).mcEntries = s.mcEntries := rfl
@[simp] theorem modFabLink_mcWaits (s : State) (p : Nat) (f : FabLink → FabLink) : (s.modFabLink p f).mcWaits = s.mcWaits := rfl
@[simp] theorem modFabLink_used (s : State) (p : Nat) (f : FabLink → FabLink) : (s.modFabLink p f).used = s.used := rfl
@[simp] theorem modFabLink_usedTo (s : State) (p : Nat) (f : FabLink → FabLink) : (s.modFabLink p f).usedTo = s.usedTo := rfl
@[simp] theorem modFabLink_parkUsed (s : State) (p : Nat) (f : FabLink → FabLink) : (s.modFabLink p f).parkUsed = s.parkUsed := rfl
@[simp] theorem modFabLink_thr (s : State) (p : Nat) (f : FabLink → FabLink) : (s.modFabLink p f).thr = s.thr := rfl
@[simp] theorem modFabLink_banks (s : State) (p : Nat) (f : FabLink → FabLink) : (s.modFabLink p f).banks = s.banks := rfl
@[simp] theorem modFabLink_ended (s : State) (p : Nat) (f : FabLink → FabLink) : (s.modFabLink p f).ended = s.ended := rfl
@[simp] theorem modFabLink_bankCe (s : State) (p : Nat) (f : FabLink → FabLink) : (s.modFabLink p f).bankCe = s.bankCe := rfl
@[simp] theorem modFabLink_tracker (s : State) (p : Nat) (f : FabLink → FabLink) : (s.modFabLink p f).tracker = s.tracker := rfl
@[simp] theorem modFabLink_ideQ (s : State) (p : Nat) (f : FabLink → FabLink) : (s.modFabLink p f).ideQ = s.ideQ := rfl
@[simp] theorem modFabLink_groups (s : State) (p : Nat) (f : FabLink → FabLink) : (s.modFabLink p f).groups = s.groups := rfl
@[simp] theorem modFabLink_reports (s : State) (p : Nat) (f : FabLink → FabLink) : (s.modFabLink p f).reports = s.reports := rfl
@[simp] theorem modFabLink_tapCount (s : State) (p : Nat) (f : FabLink → FabLink) : (s.modFabLink p f).tapCount = s.tapCount := rfl
@[simp] theorem modFabLink_tapRing (s : State) (p : Nat) (f : FabLink → FabLink) : (s.modFabLink p f).tapRing = s.tapRing := rfl
@[simp] theorem modFabLink_samples (s : State) (p : Nat) (f : FabLink → FabLink) : (s.modFabLink p f).samples = s.samples := rfl
@[simp] theorem modFabLink_shapers (s : State) (p : Nat) (f : FabLink → FabLink) : (s.modFabLink p f).shapers = s.shapers := rfl
@[simp] theorem modFabLink_policers (s : State) (p : Nat) (f : FabLink → FabLink) : (s.modFabLink p f).policers = s.policers := rfl
@[simp] theorem modFabLink_evict (s : State) (p : Nat) (f : FabLink → FabLink) : (s.modFabLink p f).evict = s.evict := rfl
@[simp] theorem modFabLink_gateMs (s : State) (p : Nat) (f : FabLink → FabLink) : (s.modFabLink p f).gateMs = s.gateMs := rfl
@[simp] theorem modFabLink_chans (s : State) (p : Nat) (f : FabLink → FabLink) : (s.modFabLink p f).chans = s.chans := rfl
@[simp] theorem modFabLink_lots (s : State) (p : Nat) (f : FabLink → FabLink) : (s.modFabLink p f).lots = s.lots := rfl
@[simp] theorem modFabLink_vfs (s : State) (p : Nat) (f : FabLink → FabLink) : (s.modFabLink p f).vfs = s.vfs := rfl
@[simp] theorem modFabLink_poolMem (s : State) (p : Nat) (f : FabLink → FabLink) : (s.modFabLink p f).poolMem = s.poolMem := rfl
@[simp] theorem modFabLink_poison (s : State) (p : Nat) (f : FabLink → FabLink) : (s.modFabLink p f).poison = s.poison := rfl
@[simp] theorem modFabLink_hkMem (s : State) (p : Nat) (f : FabLink → FabLink) : (s.modFabLink p f).hkMem = s.hkMem := rfl
@[simp] theorem modFabLink_cupel (s : State) (p : Nat) (f : FabLink → FabLink) : (s.modFabLink p f).cupel = s.cupel := rfl
@[simp] theorem modFabLink_slots (s : State) (p : Nat) (f : FabLink → FabLink) : (s.modFabLink p f).slots = s.slots := rfl
@[simp] theorem modFabLink_pd (s : State) (p : Nat) (f : FabLink → FabLink) : (s.modFabLink p f).pd = s.pd := rfl
@[simp] theorem modFabLink_d2d (s : State) (p : Nat) (f : FabLink → FabLink) : (s.modFabLink p f).d2d = s.d2d := rfl
@[simp] theorem modFabLink_assay (s : State) (p : Nat) (f : FabLink → FabLink) : (s.modFabLink p f).assay = s.assay := rfl
@[simp] theorem modFabLink_out (s : State) (p : Nat) (f : FabLink → FabLink) : (s.modFabLink p f).out = s.out := rfl

@[simp] theorem modCupel_pending (s : State) (f : Cupel → Cupel) : (s.modCupel f).pending = s.pending := rfl
@[simp] theorem modCupel_clock (s : State) (f : Cupel → Cupel) : (s.modCupel f).clock = s.clock := rfl
@[simp] theorem modCupel_mode (s : State) (f : Cupel → Cupel) : (s.modCupel f).mode = s.mode := rfl
@[simp] theorem modCupel_modeCause (s : State) (f : Cupel → Cupel) : (s.modCupel f).modeCause = s.modeCause := rfl
@[simp] theorem modCupel_resetCause (s : State) (f : Cupel → Cupel) : (s.modCupel f).resetCause = s.resetCause := rfl
@[simp] theorem modCupel_pwrgd (s : State) (f : Cupel → Cupel) : (s.modCupel f).pwrgd = s.pwrgd := rfl
@[simp] theorem modCupel_perstN (s : State) (f : Cupel → Cupel) : (s.modCupel f).perstN = s.perstN := rfl
@[simp] theorem modCupel_alive (s : State) (f : Cupel → Cupel) : (s.modCupel f).alive = s.alive := rfl
@[simp] theorem modCupel_faultN (s : State) (f : Cupel → Cupel) : (s.modCupel f).faultN = s.faultN := rfl
@[simp] theorem modCupel_xspi (s : State) (f : Cupel → Cupel) : (s.modCupel f).xspi = s.xspi := rfl
@[simp] theorem modCupel_hkRunning (s : State) (f : Cupel → Cupel) : (s.modCupel f).hkRunning = s.hkRunning := rfl
@[simp] theorem modCupel_unusable (s : State) (f : Cupel → Cupel) : (s.modCupel f).unusable = s.unusable := rfl
@[simp] theorem modCupel_banksOut (s : State) (f : Cupel → Cupel) : (s.modCupel f).banksOut = s.banksOut := rfl
@[simp] theorem modCupel_peerLost (s : State) (f : Cupel → Cupel) : (s.modCupel f).peerLost = s.peerLost := rfl
@[simp] theorem modCupel_time (s : State) (f : Cupel → Cupel) : (s.modCupel f).time = s.time := rfl
@[simp] theorem modCupel_keys (s : State) (f : Cupel → Cupel) : (s.modCupel f).keys = s.keys := rfl
@[simp] theorem modCupel_sec (s : State) (f : Cupel → Cupel) : (s.modCupel f).sec = s.sec := rfl
@[simp] theorem modCupel_fetchStep (s : State) (f : Cupel → Cupel) : (s.modCupel f).fetchStep = s.fetchStep := rfl
@[simp] theorem modCupel_verified (s : State) (f : Cupel → Cupel) : (s.modCupel f).verified = s.verified := rfl
@[simp] theorem modCupel_ingotLive (s : State) (f : Cupel → Cupel) : (s.modCupel f).ingotLive = s.ingotLive := rfl
@[simp] theorem modCupel_ingCause0 (s : State) (f : Cupel → Cupel) : (s.modCupel f).ingCause0 = s.ingCause0 := rfl
@[simp] theorem modCupel_ingCause1 (s : State) (f : Cupel → Cupel) : (s.modCupel f).ingCause1 = s.ingCause1 := rfl
@[simp] theorem modCupel_cfg (s : State) (f : Cupel → Cupel) : (s.modCupel f).cfg = s.cfg := rfl
@[simp] theorem modCupel_records (s : State) (f : Cupel → Cupel) : (s.modCupel f).records = s.records := rfl
@[simp] theorem modCupel_loadPorts (s : State) (f : Cupel → Cupel) : (s.modCupel f).loadPorts = s.loadPorts := rfl
@[simp] theorem modCupel_regs (s : State) (f : Cupel → Cupel) : (s.modCupel f).regs = s.regs := rfl
@[simp] theorem modCupel_mbx (s : State) (f : Cupel → Cupel) : (s.modCupel f).mbx = s.mbx := rfl
@[simp] theorem modCupel_i3c (s : State) (f : Cupel → Cupel) : (s.modCupel f).i3c = s.i3c := rfl
@[simp] theorem modCupel_stations (s : State) (f : Cupel → Cupel) : (s.modCupel f).stations = s.stations := rfl
@[simp] theorem modCupel_ports (s : State) (f : Cupel → Cupel) : (s.modCupel f).ports = s.ports := rfl
@[simp] theorem modCupel_bridges (s : State) (f : Cupel → Cupel) : (s.modCupel f).bridges = s.bridges := rfl
@[simp] theorem modCupel_vhs (s : State) (f : Cupel → Cupel) : (s.modCupel f).vhs = s.vhs := rfl
@[simp] theorem modCupel_nextId (s : State) (f : Cupel → Cupel) : (s.modCupel f).nextId = s.nextId := rfl
@[simp] theorem modCupel_picks (s : State) (f : Cupel → Cupel) : (s.modCupel f).picks = s.picks := rfl
@[simp] theorem modCupel_staging (s : State) (f : Cupel → Cupel) : (s.modCupel f).staging = s.staging := rfl
@[simp] theorem modCupel_descs (s : State) (f : Cupel → Cupel) : (s.modCupel f).descs = s.descs := rfl
@[simp] theorem modCupel_mcEntries (s : State) (f : Cupel → Cupel) : (s.modCupel f).mcEntries = s.mcEntries := rfl
@[simp] theorem modCupel_mcWaits (s : State) (f : Cupel → Cupel) : (s.modCupel f).mcWaits = s.mcWaits := rfl
@[simp] theorem modCupel_used (s : State) (f : Cupel → Cupel) : (s.modCupel f).used = s.used := rfl
@[simp] theorem modCupel_usedTo (s : State) (f : Cupel → Cupel) : (s.modCupel f).usedTo = s.usedTo := rfl
@[simp] theorem modCupel_parkUsed (s : State) (f : Cupel → Cupel) : (s.modCupel f).parkUsed = s.parkUsed := rfl
@[simp] theorem modCupel_thr (s : State) (f : Cupel → Cupel) : (s.modCupel f).thr = s.thr := rfl
@[simp] theorem modCupel_banks (s : State) (f : Cupel → Cupel) : (s.modCupel f).banks = s.banks := rfl
@[simp] theorem modCupel_ended (s : State) (f : Cupel → Cupel) : (s.modCupel f).ended = s.ended := rfl
@[simp] theorem modCupel_bankCe (s : State) (f : Cupel → Cupel) : (s.modCupel f).bankCe = s.bankCe := rfl
@[simp] theorem modCupel_tracker (s : State) (f : Cupel → Cupel) : (s.modCupel f).tracker = s.tracker := rfl
@[simp] theorem modCupel_ideQ (s : State) (f : Cupel → Cupel) : (s.modCupel f).ideQ = s.ideQ := rfl
@[simp] theorem modCupel_groups (s : State) (f : Cupel → Cupel) : (s.modCupel f).groups = s.groups := rfl
@[simp] theorem modCupel_reports (s : State) (f : Cupel → Cupel) : (s.modCupel f).reports = s.reports := rfl
@[simp] theorem modCupel_tapCount (s : State) (f : Cupel → Cupel) : (s.modCupel f).tapCount = s.tapCount := rfl
@[simp] theorem modCupel_tapRing (s : State) (f : Cupel → Cupel) : (s.modCupel f).tapRing = s.tapRing := rfl
@[simp] theorem modCupel_samples (s : State) (f : Cupel → Cupel) : (s.modCupel f).samples = s.samples := rfl
@[simp] theorem modCupel_shapers (s : State) (f : Cupel → Cupel) : (s.modCupel f).shapers = s.shapers := rfl
@[simp] theorem modCupel_policers (s : State) (f : Cupel → Cupel) : (s.modCupel f).policers = s.policers := rfl
@[simp] theorem modCupel_evict (s : State) (f : Cupel → Cupel) : (s.modCupel f).evict = s.evict := rfl
@[simp] theorem modCupel_gateMs (s : State) (f : Cupel → Cupel) : (s.modCupel f).gateMs = s.gateMs := rfl
@[simp] theorem modCupel_chans (s : State) (f : Cupel → Cupel) : (s.modCupel f).chans = s.chans := rfl
@[simp] theorem modCupel_lots (s : State) (f : Cupel → Cupel) : (s.modCupel f).lots = s.lots := rfl
@[simp] theorem modCupel_vfs (s : State) (f : Cupel → Cupel) : (s.modCupel f).vfs = s.vfs := rfl
@[simp] theorem modCupel_poolMem (s : State) (f : Cupel → Cupel) : (s.modCupel f).poolMem = s.poolMem := rfl
@[simp] theorem modCupel_poison (s : State) (f : Cupel → Cupel) : (s.modCupel f).poison = s.poison := rfl
@[simp] theorem modCupel_hkMem (s : State) (f : Cupel → Cupel) : (s.modCupel f).hkMem = s.hkMem := rfl
@[simp] theorem modCupel_fab (s : State) (f : Cupel → Cupel) : (s.modCupel f).fab = s.fab := rfl
@[simp] theorem modCupel_slots (s : State) (f : Cupel → Cupel) : (s.modCupel f).slots = s.slots := rfl
@[simp] theorem modCupel_pd (s : State) (f : Cupel → Cupel) : (s.modCupel f).pd = s.pd := rfl
@[simp] theorem modCupel_d2d (s : State) (f : Cupel → Cupel) : (s.modCupel f).d2d = s.d2d := rfl
@[simp] theorem modCupel_assay (s : State) (f : Cupel → Cupel) : (s.modCupel f).assay = s.assay := rfl
@[simp] theorem modCupel_out (s : State) (f : Cupel → Cupel) : (s.modCupel f).out = s.out := rfl

@[simp] theorem modTime_pending (s : State) (f : TimeBase → TimeBase) : (s.modTime f).pending = s.pending := rfl
@[simp] theorem modTime_clock (s : State) (f : TimeBase → TimeBase) : (s.modTime f).clock = s.clock := rfl
@[simp] theorem modTime_mode (s : State) (f : TimeBase → TimeBase) : (s.modTime f).mode = s.mode := rfl
@[simp] theorem modTime_modeCause (s : State) (f : TimeBase → TimeBase) : (s.modTime f).modeCause = s.modeCause := rfl
@[simp] theorem modTime_resetCause (s : State) (f : TimeBase → TimeBase) : (s.modTime f).resetCause = s.resetCause := rfl
@[simp] theorem modTime_pwrgd (s : State) (f : TimeBase → TimeBase) : (s.modTime f).pwrgd = s.pwrgd := rfl
@[simp] theorem modTime_perstN (s : State) (f : TimeBase → TimeBase) : (s.modTime f).perstN = s.perstN := rfl
@[simp] theorem modTime_alive (s : State) (f : TimeBase → TimeBase) : (s.modTime f).alive = s.alive := rfl
@[simp] theorem modTime_faultN (s : State) (f : TimeBase → TimeBase) : (s.modTime f).faultN = s.faultN := rfl
@[simp] theorem modTime_xspi (s : State) (f : TimeBase → TimeBase) : (s.modTime f).xspi = s.xspi := rfl
@[simp] theorem modTime_hkRunning (s : State) (f : TimeBase → TimeBase) : (s.modTime f).hkRunning = s.hkRunning := rfl
@[simp] theorem modTime_unusable (s : State) (f : TimeBase → TimeBase) : (s.modTime f).unusable = s.unusable := rfl
@[simp] theorem modTime_banksOut (s : State) (f : TimeBase → TimeBase) : (s.modTime f).banksOut = s.banksOut := rfl
@[simp] theorem modTime_peerLost (s : State) (f : TimeBase → TimeBase) : (s.modTime f).peerLost = s.peerLost := rfl
@[simp] theorem modTime_keys (s : State) (f : TimeBase → TimeBase) : (s.modTime f).keys = s.keys := rfl
@[simp] theorem modTime_sec (s : State) (f : TimeBase → TimeBase) : (s.modTime f).sec = s.sec := rfl
@[simp] theorem modTime_fetchStep (s : State) (f : TimeBase → TimeBase) : (s.modTime f).fetchStep = s.fetchStep := rfl
@[simp] theorem modTime_verified (s : State) (f : TimeBase → TimeBase) : (s.modTime f).verified = s.verified := rfl
@[simp] theorem modTime_ingotLive (s : State) (f : TimeBase → TimeBase) : (s.modTime f).ingotLive = s.ingotLive := rfl
@[simp] theorem modTime_ingCause0 (s : State) (f : TimeBase → TimeBase) : (s.modTime f).ingCause0 = s.ingCause0 := rfl
@[simp] theorem modTime_ingCause1 (s : State) (f : TimeBase → TimeBase) : (s.modTime f).ingCause1 = s.ingCause1 := rfl
@[simp] theorem modTime_cfg (s : State) (f : TimeBase → TimeBase) : (s.modTime f).cfg = s.cfg := rfl
@[simp] theorem modTime_records (s : State) (f : TimeBase → TimeBase) : (s.modTime f).records = s.records := rfl
@[simp] theorem modTime_loadPorts (s : State) (f : TimeBase → TimeBase) : (s.modTime f).loadPorts = s.loadPorts := rfl
@[simp] theorem modTime_regs (s : State) (f : TimeBase → TimeBase) : (s.modTime f).regs = s.regs := rfl
@[simp] theorem modTime_mbx (s : State) (f : TimeBase → TimeBase) : (s.modTime f).mbx = s.mbx := rfl
@[simp] theorem modTime_i3c (s : State) (f : TimeBase → TimeBase) : (s.modTime f).i3c = s.i3c := rfl
@[simp] theorem modTime_stations (s : State) (f : TimeBase → TimeBase) : (s.modTime f).stations = s.stations := rfl
@[simp] theorem modTime_ports (s : State) (f : TimeBase → TimeBase) : (s.modTime f).ports = s.ports := rfl
@[simp] theorem modTime_bridges (s : State) (f : TimeBase → TimeBase) : (s.modTime f).bridges = s.bridges := rfl
@[simp] theorem modTime_vhs (s : State) (f : TimeBase → TimeBase) : (s.modTime f).vhs = s.vhs := rfl
@[simp] theorem modTime_nextId (s : State) (f : TimeBase → TimeBase) : (s.modTime f).nextId = s.nextId := rfl
@[simp] theorem modTime_picks (s : State) (f : TimeBase → TimeBase) : (s.modTime f).picks = s.picks := rfl
@[simp] theorem modTime_staging (s : State) (f : TimeBase → TimeBase) : (s.modTime f).staging = s.staging := rfl
@[simp] theorem modTime_descs (s : State) (f : TimeBase → TimeBase) : (s.modTime f).descs = s.descs := rfl
@[simp] theorem modTime_mcEntries (s : State) (f : TimeBase → TimeBase) : (s.modTime f).mcEntries = s.mcEntries := rfl
@[simp] theorem modTime_mcWaits (s : State) (f : TimeBase → TimeBase) : (s.modTime f).mcWaits = s.mcWaits := rfl
@[simp] theorem modTime_used (s : State) (f : TimeBase → TimeBase) : (s.modTime f).used = s.used := rfl
@[simp] theorem modTime_usedTo (s : State) (f : TimeBase → TimeBase) : (s.modTime f).usedTo = s.usedTo := rfl
@[simp] theorem modTime_parkUsed (s : State) (f : TimeBase → TimeBase) : (s.modTime f).parkUsed = s.parkUsed := rfl
@[simp] theorem modTime_thr (s : State) (f : TimeBase → TimeBase) : (s.modTime f).thr = s.thr := rfl
@[simp] theorem modTime_banks (s : State) (f : TimeBase → TimeBase) : (s.modTime f).banks = s.banks := rfl
@[simp] theorem modTime_ended (s : State) (f : TimeBase → TimeBase) : (s.modTime f).ended = s.ended := rfl
@[simp] theorem modTime_bankCe (s : State) (f : TimeBase → TimeBase) : (s.modTime f).bankCe = s.bankCe := rfl
@[simp] theorem modTime_tracker (s : State) (f : TimeBase → TimeBase) : (s.modTime f).tracker = s.tracker := rfl
@[simp] theorem modTime_ideQ (s : State) (f : TimeBase → TimeBase) : (s.modTime f).ideQ = s.ideQ := rfl
@[simp] theorem modTime_groups (s : State) (f : TimeBase → TimeBase) : (s.modTime f).groups = s.groups := rfl
@[simp] theorem modTime_reports (s : State) (f : TimeBase → TimeBase) : (s.modTime f).reports = s.reports := rfl
@[simp] theorem modTime_tapCount (s : State) (f : TimeBase → TimeBase) : (s.modTime f).tapCount = s.tapCount := rfl
@[simp] theorem modTime_tapRing (s : State) (f : TimeBase → TimeBase) : (s.modTime f).tapRing = s.tapRing := rfl
@[simp] theorem modTime_samples (s : State) (f : TimeBase → TimeBase) : (s.modTime f).samples = s.samples := rfl
@[simp] theorem modTime_shapers (s : State) (f : TimeBase → TimeBase) : (s.modTime f).shapers = s.shapers := rfl
@[simp] theorem modTime_policers (s : State) (f : TimeBase → TimeBase) : (s.modTime f).policers = s.policers := rfl
@[simp] theorem modTime_evict (s : State) (f : TimeBase → TimeBase) : (s.modTime f).evict = s.evict := rfl
@[simp] theorem modTime_gateMs (s : State) (f : TimeBase → TimeBase) : (s.modTime f).gateMs = s.gateMs := rfl
@[simp] theorem modTime_chans (s : State) (f : TimeBase → TimeBase) : (s.modTime f).chans = s.chans := rfl
@[simp] theorem modTime_lots (s : State) (f : TimeBase → TimeBase) : (s.modTime f).lots = s.lots := rfl
@[simp] theorem modTime_vfs (s : State) (f : TimeBase → TimeBase) : (s.modTime f).vfs = s.vfs := rfl
@[simp] theorem modTime_poolMem (s : State) (f : TimeBase → TimeBase) : (s.modTime f).poolMem = s.poolMem := rfl
@[simp] theorem modTime_poison (s : State) (f : TimeBase → TimeBase) : (s.modTime f).poison = s.poison := rfl
@[simp] theorem modTime_hkMem (s : State) (f : TimeBase → TimeBase) : (s.modTime f).hkMem = s.hkMem := rfl
@[simp] theorem modTime_fab (s : State) (f : TimeBase → TimeBase) : (s.modTime f).fab = s.fab := rfl
@[simp] theorem modTime_cupel (s : State) (f : TimeBase → TimeBase) : (s.modTime f).cupel = s.cupel := rfl
@[simp] theorem modTime_slots (s : State) (f : TimeBase → TimeBase) : (s.modTime f).slots = s.slots := rfl
@[simp] theorem modTime_pd (s : State) (f : TimeBase → TimeBase) : (s.modTime f).pd = s.pd := rfl
@[simp] theorem modTime_d2d (s : State) (f : TimeBase → TimeBase) : (s.modTime f).d2d = s.d2d := rfl
@[simp] theorem modTime_assay (s : State) (f : TimeBase → TimeBase) : (s.modTime f).assay = s.assay := rfl
@[simp] theorem modTime_out (s : State) (f : TimeBase → TimeBase) : (s.modTime f).out = s.out := rfl

@[simp] theorem modSec_pending (s : State) (f : Sec → Sec) : (s.modSec f).pending = s.pending := rfl
@[simp] theorem modSec_clock (s : State) (f : Sec → Sec) : (s.modSec f).clock = s.clock := rfl
@[simp] theorem modSec_mode (s : State) (f : Sec → Sec) : (s.modSec f).mode = s.mode := rfl
@[simp] theorem modSec_modeCause (s : State) (f : Sec → Sec) : (s.modSec f).modeCause = s.modeCause := rfl
@[simp] theorem modSec_resetCause (s : State) (f : Sec → Sec) : (s.modSec f).resetCause = s.resetCause := rfl
@[simp] theorem modSec_pwrgd (s : State) (f : Sec → Sec) : (s.modSec f).pwrgd = s.pwrgd := rfl
@[simp] theorem modSec_perstN (s : State) (f : Sec → Sec) : (s.modSec f).perstN = s.perstN := rfl
@[simp] theorem modSec_alive (s : State) (f : Sec → Sec) : (s.modSec f).alive = s.alive := rfl
@[simp] theorem modSec_faultN (s : State) (f : Sec → Sec) : (s.modSec f).faultN = s.faultN := rfl
@[simp] theorem modSec_xspi (s : State) (f : Sec → Sec) : (s.modSec f).xspi = s.xspi := rfl
@[simp] theorem modSec_hkRunning (s : State) (f : Sec → Sec) : (s.modSec f).hkRunning = s.hkRunning := rfl
@[simp] theorem modSec_unusable (s : State) (f : Sec → Sec) : (s.modSec f).unusable = s.unusable := rfl
@[simp] theorem modSec_banksOut (s : State) (f : Sec → Sec) : (s.modSec f).banksOut = s.banksOut := rfl
@[simp] theorem modSec_peerLost (s : State) (f : Sec → Sec) : (s.modSec f).peerLost = s.peerLost := rfl
@[simp] theorem modSec_time (s : State) (f : Sec → Sec) : (s.modSec f).time = s.time := rfl
@[simp] theorem modSec_keys (s : State) (f : Sec → Sec) : (s.modSec f).keys = s.keys := rfl
@[simp] theorem modSec_fetchStep (s : State) (f : Sec → Sec) : (s.modSec f).fetchStep = s.fetchStep := rfl
@[simp] theorem modSec_verified (s : State) (f : Sec → Sec) : (s.modSec f).verified = s.verified := rfl
@[simp] theorem modSec_ingotLive (s : State) (f : Sec → Sec) : (s.modSec f).ingotLive = s.ingotLive := rfl
@[simp] theorem modSec_ingCause0 (s : State) (f : Sec → Sec) : (s.modSec f).ingCause0 = s.ingCause0 := rfl
@[simp] theorem modSec_ingCause1 (s : State) (f : Sec → Sec) : (s.modSec f).ingCause1 = s.ingCause1 := rfl
@[simp] theorem modSec_cfg (s : State) (f : Sec → Sec) : (s.modSec f).cfg = s.cfg := rfl
@[simp] theorem modSec_records (s : State) (f : Sec → Sec) : (s.modSec f).records = s.records := rfl
@[simp] theorem modSec_loadPorts (s : State) (f : Sec → Sec) : (s.modSec f).loadPorts = s.loadPorts := rfl
@[simp] theorem modSec_regs (s : State) (f : Sec → Sec) : (s.modSec f).regs = s.regs := rfl
@[simp] theorem modSec_mbx (s : State) (f : Sec → Sec) : (s.modSec f).mbx = s.mbx := rfl
@[simp] theorem modSec_i3c (s : State) (f : Sec → Sec) : (s.modSec f).i3c = s.i3c := rfl
@[simp] theorem modSec_stations (s : State) (f : Sec → Sec) : (s.modSec f).stations = s.stations := rfl
@[simp] theorem modSec_ports (s : State) (f : Sec → Sec) : (s.modSec f).ports = s.ports := rfl
@[simp] theorem modSec_bridges (s : State) (f : Sec → Sec) : (s.modSec f).bridges = s.bridges := rfl
@[simp] theorem modSec_vhs (s : State) (f : Sec → Sec) : (s.modSec f).vhs = s.vhs := rfl
@[simp] theorem modSec_nextId (s : State) (f : Sec → Sec) : (s.modSec f).nextId = s.nextId := rfl
@[simp] theorem modSec_picks (s : State) (f : Sec → Sec) : (s.modSec f).picks = s.picks := rfl
@[simp] theorem modSec_staging (s : State) (f : Sec → Sec) : (s.modSec f).staging = s.staging := rfl
@[simp] theorem modSec_descs (s : State) (f : Sec → Sec) : (s.modSec f).descs = s.descs := rfl
@[simp] theorem modSec_mcEntries (s : State) (f : Sec → Sec) : (s.modSec f).mcEntries = s.mcEntries := rfl
@[simp] theorem modSec_mcWaits (s : State) (f : Sec → Sec) : (s.modSec f).mcWaits = s.mcWaits := rfl
@[simp] theorem modSec_used (s : State) (f : Sec → Sec) : (s.modSec f).used = s.used := rfl
@[simp] theorem modSec_usedTo (s : State) (f : Sec → Sec) : (s.modSec f).usedTo = s.usedTo := rfl
@[simp] theorem modSec_parkUsed (s : State) (f : Sec → Sec) : (s.modSec f).parkUsed = s.parkUsed := rfl
@[simp] theorem modSec_thr (s : State) (f : Sec → Sec) : (s.modSec f).thr = s.thr := rfl
@[simp] theorem modSec_banks (s : State) (f : Sec → Sec) : (s.modSec f).banks = s.banks := rfl
@[simp] theorem modSec_ended (s : State) (f : Sec → Sec) : (s.modSec f).ended = s.ended := rfl
@[simp] theorem modSec_bankCe (s : State) (f : Sec → Sec) : (s.modSec f).bankCe = s.bankCe := rfl
@[simp] theorem modSec_tracker (s : State) (f : Sec → Sec) : (s.modSec f).tracker = s.tracker := rfl
@[simp] theorem modSec_ideQ (s : State) (f : Sec → Sec) : (s.modSec f).ideQ = s.ideQ := rfl
@[simp] theorem modSec_groups (s : State) (f : Sec → Sec) : (s.modSec f).groups = s.groups := rfl
@[simp] theorem modSec_reports (s : State) (f : Sec → Sec) : (s.modSec f).reports = s.reports := rfl
@[simp] theorem modSec_tapCount (s : State) (f : Sec → Sec) : (s.modSec f).tapCount = s.tapCount := rfl
@[simp] theorem modSec_tapRing (s : State) (f : Sec → Sec) : (s.modSec f).tapRing = s.tapRing := rfl
@[simp] theorem modSec_samples (s : State) (f : Sec → Sec) : (s.modSec f).samples = s.samples := rfl
@[simp] theorem modSec_shapers (s : State) (f : Sec → Sec) : (s.modSec f).shapers = s.shapers := rfl
@[simp] theorem modSec_policers (s : State) (f : Sec → Sec) : (s.modSec f).policers = s.policers := rfl
@[simp] theorem modSec_evict (s : State) (f : Sec → Sec) : (s.modSec f).evict = s.evict := rfl
@[simp] theorem modSec_gateMs (s : State) (f : Sec → Sec) : (s.modSec f).gateMs = s.gateMs := rfl
@[simp] theorem modSec_chans (s : State) (f : Sec → Sec) : (s.modSec f).chans = s.chans := rfl
@[simp] theorem modSec_lots (s : State) (f : Sec → Sec) : (s.modSec f).lots = s.lots := rfl
@[simp] theorem modSec_vfs (s : State) (f : Sec → Sec) : (s.modSec f).vfs = s.vfs := rfl
@[simp] theorem modSec_poolMem (s : State) (f : Sec → Sec) : (s.modSec f).poolMem = s.poolMem := rfl
@[simp] theorem modSec_poison (s : State) (f : Sec → Sec) : (s.modSec f).poison = s.poison := rfl
@[simp] theorem modSec_hkMem (s : State) (f : Sec → Sec) : (s.modSec f).hkMem = s.hkMem := rfl
@[simp] theorem modSec_fab (s : State) (f : Sec → Sec) : (s.modSec f).fab = s.fab := rfl
@[simp] theorem modSec_cupel (s : State) (f : Sec → Sec) : (s.modSec f).cupel = s.cupel := rfl
@[simp] theorem modSec_slots (s : State) (f : Sec → Sec) : (s.modSec f).slots = s.slots := rfl
@[simp] theorem modSec_pd (s : State) (f : Sec → Sec) : (s.modSec f).pd = s.pd := rfl
@[simp] theorem modSec_d2d (s : State) (f : Sec → Sec) : (s.modSec f).d2d = s.d2d := rfl
@[simp] theorem modSec_assay (s : State) (f : Sec → Sec) : (s.modSec f).assay = s.assay := rfl
@[simp] theorem modSec_out (s : State) (f : Sec → Sec) : (s.modSec f).out = s.out := rfl

@[simp] theorem modMbx_pending (s : State) (f : Mailbox → Mailbox) : (s.modMbx f).pending = s.pending := rfl
@[simp] theorem modMbx_clock (s : State) (f : Mailbox → Mailbox) : (s.modMbx f).clock = s.clock := rfl
@[simp] theorem modMbx_mode (s : State) (f : Mailbox → Mailbox) : (s.modMbx f).mode = s.mode := rfl
@[simp] theorem modMbx_modeCause (s : State) (f : Mailbox → Mailbox) : (s.modMbx f).modeCause = s.modeCause := rfl
@[simp] theorem modMbx_resetCause (s : State) (f : Mailbox → Mailbox) : (s.modMbx f).resetCause = s.resetCause := rfl
@[simp] theorem modMbx_pwrgd (s : State) (f : Mailbox → Mailbox) : (s.modMbx f).pwrgd = s.pwrgd := rfl
@[simp] theorem modMbx_perstN (s : State) (f : Mailbox → Mailbox) : (s.modMbx f).perstN = s.perstN := rfl
@[simp] theorem modMbx_alive (s : State) (f : Mailbox → Mailbox) : (s.modMbx f).alive = s.alive := rfl
@[simp] theorem modMbx_faultN (s : State) (f : Mailbox → Mailbox) : (s.modMbx f).faultN = s.faultN := rfl
@[simp] theorem modMbx_xspi (s : State) (f : Mailbox → Mailbox) : (s.modMbx f).xspi = s.xspi := rfl
@[simp] theorem modMbx_hkRunning (s : State) (f : Mailbox → Mailbox) : (s.modMbx f).hkRunning = s.hkRunning := rfl
@[simp] theorem modMbx_unusable (s : State) (f : Mailbox → Mailbox) : (s.modMbx f).unusable = s.unusable := rfl
@[simp] theorem modMbx_banksOut (s : State) (f : Mailbox → Mailbox) : (s.modMbx f).banksOut = s.banksOut := rfl
@[simp] theorem modMbx_peerLost (s : State) (f : Mailbox → Mailbox) : (s.modMbx f).peerLost = s.peerLost := rfl
@[simp] theorem modMbx_time (s : State) (f : Mailbox → Mailbox) : (s.modMbx f).time = s.time := rfl
@[simp] theorem modMbx_keys (s : State) (f : Mailbox → Mailbox) : (s.modMbx f).keys = s.keys := rfl
@[simp] theorem modMbx_sec (s : State) (f : Mailbox → Mailbox) : (s.modMbx f).sec = s.sec := rfl
@[simp] theorem modMbx_fetchStep (s : State) (f : Mailbox → Mailbox) : (s.modMbx f).fetchStep = s.fetchStep := rfl
@[simp] theorem modMbx_verified (s : State) (f : Mailbox → Mailbox) : (s.modMbx f).verified = s.verified := rfl
@[simp] theorem modMbx_ingotLive (s : State) (f : Mailbox → Mailbox) : (s.modMbx f).ingotLive = s.ingotLive := rfl
@[simp] theorem modMbx_ingCause0 (s : State) (f : Mailbox → Mailbox) : (s.modMbx f).ingCause0 = s.ingCause0 := rfl
@[simp] theorem modMbx_ingCause1 (s : State) (f : Mailbox → Mailbox) : (s.modMbx f).ingCause1 = s.ingCause1 := rfl
@[simp] theorem modMbx_cfg (s : State) (f : Mailbox → Mailbox) : (s.modMbx f).cfg = s.cfg := rfl
@[simp] theorem modMbx_records (s : State) (f : Mailbox → Mailbox) : (s.modMbx f).records = s.records := rfl
@[simp] theorem modMbx_loadPorts (s : State) (f : Mailbox → Mailbox) : (s.modMbx f).loadPorts = s.loadPorts := rfl
@[simp] theorem modMbx_regs (s : State) (f : Mailbox → Mailbox) : (s.modMbx f).regs = s.regs := rfl
@[simp] theorem modMbx_i3c (s : State) (f : Mailbox → Mailbox) : (s.modMbx f).i3c = s.i3c := rfl
@[simp] theorem modMbx_stations (s : State) (f : Mailbox → Mailbox) : (s.modMbx f).stations = s.stations := rfl
@[simp] theorem modMbx_ports (s : State) (f : Mailbox → Mailbox) : (s.modMbx f).ports = s.ports := rfl
@[simp] theorem modMbx_bridges (s : State) (f : Mailbox → Mailbox) : (s.modMbx f).bridges = s.bridges := rfl
@[simp] theorem modMbx_vhs (s : State) (f : Mailbox → Mailbox) : (s.modMbx f).vhs = s.vhs := rfl
@[simp] theorem modMbx_nextId (s : State) (f : Mailbox → Mailbox) : (s.modMbx f).nextId = s.nextId := rfl
@[simp] theorem modMbx_picks (s : State) (f : Mailbox → Mailbox) : (s.modMbx f).picks = s.picks := rfl
@[simp] theorem modMbx_staging (s : State) (f : Mailbox → Mailbox) : (s.modMbx f).staging = s.staging := rfl
@[simp] theorem modMbx_descs (s : State) (f : Mailbox → Mailbox) : (s.modMbx f).descs = s.descs := rfl
@[simp] theorem modMbx_mcEntries (s : State) (f : Mailbox → Mailbox) : (s.modMbx f).mcEntries = s.mcEntries := rfl
@[simp] theorem modMbx_mcWaits (s : State) (f : Mailbox → Mailbox) : (s.modMbx f).mcWaits = s.mcWaits := rfl
@[simp] theorem modMbx_used (s : State) (f : Mailbox → Mailbox) : (s.modMbx f).used = s.used := rfl
@[simp] theorem modMbx_usedTo (s : State) (f : Mailbox → Mailbox) : (s.modMbx f).usedTo = s.usedTo := rfl
@[simp] theorem modMbx_parkUsed (s : State) (f : Mailbox → Mailbox) : (s.modMbx f).parkUsed = s.parkUsed := rfl
@[simp] theorem modMbx_thr (s : State) (f : Mailbox → Mailbox) : (s.modMbx f).thr = s.thr := rfl
@[simp] theorem modMbx_banks (s : State) (f : Mailbox → Mailbox) : (s.modMbx f).banks = s.banks := rfl
@[simp] theorem modMbx_ended (s : State) (f : Mailbox → Mailbox) : (s.modMbx f).ended = s.ended := rfl
@[simp] theorem modMbx_bankCe (s : State) (f : Mailbox → Mailbox) : (s.modMbx f).bankCe = s.bankCe := rfl
@[simp] theorem modMbx_tracker (s : State) (f : Mailbox → Mailbox) : (s.modMbx f).tracker = s.tracker := rfl
@[simp] theorem modMbx_ideQ (s : State) (f : Mailbox → Mailbox) : (s.modMbx f).ideQ = s.ideQ := rfl
@[simp] theorem modMbx_groups (s : State) (f : Mailbox → Mailbox) : (s.modMbx f).groups = s.groups := rfl
@[simp] theorem modMbx_reports (s : State) (f : Mailbox → Mailbox) : (s.modMbx f).reports = s.reports := rfl
@[simp] theorem modMbx_tapCount (s : State) (f : Mailbox → Mailbox) : (s.modMbx f).tapCount = s.tapCount := rfl
@[simp] theorem modMbx_tapRing (s : State) (f : Mailbox → Mailbox) : (s.modMbx f).tapRing = s.tapRing := rfl
@[simp] theorem modMbx_samples (s : State) (f : Mailbox → Mailbox) : (s.modMbx f).samples = s.samples := rfl
@[simp] theorem modMbx_shapers (s : State) (f : Mailbox → Mailbox) : (s.modMbx f).shapers = s.shapers := rfl
@[simp] theorem modMbx_policers (s : State) (f : Mailbox → Mailbox) : (s.modMbx f).policers = s.policers := rfl
@[simp] theorem modMbx_evict (s : State) (f : Mailbox → Mailbox) : (s.modMbx f).evict = s.evict := rfl
@[simp] theorem modMbx_gateMs (s : State) (f : Mailbox → Mailbox) : (s.modMbx f).gateMs = s.gateMs := rfl
@[simp] theorem modMbx_chans (s : State) (f : Mailbox → Mailbox) : (s.modMbx f).chans = s.chans := rfl
@[simp] theorem modMbx_lots (s : State) (f : Mailbox → Mailbox) : (s.modMbx f).lots = s.lots := rfl
@[simp] theorem modMbx_vfs (s : State) (f : Mailbox → Mailbox) : (s.modMbx f).vfs = s.vfs := rfl
@[simp] theorem modMbx_poolMem (s : State) (f : Mailbox → Mailbox) : (s.modMbx f).poolMem = s.poolMem := rfl
@[simp] theorem modMbx_poison (s : State) (f : Mailbox → Mailbox) : (s.modMbx f).poison = s.poison := rfl
@[simp] theorem modMbx_hkMem (s : State) (f : Mailbox → Mailbox) : (s.modMbx f).hkMem = s.hkMem := rfl
@[simp] theorem modMbx_fab (s : State) (f : Mailbox → Mailbox) : (s.modMbx f).fab = s.fab := rfl
@[simp] theorem modMbx_cupel (s : State) (f : Mailbox → Mailbox) : (s.modMbx f).cupel = s.cupel := rfl
@[simp] theorem modMbx_slots (s : State) (f : Mailbox → Mailbox) : (s.modMbx f).slots = s.slots := rfl
@[simp] theorem modMbx_pd (s : State) (f : Mailbox → Mailbox) : (s.modMbx f).pd = s.pd := rfl
@[simp] theorem modMbx_d2d (s : State) (f : Mailbox → Mailbox) : (s.modMbx f).d2d = s.d2d := rfl
@[simp] theorem modMbx_assay (s : State) (f : Mailbox → Mailbox) : (s.modMbx f).assay = s.assay := rfl
@[simp] theorem modMbx_out (s : State) (f : Mailbox → Mailbox) : (s.modMbx f).out = s.out := rfl

@[simp] theorem modAssay_pending (s : State) (f : Assay → Assay) : (s.modAssay f).pending = s.pending := rfl
@[simp] theorem modAssay_clock (s : State) (f : Assay → Assay) : (s.modAssay f).clock = s.clock := rfl
@[simp] theorem modAssay_mode (s : State) (f : Assay → Assay) : (s.modAssay f).mode = s.mode := rfl
@[simp] theorem modAssay_modeCause (s : State) (f : Assay → Assay) : (s.modAssay f).modeCause = s.modeCause := rfl
@[simp] theorem modAssay_resetCause (s : State) (f : Assay → Assay) : (s.modAssay f).resetCause = s.resetCause := rfl
@[simp] theorem modAssay_pwrgd (s : State) (f : Assay → Assay) : (s.modAssay f).pwrgd = s.pwrgd := rfl
@[simp] theorem modAssay_perstN (s : State) (f : Assay → Assay) : (s.modAssay f).perstN = s.perstN := rfl
@[simp] theorem modAssay_alive (s : State) (f : Assay → Assay) : (s.modAssay f).alive = s.alive := rfl
@[simp] theorem modAssay_faultN (s : State) (f : Assay → Assay) : (s.modAssay f).faultN = s.faultN := rfl
@[simp] theorem modAssay_xspi (s : State) (f : Assay → Assay) : (s.modAssay f).xspi = s.xspi := rfl
@[simp] theorem modAssay_hkRunning (s : State) (f : Assay → Assay) : (s.modAssay f).hkRunning = s.hkRunning := rfl
@[simp] theorem modAssay_unusable (s : State) (f : Assay → Assay) : (s.modAssay f).unusable = s.unusable := rfl
@[simp] theorem modAssay_banksOut (s : State) (f : Assay → Assay) : (s.modAssay f).banksOut = s.banksOut := rfl
@[simp] theorem modAssay_peerLost (s : State) (f : Assay → Assay) : (s.modAssay f).peerLost = s.peerLost := rfl
@[simp] theorem modAssay_time (s : State) (f : Assay → Assay) : (s.modAssay f).time = s.time := rfl
@[simp] theorem modAssay_keys (s : State) (f : Assay → Assay) : (s.modAssay f).keys = s.keys := rfl
@[simp] theorem modAssay_sec (s : State) (f : Assay → Assay) : (s.modAssay f).sec = s.sec := rfl
@[simp] theorem modAssay_fetchStep (s : State) (f : Assay → Assay) : (s.modAssay f).fetchStep = s.fetchStep := rfl
@[simp] theorem modAssay_verified (s : State) (f : Assay → Assay) : (s.modAssay f).verified = s.verified := rfl
@[simp] theorem modAssay_ingotLive (s : State) (f : Assay → Assay) : (s.modAssay f).ingotLive = s.ingotLive := rfl
@[simp] theorem modAssay_ingCause0 (s : State) (f : Assay → Assay) : (s.modAssay f).ingCause0 = s.ingCause0 := rfl
@[simp] theorem modAssay_ingCause1 (s : State) (f : Assay → Assay) : (s.modAssay f).ingCause1 = s.ingCause1 := rfl
@[simp] theorem modAssay_cfg (s : State) (f : Assay → Assay) : (s.modAssay f).cfg = s.cfg := rfl
@[simp] theorem modAssay_records (s : State) (f : Assay → Assay) : (s.modAssay f).records = s.records := rfl
@[simp] theorem modAssay_loadPorts (s : State) (f : Assay → Assay) : (s.modAssay f).loadPorts = s.loadPorts := rfl
@[simp] theorem modAssay_regs (s : State) (f : Assay → Assay) : (s.modAssay f).regs = s.regs := rfl
@[simp] theorem modAssay_mbx (s : State) (f : Assay → Assay) : (s.modAssay f).mbx = s.mbx := rfl
@[simp] theorem modAssay_i3c (s : State) (f : Assay → Assay) : (s.modAssay f).i3c = s.i3c := rfl
@[simp] theorem modAssay_stations (s : State) (f : Assay → Assay) : (s.modAssay f).stations = s.stations := rfl
@[simp] theorem modAssay_ports (s : State) (f : Assay → Assay) : (s.modAssay f).ports = s.ports := rfl
@[simp] theorem modAssay_bridges (s : State) (f : Assay → Assay) : (s.modAssay f).bridges = s.bridges := rfl
@[simp] theorem modAssay_vhs (s : State) (f : Assay → Assay) : (s.modAssay f).vhs = s.vhs := rfl
@[simp] theorem modAssay_nextId (s : State) (f : Assay → Assay) : (s.modAssay f).nextId = s.nextId := rfl
@[simp] theorem modAssay_picks (s : State) (f : Assay → Assay) : (s.modAssay f).picks = s.picks := rfl
@[simp] theorem modAssay_staging (s : State) (f : Assay → Assay) : (s.modAssay f).staging = s.staging := rfl
@[simp] theorem modAssay_descs (s : State) (f : Assay → Assay) : (s.modAssay f).descs = s.descs := rfl
@[simp] theorem modAssay_mcEntries (s : State) (f : Assay → Assay) : (s.modAssay f).mcEntries = s.mcEntries := rfl
@[simp] theorem modAssay_mcWaits (s : State) (f : Assay → Assay) : (s.modAssay f).mcWaits = s.mcWaits := rfl
@[simp] theorem modAssay_used (s : State) (f : Assay → Assay) : (s.modAssay f).used = s.used := rfl
@[simp] theorem modAssay_usedTo (s : State) (f : Assay → Assay) : (s.modAssay f).usedTo = s.usedTo := rfl
@[simp] theorem modAssay_parkUsed (s : State) (f : Assay → Assay) : (s.modAssay f).parkUsed = s.parkUsed := rfl
@[simp] theorem modAssay_thr (s : State) (f : Assay → Assay) : (s.modAssay f).thr = s.thr := rfl
@[simp] theorem modAssay_banks (s : State) (f : Assay → Assay) : (s.modAssay f).banks = s.banks := rfl
@[simp] theorem modAssay_ended (s : State) (f : Assay → Assay) : (s.modAssay f).ended = s.ended := rfl
@[simp] theorem modAssay_bankCe (s : State) (f : Assay → Assay) : (s.modAssay f).bankCe = s.bankCe := rfl
@[simp] theorem modAssay_tracker (s : State) (f : Assay → Assay) : (s.modAssay f).tracker = s.tracker := rfl
@[simp] theorem modAssay_ideQ (s : State) (f : Assay → Assay) : (s.modAssay f).ideQ = s.ideQ := rfl
@[simp] theorem modAssay_groups (s : State) (f : Assay → Assay) : (s.modAssay f).groups = s.groups := rfl
@[simp] theorem modAssay_reports (s : State) (f : Assay → Assay) : (s.modAssay f).reports = s.reports := rfl
@[simp] theorem modAssay_tapCount (s : State) (f : Assay → Assay) : (s.modAssay f).tapCount = s.tapCount := rfl
@[simp] theorem modAssay_tapRing (s : State) (f : Assay → Assay) : (s.modAssay f).tapRing = s.tapRing := rfl
@[simp] theorem modAssay_samples (s : State) (f : Assay → Assay) : (s.modAssay f).samples = s.samples := rfl
@[simp] theorem modAssay_shapers (s : State) (f : Assay → Assay) : (s.modAssay f).shapers = s.shapers := rfl
@[simp] theorem modAssay_policers (s : State) (f : Assay → Assay) : (s.modAssay f).policers = s.policers := rfl
@[simp] theorem modAssay_evict (s : State) (f : Assay → Assay) : (s.modAssay f).evict = s.evict := rfl
@[simp] theorem modAssay_gateMs (s : State) (f : Assay → Assay) : (s.modAssay f).gateMs = s.gateMs := rfl
@[simp] theorem modAssay_chans (s : State) (f : Assay → Assay) : (s.modAssay f).chans = s.chans := rfl
@[simp] theorem modAssay_lots (s : State) (f : Assay → Assay) : (s.modAssay f).lots = s.lots := rfl
@[simp] theorem modAssay_vfs (s : State) (f : Assay → Assay) : (s.modAssay f).vfs = s.vfs := rfl
@[simp] theorem modAssay_poolMem (s : State) (f : Assay → Assay) : (s.modAssay f).poolMem = s.poolMem := rfl
@[simp] theorem modAssay_poison (s : State) (f : Assay → Assay) : (s.modAssay f).poison = s.poison := rfl
@[simp] theorem modAssay_hkMem (s : State) (f : Assay → Assay) : (s.modAssay f).hkMem = s.hkMem := rfl
@[simp] theorem modAssay_fab (s : State) (f : Assay → Assay) : (s.modAssay f).fab = s.fab := rfl
@[simp] theorem modAssay_cupel (s : State) (f : Assay → Assay) : (s.modAssay f).cupel = s.cupel := rfl
@[simp] theorem modAssay_slots (s : State) (f : Assay → Assay) : (s.modAssay f).slots = s.slots := rfl
@[simp] theorem modAssay_pd (s : State) (f : Assay → Assay) : (s.modAssay f).pd = s.pd := rfl
@[simp] theorem modAssay_d2d (s : State) (f : Assay → Assay) : (s.modAssay f).d2d = s.d2d := rfl
@[simp] theorem modAssay_out (s : State) (f : Assay → Assay) : (s.modAssay f).out = s.out := rfl

@[simp] theorem modPd_pending (s : State) (f : PowerDie → PowerDie) : (s.modPd f).pending = s.pending := rfl
@[simp] theorem modPd_clock (s : State) (f : PowerDie → PowerDie) : (s.modPd f).clock = s.clock := rfl
@[simp] theorem modPd_mode (s : State) (f : PowerDie → PowerDie) : (s.modPd f).mode = s.mode := rfl
@[simp] theorem modPd_modeCause (s : State) (f : PowerDie → PowerDie) : (s.modPd f).modeCause = s.modeCause := rfl
@[simp] theorem modPd_resetCause (s : State) (f : PowerDie → PowerDie) : (s.modPd f).resetCause = s.resetCause := rfl
@[simp] theorem modPd_pwrgd (s : State) (f : PowerDie → PowerDie) : (s.modPd f).pwrgd = s.pwrgd := rfl
@[simp] theorem modPd_perstN (s : State) (f : PowerDie → PowerDie) : (s.modPd f).perstN = s.perstN := rfl
@[simp] theorem modPd_alive (s : State) (f : PowerDie → PowerDie) : (s.modPd f).alive = s.alive := rfl
@[simp] theorem modPd_faultN (s : State) (f : PowerDie → PowerDie) : (s.modPd f).faultN = s.faultN := rfl
@[simp] theorem modPd_xspi (s : State) (f : PowerDie → PowerDie) : (s.modPd f).xspi = s.xspi := rfl
@[simp] theorem modPd_hkRunning (s : State) (f : PowerDie → PowerDie) : (s.modPd f).hkRunning = s.hkRunning := rfl
@[simp] theorem modPd_unusable (s : State) (f : PowerDie → PowerDie) : (s.modPd f).unusable = s.unusable := rfl
@[simp] theorem modPd_banksOut (s : State) (f : PowerDie → PowerDie) : (s.modPd f).banksOut = s.banksOut := rfl
@[simp] theorem modPd_peerLost (s : State) (f : PowerDie → PowerDie) : (s.modPd f).peerLost = s.peerLost := rfl
@[simp] theorem modPd_time (s : State) (f : PowerDie → PowerDie) : (s.modPd f).time = s.time := rfl
@[simp] theorem modPd_keys (s : State) (f : PowerDie → PowerDie) : (s.modPd f).keys = s.keys := rfl
@[simp] theorem modPd_sec (s : State) (f : PowerDie → PowerDie) : (s.modPd f).sec = s.sec := rfl
@[simp] theorem modPd_fetchStep (s : State) (f : PowerDie → PowerDie) : (s.modPd f).fetchStep = s.fetchStep := rfl
@[simp] theorem modPd_verified (s : State) (f : PowerDie → PowerDie) : (s.modPd f).verified = s.verified := rfl
@[simp] theorem modPd_ingotLive (s : State) (f : PowerDie → PowerDie) : (s.modPd f).ingotLive = s.ingotLive := rfl
@[simp] theorem modPd_ingCause0 (s : State) (f : PowerDie → PowerDie) : (s.modPd f).ingCause0 = s.ingCause0 := rfl
@[simp] theorem modPd_ingCause1 (s : State) (f : PowerDie → PowerDie) : (s.modPd f).ingCause1 = s.ingCause1 := rfl
@[simp] theorem modPd_cfg (s : State) (f : PowerDie → PowerDie) : (s.modPd f).cfg = s.cfg := rfl
@[simp] theorem modPd_records (s : State) (f : PowerDie → PowerDie) : (s.modPd f).records = s.records := rfl
@[simp] theorem modPd_loadPorts (s : State) (f : PowerDie → PowerDie) : (s.modPd f).loadPorts = s.loadPorts := rfl
@[simp] theorem modPd_regs (s : State) (f : PowerDie → PowerDie) : (s.modPd f).regs = s.regs := rfl
@[simp] theorem modPd_mbx (s : State) (f : PowerDie → PowerDie) : (s.modPd f).mbx = s.mbx := rfl
@[simp] theorem modPd_i3c (s : State) (f : PowerDie → PowerDie) : (s.modPd f).i3c = s.i3c := rfl
@[simp] theorem modPd_stations (s : State) (f : PowerDie → PowerDie) : (s.modPd f).stations = s.stations := rfl
@[simp] theorem modPd_ports (s : State) (f : PowerDie → PowerDie) : (s.modPd f).ports = s.ports := rfl
@[simp] theorem modPd_bridges (s : State) (f : PowerDie → PowerDie) : (s.modPd f).bridges = s.bridges := rfl
@[simp] theorem modPd_vhs (s : State) (f : PowerDie → PowerDie) : (s.modPd f).vhs = s.vhs := rfl
@[simp] theorem modPd_nextId (s : State) (f : PowerDie → PowerDie) : (s.modPd f).nextId = s.nextId := rfl
@[simp] theorem modPd_picks (s : State) (f : PowerDie → PowerDie) : (s.modPd f).picks = s.picks := rfl
@[simp] theorem modPd_staging (s : State) (f : PowerDie → PowerDie) : (s.modPd f).staging = s.staging := rfl
@[simp] theorem modPd_descs (s : State) (f : PowerDie → PowerDie) : (s.modPd f).descs = s.descs := rfl
@[simp] theorem modPd_mcEntries (s : State) (f : PowerDie → PowerDie) : (s.modPd f).mcEntries = s.mcEntries := rfl
@[simp] theorem modPd_mcWaits (s : State) (f : PowerDie → PowerDie) : (s.modPd f).mcWaits = s.mcWaits := rfl
@[simp] theorem modPd_used (s : State) (f : PowerDie → PowerDie) : (s.modPd f).used = s.used := rfl
@[simp] theorem modPd_usedTo (s : State) (f : PowerDie → PowerDie) : (s.modPd f).usedTo = s.usedTo := rfl
@[simp] theorem modPd_parkUsed (s : State) (f : PowerDie → PowerDie) : (s.modPd f).parkUsed = s.parkUsed := rfl
@[simp] theorem modPd_thr (s : State) (f : PowerDie → PowerDie) : (s.modPd f).thr = s.thr := rfl
@[simp] theorem modPd_banks (s : State) (f : PowerDie → PowerDie) : (s.modPd f).banks = s.banks := rfl
@[simp] theorem modPd_ended (s : State) (f : PowerDie → PowerDie) : (s.modPd f).ended = s.ended := rfl
@[simp] theorem modPd_bankCe (s : State) (f : PowerDie → PowerDie) : (s.modPd f).bankCe = s.bankCe := rfl
@[simp] theorem modPd_tracker (s : State) (f : PowerDie → PowerDie) : (s.modPd f).tracker = s.tracker := rfl
@[simp] theorem modPd_ideQ (s : State) (f : PowerDie → PowerDie) : (s.modPd f).ideQ = s.ideQ := rfl
@[simp] theorem modPd_groups (s : State) (f : PowerDie → PowerDie) : (s.modPd f).groups = s.groups := rfl
@[simp] theorem modPd_reports (s : State) (f : PowerDie → PowerDie) : (s.modPd f).reports = s.reports := rfl
@[simp] theorem modPd_tapCount (s : State) (f : PowerDie → PowerDie) : (s.modPd f).tapCount = s.tapCount := rfl
@[simp] theorem modPd_tapRing (s : State) (f : PowerDie → PowerDie) : (s.modPd f).tapRing = s.tapRing := rfl
@[simp] theorem modPd_samples (s : State) (f : PowerDie → PowerDie) : (s.modPd f).samples = s.samples := rfl
@[simp] theorem modPd_shapers (s : State) (f : PowerDie → PowerDie) : (s.modPd f).shapers = s.shapers := rfl
@[simp] theorem modPd_policers (s : State) (f : PowerDie → PowerDie) : (s.modPd f).policers = s.policers := rfl
@[simp] theorem modPd_evict (s : State) (f : PowerDie → PowerDie) : (s.modPd f).evict = s.evict := rfl
@[simp] theorem modPd_gateMs (s : State) (f : PowerDie → PowerDie) : (s.modPd f).gateMs = s.gateMs := rfl
@[simp] theorem modPd_chans (s : State) (f : PowerDie → PowerDie) : (s.modPd f).chans = s.chans := rfl
@[simp] theorem modPd_lots (s : State) (f : PowerDie → PowerDie) : (s.modPd f).lots = s.lots := rfl
@[simp] theorem modPd_vfs (s : State) (f : PowerDie → PowerDie) : (s.modPd f).vfs = s.vfs := rfl
@[simp] theorem modPd_poolMem (s : State) (f : PowerDie → PowerDie) : (s.modPd f).poolMem = s.poolMem := rfl
@[simp] theorem modPd_poison (s : State) (f : PowerDie → PowerDie) : (s.modPd f).poison = s.poison := rfl
@[simp] theorem modPd_hkMem (s : State) (f : PowerDie → PowerDie) : (s.modPd f).hkMem = s.hkMem := rfl
@[simp] theorem modPd_fab (s : State) (f : PowerDie → PowerDie) : (s.modPd f).fab = s.fab := rfl
@[simp] theorem modPd_cupel (s : State) (f : PowerDie → PowerDie) : (s.modPd f).cupel = s.cupel := rfl
@[simp] theorem modPd_slots (s : State) (f : PowerDie → PowerDie) : (s.modPd f).slots = s.slots := rfl
@[simp] theorem modPd_d2d (s : State) (f : PowerDie → PowerDie) : (s.modPd f).d2d = s.d2d := rfl
@[simp] theorem modPd_assay (s : State) (f : PowerDie → PowerDie) : (s.modPd f).assay = s.assay := rfl
@[simp] theorem modPd_out (s : State) (f : PowerDie → PowerDie) : (s.modPd f).out = s.out := rfl

@[simp] theorem emit_pending (s : State) (o : Output) : (s.emit o).pending = s.pending := rfl
@[simp] theorem emit_clock (s : State) (o : Output) : (s.emit o).clock = s.clock := rfl
@[simp] theorem emit_mode (s : State) (o : Output) : (s.emit o).mode = s.mode := rfl
@[simp] theorem emit_modeCause (s : State) (o : Output) : (s.emit o).modeCause = s.modeCause := rfl
@[simp] theorem emit_resetCause (s : State) (o : Output) : (s.emit o).resetCause = s.resetCause := rfl
@[simp] theorem emit_pwrgd (s : State) (o : Output) : (s.emit o).pwrgd = s.pwrgd := rfl
@[simp] theorem emit_perstN (s : State) (o : Output) : (s.emit o).perstN = s.perstN := rfl
@[simp] theorem emit_alive (s : State) (o : Output) : (s.emit o).alive = s.alive := rfl
@[simp] theorem emit_faultN (s : State) (o : Output) : (s.emit o).faultN = s.faultN := rfl
@[simp] theorem emit_xspi (s : State) (o : Output) : (s.emit o).xspi = s.xspi := rfl
@[simp] theorem emit_hkRunning (s : State) (o : Output) : (s.emit o).hkRunning = s.hkRunning := rfl
@[simp] theorem emit_unusable (s : State) (o : Output) : (s.emit o).unusable = s.unusable := rfl
@[simp] theorem emit_banksOut (s : State) (o : Output) : (s.emit o).banksOut = s.banksOut := rfl
@[simp] theorem emit_peerLost (s : State) (o : Output) : (s.emit o).peerLost = s.peerLost := rfl
@[simp] theorem emit_time (s : State) (o : Output) : (s.emit o).time = s.time := rfl
@[simp] theorem emit_keys (s : State) (o : Output) : (s.emit o).keys = s.keys := rfl
@[simp] theorem emit_sec (s : State) (o : Output) : (s.emit o).sec = s.sec := rfl
@[simp] theorem emit_fetchStep (s : State) (o : Output) : (s.emit o).fetchStep = s.fetchStep := rfl
@[simp] theorem emit_verified (s : State) (o : Output) : (s.emit o).verified = s.verified := rfl
@[simp] theorem emit_ingotLive (s : State) (o : Output) : (s.emit o).ingotLive = s.ingotLive := rfl
@[simp] theorem emit_ingCause0 (s : State) (o : Output) : (s.emit o).ingCause0 = s.ingCause0 := rfl
@[simp] theorem emit_ingCause1 (s : State) (o : Output) : (s.emit o).ingCause1 = s.ingCause1 := rfl
@[simp] theorem emit_cfg (s : State) (o : Output) : (s.emit o).cfg = s.cfg := rfl
@[simp] theorem emit_records (s : State) (o : Output) : (s.emit o).records = s.records := rfl
@[simp] theorem emit_loadPorts (s : State) (o : Output) : (s.emit o).loadPorts = s.loadPorts := rfl
@[simp] theorem emit_regs (s : State) (o : Output) : (s.emit o).regs = s.regs := rfl
@[simp] theorem emit_mbx (s : State) (o : Output) : (s.emit o).mbx = s.mbx := rfl
@[simp] theorem emit_i3c (s : State) (o : Output) : (s.emit o).i3c = s.i3c := rfl
@[simp] theorem emit_stations (s : State) (o : Output) : (s.emit o).stations = s.stations := rfl
@[simp] theorem emit_ports (s : State) (o : Output) : (s.emit o).ports = s.ports := rfl
@[simp] theorem emit_bridges (s : State) (o : Output) : (s.emit o).bridges = s.bridges := rfl
@[simp] theorem emit_vhs (s : State) (o : Output) : (s.emit o).vhs = s.vhs := rfl
@[simp] theorem emit_nextId (s : State) (o : Output) : (s.emit o).nextId = s.nextId := rfl
@[simp] theorem emit_picks (s : State) (o : Output) : (s.emit o).picks = s.picks := rfl
@[simp] theorem emit_staging (s : State) (o : Output) : (s.emit o).staging = s.staging := rfl
@[simp] theorem emit_descs (s : State) (o : Output) : (s.emit o).descs = s.descs := rfl
@[simp] theorem emit_mcEntries (s : State) (o : Output) : (s.emit o).mcEntries = s.mcEntries := rfl
@[simp] theorem emit_mcWaits (s : State) (o : Output) : (s.emit o).mcWaits = s.mcWaits := rfl
@[simp] theorem emit_used (s : State) (o : Output) : (s.emit o).used = s.used := rfl
@[simp] theorem emit_usedTo (s : State) (o : Output) : (s.emit o).usedTo = s.usedTo := rfl
@[simp] theorem emit_parkUsed (s : State) (o : Output) : (s.emit o).parkUsed = s.parkUsed := rfl
@[simp] theorem emit_thr (s : State) (o : Output) : (s.emit o).thr = s.thr := rfl
@[simp] theorem emit_banks (s : State) (o : Output) : (s.emit o).banks = s.banks := rfl
@[simp] theorem emit_ended (s : State) (o : Output) : (s.emit o).ended = s.ended := rfl
@[simp] theorem emit_bankCe (s : State) (o : Output) : (s.emit o).bankCe = s.bankCe := rfl
@[simp] theorem emit_tracker (s : State) (o : Output) : (s.emit o).tracker = s.tracker := rfl
@[simp] theorem emit_ideQ (s : State) (o : Output) : (s.emit o).ideQ = s.ideQ := rfl
@[simp] theorem emit_groups (s : State) (o : Output) : (s.emit o).groups = s.groups := rfl
@[simp] theorem emit_reports (s : State) (o : Output) : (s.emit o).reports = s.reports := rfl
@[simp] theorem emit_tapCount (s : State) (o : Output) : (s.emit o).tapCount = s.tapCount := rfl
@[simp] theorem emit_tapRing (s : State) (o : Output) : (s.emit o).tapRing = s.tapRing := rfl
@[simp] theorem emit_samples (s : State) (o : Output) : (s.emit o).samples = s.samples := rfl
@[simp] theorem emit_shapers (s : State) (o : Output) : (s.emit o).shapers = s.shapers := rfl
@[simp] theorem emit_policers (s : State) (o : Output) : (s.emit o).policers = s.policers := rfl
@[simp] theorem emit_evict (s : State) (o : Output) : (s.emit o).evict = s.evict := rfl
@[simp] theorem emit_gateMs (s : State) (o : Output) : (s.emit o).gateMs = s.gateMs := rfl
@[simp] theorem emit_chans (s : State) (o : Output) : (s.emit o).chans = s.chans := rfl
@[simp] theorem emit_lots (s : State) (o : Output) : (s.emit o).lots = s.lots := rfl
@[simp] theorem emit_vfs (s : State) (o : Output) : (s.emit o).vfs = s.vfs := rfl
@[simp] theorem emit_poolMem (s : State) (o : Output) : (s.emit o).poolMem = s.poolMem := rfl
@[simp] theorem emit_poison (s : State) (o : Output) : (s.emit o).poison = s.poison := rfl
@[simp] theorem emit_hkMem (s : State) (o : Output) : (s.emit o).hkMem = s.hkMem := rfl
@[simp] theorem emit_fab (s : State) (o : Output) : (s.emit o).fab = s.fab := rfl
@[simp] theorem emit_cupel (s : State) (o : Output) : (s.emit o).cupel = s.cupel := rfl
@[simp] theorem emit_slots (s : State) (o : Output) : (s.emit o).slots = s.slots := rfl
@[simp] theorem emit_pd (s : State) (o : Output) : (s.emit o).pd = s.pd := rfl
@[simp] theorem emit_d2d (s : State) (o : Output) : (s.emit o).d2d = s.d2d := rfl
@[simp] theorem emit_assay (s : State) (o : Output) : (s.emit o).assay = s.assay := rfl

/-! What the updates write. -/

@[simp] theorem setReg_regs (s : State) (o : Nat) (v : W32) : (s.setReg o v).regs = tset 0 s.regs o v := rfl
@[simp] theorem setPort_ports (s : State) (p : Nat) (v : Port) : (s.setPort p v).ports = tset {} s.ports p v := rfl
@[simp] theorem modPort_ports (s : State) (p : Nat) (f : Port → Port) : (s.modPort p f).ports = tset {} s.ports p (f (s.port p)) := rfl
@[simp] theorem setStation_stations (s : State) (i : Nat) (v : Station) : (s.setStation i v).stations = tset {} s.stations i v := rfl
@[simp] theorem setBridge_bridges (s : State) (p : Nat) (v : Bridge) : (s.setBridge p v).bridges = tset {} s.bridges p v := rfl
@[simp] theorem modVh_vhs (s : State) (i : Nat) (f : Vh → Vh) : (s.modVh i f).vhs = tset {} s.vhs i (f (s.vh i)) := rfl
@[simp] theorem modGroup_groups (s : State) (g : Nat) (f : Group → Group) : (s.modGroup g f).groups = tset {} s.groups g (f (s.group g)) := rfl
@[simp] theorem modChan_chans (s : State) (c : Nat) (f : Chan → Chan) : (s.modChan c f).chans = tset {} s.chans c (f (s.chan c)) := rfl
@[simp] theorem modLot_lots (s : State) (l : Nat) (f : Lot → Lot) : (s.modLot l f).lots = tset {} s.lots l (f (s.lot l)) := rfl
@[simp] theorem modVf_vfs (s : State) (t : Nat) (f : Vf → Vf) : (s.modVf t f).vfs = tset {} s.vfs t (f (s.vf t)) := rfl
@[simp] theorem modSlot_slots (s : State) (n : Nat) (f : Slot → Slot) : (s.modSlot n f).slots = tset {} s.slots n (f (s.slot n)) := rfl
@[simp] theorem modFab_fab (s : State) (f : Fab → Fab) : (s.modFab f).fab = f s.fab := rfl
@[simp] theorem modCupel_cupel (s : State) (f : Cupel → Cupel) : (s.modCupel f).cupel = f s.cupel := rfl
@[simp] theorem modTime_time (s : State) (f : TimeBase → TimeBase) : (s.modTime f).time = f s.time := rfl
@[simp] theorem modSec_sec (s : State) (f : Sec → Sec) : (s.modSec f).sec = f s.sec := rfl
@[simp] theorem modMbx_mbx (s : State) (f : Mailbox → Mailbox) : (s.modMbx f).mbx = f s.mbx := rfl
@[simp] theorem modAssay_assay (s : State) (f : Assay → Assay) : (s.modAssay f).assay = f s.assay := rfl
@[simp] theorem modPd_pd (s : State) (f : PowerDie → PowerDie) : (s.modPd f).pd = f s.pd := rfl
@[simp] theorem emit_out (s : State) (o : Output) : (s.emit o).out = o :: s.out := rfl

end Sys2Proof.Machine.State
end

