-- ==== Sys2Proof/Laws/Tables.lean ====
section
/-! SUPPORT. Sparse tables and memory: what a write leaves to be read, and that every operation keeps the canonical form. -/

namespace Sys2Proof.Machine

variable {α : Type}

/-! Reads after writes. -/

theorem tfind_tput_self (t : Tbl α) (i : Nat) (v : α) : tfind (tput t i v) i = some v := by
  induction t with
  | nil => simp [tput, tfind]
  | cons e r ih =>
    obtain ⟨k, w⟩ := e
    simp only [tput]
    split
    · simp [tfind]
    · split
      · simp [tfind]
      · rename_i h; simp [tfind, Ne.symm h, ih]

theorem tfind_tput_ne (t : Tbl α) {i j : Nat} (v : α) (h : i ≠ j) : tfind (tput t i v) j = tfind t j := by
  induction t with
  | nil => simp [tput, tfind, h]
  | cons e r ih =>
    obtain ⟨k, w⟩ := e
    simp only [tput]
    split
    · simp [tfind, h]
    · split
      · subst_vars; simp [tfind, h]
      · simp [tfind, ih]

theorem tfind_terase_ne (t : Tbl α) {i j : Nat} (h : i ≠ j) : tfind (terase t i) j = tfind t j := by
  induction t with
  | nil => rfl
  | cons e r ih =>
    obtain ⟨k, w⟩ := e
    simp only [terase]
    split
    · subst_vars; simp [tfind, h]
    · simp [tfind, ih]

/-- A write of key `i` leaves every other key as it was. -/
theorem tget_tset_ne [DecidableEq α] (d : α) (t : Tbl α) {i j : Nat} (v : α) (h : i ≠ j) : tget d (tset d t i v) j = tget d t j := by
  unfold tget tset
  split
  · rw [tfind_terase_ne t h]
  · rw [tfind_tput_ne t v h]

/-- A key below every key of a rising table is not in it. -/
theorem tfind_below {b i : Nat} {t : Tbl α} (h : tsorted b t = true) (hi : i < b) : tfind t i = none := by
  induction t generalizing b with
  | nil => rfl
  | cons e r ih =>
    obtain ⟨k, w⟩ := e
    simp only [tsorted, Bool.and_eq_true, decide_eq_true_eq] at h
    have hk : k ≠ i := by omega
    simp only [tfind, hk, if_false]
    exact ih h.2 (by omega)

theorem tfind_terase_self {b i : Nat} {t : Tbl α} (h : tsorted b t = true) : tfind (terase t i) i = none := by
  induction t generalizing b with
  | nil => rfl
  | cons e r ih =>
    obtain ⟨k, w⟩ := e
    simp only [tsorted, Bool.and_eq_true, decide_eq_true_eq] at h
    simp only [terase]
    split
    · exact tfind_below h.2 (by omega)
    · rename_i hk; simp only [tfind, hk, if_false]; exact ih h.2

/-- A written key reads as the value written: of any table where the value is not the default, of a rising table always. -/
theorem tget_tset_self [DecidableEq α] (d : α) {t : Tbl α} {i : Nat} {v : α} (h : v ≠ d ∨ tsorted 0 t = true) :
    tget d (tset d t i v) i = v := by
  unfold tget tset
  split
  · rename_i hv
    rw [tfind_terase_self (h.resolve_left (fun c => c hv))]; exact hv.symm
  · rw [tfind_tput_self]; rfl

/-! The canonical form. -/

theorem tsorted_mono {a b : Nat} {t : Tbl α} (hab : a ≤ b) (h : tsorted b t = true) : tsorted a t = true := by
  cases t with
  | nil => rfl
  | cons e r =>
    obtain ⟨k, w⟩ := e
    simp only [tsorted, Bool.and_eq_true, decide_eq_true_eq] at h ⊢
    exact ⟨by omega, h.2⟩

theorem tsorted_tput {b i : Nat} {t : Tbl α} (v : α) (h : tsorted b t = true) : tsorted (min b i) (tput t i v) = true := by
  induction t generalizing b with
  | nil => simp only [tput, tsorted, Bool.and_true, decide_eq_true_eq]; omega
  | cons e r ih =>
    obtain ⟨k, w⟩ := e
    simp only [tsorted, Bool.and_eq_true, decide_eq_true_eq] at h
    simp only [tput]
    split
    · simp only [tsorted, Bool.and_eq_true, decide_eq_true_eq]; exact ⟨by omega, by omega, h.2⟩
    · split
      · subst_vars; simp only [tsorted, Bool.and_eq_true, decide_eq_true_eq]; exact ⟨by omega, h.2⟩
      · simp only [tsorted, Bool.and_eq_true, decide_eq_true_eq]
        exact ⟨by omega, tsorted_mono (by omega) (ih h.2)⟩

theorem tsorted_terase {b i : Nat} {t : Tbl α} (h : tsorted b t = true) : tsorted b (terase t i) = true := by
  induction t generalizing b with
  | nil => rfl
  | cons e r ih =>
    obtain ⟨k, w⟩ := e
    simp only [tsorted, Bool.and_eq_true, decide_eq_true_eq] at h
    simp only [terase]
    split
    · exact tsorted_mono (by omega) h.2
    · simp only [tsorted, Bool.and_eq_true, decide_eq_true_eq]; exact ⟨h.1, ih h.2⟩

theorem tsorted_tput_zero {i : Nat} {t : Tbl α} (v : α) (h : tsorted 0 t = true) : tsorted 0 (tput t i v) = true :=
  tsorted_mono (Nat.zero_le _) (tsorted_tput v h)

theorem tsorted_tset [DecidableEq α] (d : α) {i : Nat} {t : Tbl α} (v : α) (h : tsorted 0 t = true) : tsorted 0 (tset d t i v) = true := by
  unfold tset; split
  · exact tsorted_terase h
  · exact tsorted_tput_zero v h

theorem tsorted_filter {b : Nat} {t : Tbl α} (p : Nat × α → Bool) (h : tsorted b t = true) : tsorted b (t.filter p) = true := by
  induction t generalizing b with
  | nil => rfl
  | cons e r ih =>
    obtain ⟨k, w⟩ := e
    simp only [tsorted, Bool.and_eq_true, decide_eq_true_eq] at h
    simp only [List.filter_cons]
    split
    · simp only [tsorted, Bool.and_eq_true, decide_eq_true_eq]; exact ⟨h.1, ih h.2⟩
    · exact tsorted_mono (by omega) (ih h.2)

theorem tsorted_map {β : Type} {b : Nat} {t : Tbl α} (f : Nat × α → β) (h : tsorted b t = true) :
    tsorted b (t.map (fun e => (e.1, f e))) = true := by
  induction t generalizing b with
  | nil => rfl
  | cons e r ih =>
    obtain ⟨k, w⟩ := e
    simp only [tsorted, Bool.and_eq_true, decide_eq_true_eq] at h
    simp only [List.map_cons, tsorted, Bool.and_eq_true, decide_eq_true_eq]; exact ⟨h.1, ih h.2⟩

theorem tsorted_tmap [DecidableEq α] (d : α) (f : α → α) {t : Tbl α} (h : tsorted 0 t = true) : tsorted 0 (tmap d f t) = true :=
  tsorted_filter _ (tsorted_map _ h)

theorem mem_terase {t : Tbl α} {i : Nat} {e : Nat × α} (h : e ∈ terase t i) : e ∈ t := by
  induction t with
  | nil => exact h
  | cons a r ih =>
    simp only [terase] at h
    split at h
    · exact List.mem_cons_of_mem _ h
    · rcases List.mem_cons.mp h with h | h
      · exact h ▸ List.mem_cons_self
      · exact List.mem_cons_of_mem _ (ih h)

theorem mem_tput {t : Tbl α} {i : Nat} {v : α} {e : Nat × α} (h : e ∈ tput t i v) : e = (i, v) ∨ e ∈ t := by
  induction t with
  | nil => simpa [tput] using h
  | cons a r ih =>
    simp only [tput] at h
    split at h
    · rcases List.mem_cons.mp h with h | h
      · exact .inl h
      · exact .inr h
    · split at h
      · rcases List.mem_cons.mp h with h | h
        · exact .inl h
        · exact .inr (List.mem_cons_of_mem _ h)
      · rcases List.mem_cons.mp h with h | h
        · exact .inr (h ▸ List.mem_cons_self)
        · exact (ih h).imp id (List.mem_cons_of_mem _)

theorem twf_tset [DecidableEq α] (d : α) {t : Tbl α} {i : Nat} {v : α} (h : twf d t = true) : twf d (tset d t i v) = true := by
  simp only [twf, Bool.and_eq_true, List.all_eq_true, decide_eq_true_eq] at h ⊢
  refine ⟨tsorted_tset d v h.1, fun e he => ?_⟩
  unfold tset at he
  split at he
  · exact h.2 e (mem_terase he)
  · rename_i hv
    rcases mem_tput he with rfl | he
    · exact hv
    · exact h.2 e he

theorem twf_filter [DecidableEq α] (d : α) {t : Tbl α} (p : Nat × α → Bool) (h : twf d t = true) : twf d (t.filter p) = true := by
  simp only [twf, Bool.and_eq_true, List.all_eq_true, decide_eq_true_eq] at h ⊢
  exact ⟨tsorted_filter p h.1, fun e he => h.2 e (List.mem_filter.mp he).1⟩

/-! Memory. -/

theorem Memory.wf_tset {m : List Host.Cell} {a : Nat} {b : Byte} (h : Memory.wf m = true) : Memory.wf (tset 0 m a b) = true := twf_tset 0 h

theorem Memory.wf_memWrite {l : List Byte} : ∀ {m : List Host.Cell} {a : Nat}, Memory.wf m = true → Memory.wf (memWrite m a l) = true := by
  induction l with
  | nil => intro m a h; exact h
  | cons b r ih => intro m a h; exact ih (Memory.wf_tset h)

theorem Memory.wf_memZero {m : List Host.Cell} {a n : Nat} (h : Memory.wf m = true) : Memory.wf (memZero m a n) = true := twf_filter 0 _ h

/-- A write leaves every byte outside the written ones as it was. -/
theorem memWrite_outside (l : List Byte) : ∀ (m : List Host.Cell) (a x : Nat), (x < a ∨ a + l.length ≤ x) →
    tget 0 (memWrite m a l) x = tget 0 m x := by
  induction l with
  | nil => intro m a x _; rfl
  | cons b r ih =>
    intro m a x h
    simp only [List.length_cons] at h
    rw [memWrite, ih _ _ _ (by omega), tget_tset_ne]
    omega

/-- What was written is read back. -/
theorem memRead_memWrite (l : List Byte) : ∀ {m : List Host.Cell} {a : Nat}, Memory.wf m = true →
    memRead (memWrite m a l) a l.length = l := by
  induction l with
  | nil => intros; rfl
  | cons b r ih =>
    intro m a h
    simp only [List.length_cons, memRead, memWrite]
    rw [ih (Memory.wf_tset h), memWrite_outside r _ _ _ (by omega), tget_tset_self]
    exact .inr (by simp only [Memory.wf, twf, Bool.and_eq_true] at h; exact h.1)

end Sys2Proof.Machine
end

