-- ==== Sys2Proof/Laws/Ops.lean ====
section
/-! SUPPORT. One lemma for each shared operation: everything of the state that it can change. -/

namespace Sys2Proof.Machine

/-! Parts of the state after an update of one of them. -/

namespace State

theorem slot_modSlot_ne (s : State) {n m : Nat} (f : Slot → Slot) (h : m ≠ n) : (s.modSlot n f).slot m = s.slot m :=
  tget_tset_ne _ _ _ (Ne.symm h)

theorem slot_modSlot_self (s : State) {n : Nat} (f : Slot → Slot) (h : f (s.slot n) ≠ {} ∨ tsorted 0 s.slots = true) :
    (s.modSlot n f).slot n = f (s.slot n) := tget_tset_self _ h

theorem port_setPort_ne (s : State) {p q : Nat} (v : Port) (h : q ≠ p) : (s.setPort p v).port q = s.port q :=
  tget_tset_ne _ _ _ (Ne.symm h)

theorem port_setPort_self (s : State) {p : Nat} (v : Port) (h : v ≠ {} ∨ tsorted 0 s.ports = true) : (s.setPort p v).port p = v :=
  tget_tset_self _ h

theorem reg_setReg_ne (s : State) {o x : Nat} (v : W32) (h : x ≠ o) : (s.setReg o v).reg x = s.reg x := tget_tset_ne _ _ _ (Ne.symm h)

theorem reg_setReg_self (s : State) {o : Nat} (v : W32) (h : v ≠ 0 ∨ tsorted 0 s.regs = true) : (s.setReg o v).reg o = v :=
  tget_tset_self _ h

end State

/-! Reports. -/

theorem sendMsg_frame (s : State) (q : Nat) (m : Msg) :
    sendMsg s q m = { s with regs := (sendMsg s q m).regs, cupel := (sendMsg s q m).cupel } := by
  unfold sendMsg; dsimp only; split <;> split <;> rfl

/-- A report changes Cupel's queues, and with a full queue its overrun count, and nothing else. -/
theorem report_frame (s : State) (src inst kind : Nat) (o : Option Owner) (p : Nat) (d : Option Nat) (t : Option (Nat × Nat)) :
    report s src inst kind o p d t =
      { s with regs := (report s src inst kind o p d t).regs, cupel := (report s src inst kind o p d t).cupel } := sendMsg_frame _ _ _

theorem slotInfo_frame (s : State) (n b : Nat) :
    slotInfo s n b = { s with regs := (slotInfo s n b).regs, cupel := (slotInfo s n b).cupel } := by
  unfold slotInfo; rw [report_frame]; rfl

/-! The die-to-die link. -/

theorem sendD2d_frame (s : State) (f : D2dFrame) :
    sendD2d s f = { s with d2d := (sendD2d s f).d2d, out := (sendD2d s f).out } := by
  unfold sendD2d; dsimp only; split
  · rfl
  · split <;> rfl

theorem sendQuench_frame (s : State) : sendQuench s = { s with d2d := (sendQuench s).d2d, out := (sendQuench s).out } := by
  unfold sendQuench; dsimp only; split <;> rfl

theorem alarm_frame (s : State) (n k v : Nat) : alarm s n k v = { s with out := (alarm s n k v).out } := by
  unfold alarm; split <;> rfl

theorem sample_frame (s : State) (n c v : Nat) : sample s n c v = { s with out := (sample s n c v).out } := by
  unfold sample; split <;> rfl

/-- The slot power die changes its side of one slot, and sends a STAT frame or nothing. -/
theorem modPdSlot_frame (s : State) (n : Nat) (f : Slot → Slot) :
    modPdSlot s n f = { s with slots := (s.modSlot n f).slots, out := (modPdSlot s n f).out } := by
  unfold modPdSlot; dsimp only; split <;> rfl

/-- A write of the life record changes its slot, what goes to the store, and on a failure the report. -/
theorem writeLife_frame (s : State) (n : Nat) (ok : Bool) :
    writeLife s n ok = { s with slots := (writeLife s n ok).slots, regs := (writeLife s n ok).regs, cupel := (writeLife s n ok).cupel,
                                out := (writeLife s n ok).out } := by
  unfold writeLife; dsimp only
  split
  · rfl
  · split
    · rfl
    · rw [report_frame]; rfl

end Sys2Proof.Machine
end

