-- ==== Sys2Proof/Tests/Slice0.lean ====
section
/-! SUPPORT. Tests of the model: operands that well-formedness refuses, the manual's worked examples, and for every statement states and
operands that meet its hypotheses. -/

set_option maxRecDepth 8000

namespace Sys2Proof.Tests

open Sys2Proof Sys2Proof.Machine

/-! Small states. -/

/-- A link in L0 at 32 GT/s in flit mode. -/
def lk : Link := { ltssm := .l0, rate := 5, width := 16, active := 16, flit := true, dlUp := true, peerRate := 6, peerFlit := true }

def grants : List GrantEntry :=
  [.shaperRate, .gateList, .mcastMember, .slotPower, .containRelease, .tenantEvict, .lotAssign, .routeEpoch, .classify].map
    (fun (c : Grant) => { cls := c, instLo := 0, instHi := 1023 })

/-- One upstream port, two downstream ports with slots, two tenants, a group and a pool window of one lot each. -/
def cfg1 : Cfg :=
  { device := some { managerVh := 0 }
    stations := [(0, {}), (1, {}), (2, {}), (3, {}), (5, {})]
    ports := [(0, { role := 0, vh := 0 }), (8, { role := 1, vh := 0, slot := 0, l0p := true }), (16, { role := 1, vh := 0, slot := 1 })]
    vhs := [(0, { upPort := 0, ds := [{ port := 8, chip := 0 }, { port := 16, chip := 0 }] })]
    tenants := [(1, { vh := 0, cls := [{ port := 8, nopasid := true, ridHi := 0xFFFF }] }), (2, { vh := 0 })]
    gates := [(0, { default_ := 3 })]
    regions := [(1, { gate := 0, shared := true, slot := 0, perm := 3, sizeLog2 := 36, base := 0, tenants := 6 }),
                (2, { gate := 24, slot := 0, tenant := 1, perm := 3, sizeLog2 := 12, base := 0 }),
                (3, { gate := 32, slot := 0, tenant := 1, perm := 3, sizeLog2 := 12, base := 0 })]
    mcasts := [(3, { tenant := 1, vh := 0, vhIndex := 0, dests := [{ port := 8, chip := 0 }, { port := 16, chip := 0 }] })]
    pool := some { chMask := 3, capGib0 := 64, fanout := [{ region := 1, producer := 1 }]
                   runs := [{ firstLot := 0, count := 1, tenant := 1, firstSlot := 0 }] }
    slots := [(0, { rsenseUohm := 500 }), (1, { rsenseUohm := 500 })]
    carts := [(0, {}), (1, { authFailCut := true })]
    time := some {}
    lock := some { passwordEn := true }
    amend := some { warmResume := true, grants := grants } }

/-- A device in Run with its links up. -/
def base : State :=
  { State.reset with
    mode := .run, hkRunning := true, pwrgd := true, perstN := true, alive := true, clock := 1000000000000, cfg := cfg1
    pd := { inReset := false }, mbx := { owner := some .mf }
    ports := [(0, { link := lk }), (8, { link := lk }), (16, { link := lk })]
    stations := [(0, { passed := true, pllLock := 15 }), (1, { passed := true, pllLock := 15 }), (2, { passed := true, pllLock := 15 }), (3, { passed := true, pllLock := 15 })] }

/-- `base` with slot 0 as given. -/
def sl (x : Slot) : State := { base with slots := [(0, x)] }

/-- `base` with port 8 as given. -/
def pt (x : Port) : State := { base with ports := [(0, { link := lk }), (8, x), (16, { link := lk })] }

/-- Chip 1 of two, below the root, with a fabric link on port 24. -/
def fcfg : Cfg :=
  { cfg1 with
    device := some { managerVh := 0, chipId := 1, fabricMode := true }
    ports := cfg1.ports ++ [(24, { role := 2 })]
    fabric := some { fabricId := 7, chipCount := 2, treeParent := 24, chipMask := 3, peers := [{ port := 24 }], ringEn := true
                     routes := [(0, [24])] } }

def fb : State :=
  { base with cfg := fcfg, ports := base.ports ++ [(24, { link := lk })], fab := { links := [(24, { st := 3 })], present := 3 } }

/-- The same chip as the root. -/
def rb : State := { fb with cfg := { fcfg with device := some { managerVh := 0, fabricMode := true } } }

/-- The supplies are good, and no reset holds. -/
def ready : State := { State.reset with pwrgd := true, perstN := true }

/-- What an outcome goes on with. -/
def nextOf (s : State) (o : Host.Outcome State Fault Refusal) : State := match o with | .next t => t | _ => s

def ent (source kind : Nat) : FltEntry :=
  { cls := { source := source, inst := 0, kind := kind, owner := 0x1FF }, level := 1, acked := false, active := false, count := 1,
    first := 0, last := 0, lastMsg := { source := source, kind := kind } }

def hdr : IngotHeader := { totalLen := 0, fwOffset := 0, fwLen := 0, recOffset := 0, recLen := 0, recCount := 0 }

/-- The header of a Hallmark store of layout 1 with a 64-byte certificate chain. -/
def store : List Byte :=
  [0x48, 0x4C, 0x4D, 0x4B, 1] ++ List.replicate 23 0 ++ [64] ++ List.replicate 95 0 ++ [0x8f, 0x73, 0x51, 0xac]

/-- A CART record whose root digest is that of an empty certificate, and a cartridge that presents it. -/
def auth1 : CartRec := { rootDigest := sha384 [] }

def shown (b : Bool) : CartAuth :=
  { version12 := true, certCap := true, chalCap := true, root := [], leaf := [], chainOk := true, sigOk := b }

/-- `base` with the cartridge of slot 0 to be authenticated. -/
def authing : State :=
  { base with cfg := { cfg1 with carts := [(0, auth1)] }, slots := [(0, { authSince := 1000000000000 })]
              ports := [(0, { link := lk }), (8, { link := lk, quarantine := true }), (16, { link := lk })] }

/-- A command frame sent three times again, the last time a microsecond ago. -/
def ua : Unacked := { frame := { cls := .cmd, seq := 4 }, since := 999999999000, tries := 3 }

def m0 : Msg := { source := 3, kind := 0x94 }

/-- A message whose parity did not come through, on queue 14, at which the reader stands. -/
def mBad : Msg := { m0 with parityOk := false }
def qBad : State := { base with cupel := { turn := 14, queues := [(14, [mBad])] } }

/-- `base` in Assay, with the ASY_RES registers of `l` passed. -/
def passed (l : List Nat) : State := { base with mode := .assay, regs := l.map (fun o => (offAsy o, 0x40000000)) }

/-- The farug of a TLP for chip `c` after `h` hops. -/
def fg (c h : Nat) : Farug := { dstChip := c, dstPort := 8, srcChip := 0, srcPort := 0, tenant := 1, hops := h }

def rd : Tlp := { kind := .mrd, len := 4 }

/-- Every block has passed its Assay. -/
def allTested : State :=
  { base with regs := (List.range 36).map (fun (i : Nat) => (offAsy (0x100 + 4 * i), (0x40000000 : W32))) }

def act (code arg : Nat) : Active := { path := .mf, seq := 1, code := code, arg := arg, since := 0 }

def chal : Challenge := { level := 2, key := 0xFF, nonce := 5, block := [1], issued := 1000000000000 }

def mc1 : McastRec := { tenant := 1, vh := 0, vhIndex := 0, dests := [{ port := 8, chip := 0 }, { port := 16, chip := 0 }] }

def hel (id : W32) : HelloBody :=
  { chip := 0, fabricId := 7 * id + 7, port := 3, rootChip := 0, depth := 3, epoch := false, coldStart := true, mode := 3 }

def dsc : Desc :=
  { id := 4, tlp := { kind := .mwr, tc := 0, data := [1, 2, 3, 4] }, src := { port := 0 }, owner := 1, cls := 0, egress := 8, bytes := 16,
    cells := 1, isOpen := true }

def trk : Trk :=
  { id := 1, egress := 8, rid := 0, devTag := 9, origTag := 5, single := true, bytes := 4, timeout := 50000, owner := 1, src := { port := 0 },
    hdr := { kind := .mrd, len := 4 } }

def stg : Staged := { id := 4, key := .port 8 1, tlp := { kind := .mrd, len := 4 }, src := { port := 8 }, owner := 1, cls := 1, dest := .port 0 }

def mst : Staged :=
  { id := 4, key := .port 0 0, tlp := { kind := .mwr, data := [1, 2, 3, 4] }, src := { port := 0 }, owner := 1, cls := 0, dest := .group 3 }

def wt : McWait := { x := { mst with ingress := 0 }, group := 3, entry := 5, since := 999999900000, members := 3 }

def pkd : Parked :=
  { id := 4, dest := 1, tlp := { kind := .mwr, data := [1, 2, 3, 4] }, src := { port := 0 }, owner := 1, cells := 1, seq := 0, time := 0 }

def rpt : Report := { group := 3, seq := 0, cause := 1, missed := 1, time := 0 }

def smp : Sample := { tap := 31, time := 0, port := 8, egress := false, owner := 1, tlp := { kind := .mrd, len := 4 } }

def pnd : PendList := { list := none, ts := 0, path := .mf, seq := 1 }

/-- `base` with lot 0 of channel 0 ready for tenant 1. -/
def win : State := { base with chans := [(0, { st := 2 })], lots := [(0, { st := 3, owner := 1 })] }

/-- A key of the IDE quarantine list, for tag 9 of port 8. -/
def idk : IdeKey := { egress := 8, rid := 0, tag := 9, until_ := 0, owner := 1 }

/-- `base` with tenant 1 behind its upstream port too. -/
def own1 : State :=
  { base with cfg := { cfg1 with tenants := [(1, { vh := 0, cls := [{ port := 0, nopasid := true, ridHi := 0xFFFF }] })] } }

/-- A TLP that began on fabric port 24 2 µs ago. -/
def cutDsc : Desc := { dsc with egress := 24 }

def cutAt : State :=
  { fb with descs := [cutDsc], ports := base.ports ++ [(24, { link := lk, sched := { txing := some 4, cutAt := 999999998000 } })] }

/-- The first part of an AMEND record of 20 bytes. -/
def part : List Byte := [0x0B, 1, 0, 0, 12, 0, 0, 0]

/-- A TIME record. -/
def timeRaw : RawRec := { type := 0x0E, basic := [1, 1, 100, 0, 0, 0, 0, 0] }

/-- A TIME record whose CLOCK_SOURCE is out of range. -/
def timeBad : RawRec := { type := 0x0E, basic := [9, 1, 100, 0, 0, 0, 0, 0] }

/-- The framing of a TIME record. -/
def timeHdr : List Byte := [0x0E, 1, 0, 0, 8, 0, 0, 0]

/-- `base` with the port opposite `p` and the window of the bridge of port 16 open. -/
def peer : State := { base with bridges := [(16, { memWin := [(0x100000, 0x1FFFFF)] })] }

/-- `base` with a policer on tenant 1 whose buckets are empty. -/
def pol (hold : Bool) : State :=
  let r : TenantRec :=
    { vh := 0, pol := [{ tcMask := 1, hold := hold, cir := 1, pir := 1, cbs := 1, pbs := 1 }],
      cls := [{ port := 8, nopasid := true, ridHi := 0xFFFF }] }
  { base with cfg := { cfg1 with tenants := [(1, r)] } }

theorem slot_off : ∀ k : Nat, k ≠ 0 → gateOn (State.slot { State.reset with slots := [(0, { gateA := true })] } k) = false := by
  intro k h
  cases k with
  | zero => exact absurd rfl h
  | succ k => rfl

def prp : Prepare := { at_ := 0, waiting := 0, refused := 0, drains := false, tags := false, parts := 0, since := 999999996000 }

theorem lead_ok : leadBad fb 10000000000 (2 * propTime fb) = false := by
  have h : propTime fb ≤ 1100 := by unfold propTime; split <;> omega
  have n : fb.now = 0 := by decide
  simp only [leadBad, n, Bool.or_eq_false_iff, decide_eq_false_iff_not]
  omega

theorem hunt_only : ∀ b ∈ List.replicate 64 ({ valid := BitVec.ofNat 130 (2 ^ 129) } : HuntBlock),
    b.eieos = none ∧ b.valid.getLsbD 129 = true ∧ ∀ i : Nat, i < 129 → b.valid.getLsbD i = false := by
  intro b h
  obtain ⟨-, rfl⟩ := List.mem_replicate.mp h
  decide

/-! What a command's operands must satisfy: a term that breaks each condition is refused. -/

def okTlp : Tlp := { kind := .mwr, data := [1, 2, 3, 4], len := 4 }
def okFarug : Farug := { dstChip := 15, dstPort := 127, srcChip := 0, srcPort := 0, tenant := 255 }
def okMsg : Msg := { source := 13, kind := 0x01 }
def okHello : HelloBody := { chip := 15, fabricId := 7, port := 79, rootChip := 15, depth := 7, epoch := false, coldStart := true, mode := 3 }

theorem test_wf_accepts :
    ([.requestReceived 8 okTlp, .fabricTlpReceived 24 okFarug okTlp, .injectMessage .mf 1 okMsg, .hello 24 okHello,
      .d2dFrame .powerDie { cls := .cmd, slot := 23 }, .debugMasterAccess .jtag 0 true 0 2 [1, 2],
      .linkDlUp 8 16 3 true 6 true true true 15, .d2dFrame .powerDie { cls := .alarm, kind := 255, stamp := 65535 }] : List Instr).all Instr.wf = true := by decide

theorem test_wf_refuses_request_shapes :
    ([.requestReceived 8 { kind := .cpl }, .requestReceived 8 { kind := .mrd, data := [1] }, .requestReceived 8 { kind := .mrd, len := 4097 },
      .requestReceived 8 { kind := .mwr }, .requestReceived 8 { okTlp with len := 5 }, .requestReceived 8 { kind := .atomic, data := [1] },
      .requestReceived 8 { kind := .atomic, atomicOp := .swap, data := [1] },
      .requestReceived 8 { kind := .atomic, atomicOp := .cas, data := [1, 2, 3, 4] }, .requestReceived 8 { kind := .iord, data := [1] },
      .requestReceived 8 { kind := .cfgwr0, data := [1] }] : List Instr).all (fun (i : Instr) => !i.wf) = true := by decide

theorem test_wf_refuses_a_long_payload : Tlp.wf { kind := .msg, data := List.replicate 4097 0 } = false := by decide +kernel

theorem test_wf_refuses_completions_and_messages :
    ([.completionReceived 8 okTlp, .completionReceived 8 { kind := .cpl, len := 4 }, .errorMessageReceived 8 okTlp] : List Instr).all
      (fun (i : Instr) => !i.wf) = true := by decide

theorem test_wf_refuses_farug_fields :
    ([{ okFarug with dstChip := 16 }, { okFarug with dstPort := 128 }, { okFarug with srcChip := 16 }, { okFarug with srcPort := 128 },
      { okFarug with tenant := 256 }, { okFarug with tc := 8 }, { okFarug with hops := 8 }, { okFarug with seq := 2 ^ 24 },
      { okFarug with ownerM := true }] : List Farug).all (fun (f : Farug) => !Instr.wf (.fabricTlpReceived 24 f okTlp)) = true := by decide

theorem test_wf_refuses_message_fields :
    ([{ okMsg with source := 256 }, { okMsg with inst := 256 }, { okMsg with kind := 256 }, { okMsg with severity := 8 },
      { okMsg with tenant := 256 }, { okMsg with port := 128 }, { okMsg with detail := 2 ^ 31 }, { okMsg with time := 2 ^ 21 }] : List Msg).all
      (fun (m : Msg) => !Instr.wf (.injectMessage .mf 1 m) && !Instr.wf (.fault 24 0 1 m)) = true := by decide

theorem test_wf_refuses_frames_hellos_and_levels :
    ([.d2dFrame .powerDie { cls := .cmd, slot := 24 }, .d2dFrame .powerDie { cls := .stat, kind := 256 },
      .d2dFrame .powerDie { cls := .stat, stamp := 2 ^ 16 }, .hello 24 { okHello with chip := 16 }, .hello 24 { okHello with port := 80 },
      .hello 24 { okHello with rootChip := 16 }, .hello 24 { okHello with depth := 8 }, .fault 24 0 5 okMsg] : List Instr).all
      (fun (i : Instr) => !i.wf) = true := by decide

theorem test_wf_refuses_link_operands :
    ([.linkDlUp 8 16 3 true 0 true false true 1, .linkDlUp 8 16 3 true 7 true false true 1, .linkDlUp 8 0 3 true 6 true false true 1,
      .linkDlUp 8 17 3 true 6 true false true 1, .linkDlUp 8 16 4 true 6 true false true 1, .rateEqComplete 8 7 [],
      .rateEqComplete 8 6 [{ height := 512, width := 0 }], .burnishStep 0 0 { height := 0, width := 1001 } { height := 0, width := 0 }
        { height := 0, width := 0 }] : List Instr).all (fun (i : Instr) => !i.wf) = true := by decide

theorem test_wf_refuses_accesses :
    ([.poolWindowAccess 1 { kind := .mrd, offset := 0, len := 0 }, .poolWindowAccess 1 { kind := .mwr, offset := 0, len := 0 },
      .poolWindowAccess 1 { kind := .atomic, offset := 0, len := 0 }, .poolWindowAccess 1 { kind := .msg, offset := 0, len := 0 },
      .debugMasterAccess .jtag 0 false 0 0 [], .debugMasterAccess .jtag 0 false 0 65 [], .debugMasterAccess .jtag 0 true 0 2 [1],
      .temperatureRead (List.replicate 33 0)] : List Instr).all (fun (i : Instr) => !i.wf) = true := by decide

/-! Published vectors. -/

theorem test_no_word_spells_a_command : decodeTableWord 32 0 = none := by decide

/-- The check value of CRC-32. -/
theorem test_crc32 : crc32 [0x31, 0x32, 0x33, 0x34, 0x35, 0x36, 0x37, 0x38, 0x39] = 0xCBF43926 := by decide +kernel

/-- SHA-384 of "abc" (FIPS 180-4). -/
theorem test_sha384 : sha384 [0x61, 0x62, 0x63] =
    [0xCB, 0x00, 0x75, 0x3F, 0x45, 0xA3, 0x5E, 0x8B, 0xB5, 0xA0, 0x3D, 0x69, 0x9A, 0xC6, 0x50, 0x07, 0x27, 0x2C, 0x32, 0xAB, 0x0E, 0xDE, 0xD1, 0x63,
     0x1A, 0x8B, 0x60, 0x5A, 0x43, 0xFF, 0x5B, 0xED, 0x80, 0x86, 0x07, 0x2B, 0xA1, 0xE7, 0xCC, 0x23, 0x58, 0xBA, 0xEC, 0xA1, 0x34, 0xC8, 0x25, 0xA7] := by
  decide +kernel

/-! The manual's worked examples. -/

/-- Chapters 0 and 15: where port 21, TNT_BUFCPL[12] and SCH_QCELLS[6] of port 2 lie. -/
theorem test_register_addresses : offPrt 21 0 = 0x215000 ∧ offTnt (0x50000 + 32 * 12 + 8) = 0x550188 ∧ offSch 2 (0x40 + 4 * 6) = 0x302058 := by
  decide

/-- Chapter 15: the READ_SETUP of the example keeps R405. -/
theorem test_i3c_read_setup : accessOk 0x550188 2 = true ∧ (nextOf base (exec (.i3cReadSetup 0x550188 2) base)).i3c.setup = some (0x550188, 2) := by
  decide

/-- Chapter 3: station 9 with bifurcation entry 0x0B; lane 152 is its lane 8. -/
def st9 : State :=
  { base with cfg := { cfg1 with stations := [(9, { bifurcation := 0x0B })], ports := (List.range 8).map (fun (k : Nat) => (72 + k, { role := 1 })) } }

theorem test_bifurcation : (List.range 8).map (fun (k : Nat) => cfgWidth st9 (72 + k)) = [2, 2, 2, 2, 1, 1, 1, 1] ∧
    lanePort st9 9 7 = some 75 ∧ lanePort st9 9 8 = some 76 ∧ lanePort st9 9 9 = none := by decide

/-- Chapter 4: a non-flit x8 ingress at 32 GT/s, and three egress ports. -/
def lks (w r : Nat) : Link := { lk with rate := r, width := w, active := w, flit := false }

theorem test_cut_through :
    ([lks 4 5, lks 16 4, lks 16 5].map (fun (e : Link) =>
      cutThrough { base with ports := [(0, { link := lks 8 5 }), (8, { link := e })] } { dsc with ingress := 0 })) = [true, true, false] := by decide

/-- Chapter 4: forty tenants leave 29,952 tracker entries shared. -/
theorem test_tracker_split :
    trkSharedSize { base with cfg := { cfg1 with tenants := (List.range 40).map (fun (t : Nat) => (t, { vh := 0 })) } } = 29952 := by decide

/-- Chapter 4: four tenants reach a port with 8-bit tags, and then with 10-bit tags. -/
def tagged (b : Bool) : State :=
  { base with cfg := { cfg1 with tenants := (List.range 4).map (fun (t : Nat) => (t, { vh := 0 })) }
              ports := [(8, { link := lks 8 5, tagRead := b, tag10 := b })] }

theorem test_tag_split : tagReserve (tagged false) 8 2 = 38 ∧ tagReserve (tagged false) 8 256 = 38 ∧ tagShared (tagged false) 8 = 66 ∧
    tagReserve (tagged true) 8 2 = 115 ∧ tagShared (tagged true) 8 = 193 := by decide

/-- Chapter 6: a shaper at 400 Mb/s gains 8 bytes a tick, and at 600 Mb/s 12. -/
def shaped (kbps : Nat) : State :=
  { base with shapers := [(0, { port := 8, rate := kbps, nextRate := kbps, burst := 16384, tok := tokens 12000 })] }

theorem test_shaper_refill : (tget {} (nextOf base (exec .shaperRefill (shaped 400000))).shapers 0).tok = tokens 12008 ∧
    (tget {} (nextOf base (exec .shaperRefill (shaped 600000))).shapers 0).tok = tokens 12012 := by decide

/-- Chapter 6: a new BASE of 5,000,013,000 ns on a 20 µs cycle; the gate list of the example port. -/
def gcl2 : GateList := { gcl := [{ mask := 0x40, interval := 250 }, { mask := 0xBF, interval := 2250 }], cycle := 20000, base := 0 }
def gated (r : Nat) : State := { base with ports := [(8, { link := lks 4 r, sched := { oper := some gcl2, entry := 1 } })] }

theorem test_switch_time : switchTime (gated 4) 8 5000013000 = 5000020000 := by decide

theorem test_guard_band : guardBand (gated 4) 8 = 594 ∧ guardBand (gated 3) 8 = 1148 ∧ txTime (lks 4 4) 272 = 36 ∧ txTime (lks 4 4) 528 = 69 := by
  decide

theorem test_latest_start : guardOk (gated 4) 8 1 19436 4112 = true ∧ guardOk (gated 4) 8 1 19437 4112 = false ∧
    guardOk (gated 3) 8 1 18913 4112 = true ∧ guardOk (gated 3) 8 1 18914 4112 = false ∧ guardOk (gated 4) 8 2 19816 528 = true := by decide

theorem test_gate_boundary : (((nextOf base (exec (.gateBoundary 8) (gated 4))).port 8).sched.entry) = 0 := by decide

/-- Chapter 7: region 3 of tenant 12, number 35 at gate 56 (R214). -/
def gate56 : State :=
  { base with cfg := { cfg1 with regions := [(3, { gate := 56, slot := 3, tenant := 12, perm := 3, subdis := 0x80, sizeLog2 := 16, base := 0x4080000000 })] } }

theorem test_gate_examples :
    gateCheck gate56 56 12 false 2 0x408000DF80 128 = .pass ∧
    gateCheck gate56 56 12 false 2 0x408000DF80 256 = .reject true 2 0x408000E000 35 ∧
    gateCheck gate56 56 12 false 1 0x408000FF80 512 = .reject true 2 0x408000FF80 35 ∧
    gateCheck gate56 56 12 false 1 0x4080010000 64 = .reject false 0 0x4080010000 0xFF := by decide

/-- Chapter 12: class 2 with a 1 mΩ resistor; a cartridge put back while its slot's retry timer runs waits in RETRY (Table 12.9). -/
theorem test_ilim_code : ilimFor base 5 2 = 150 := by decide

def held : Slot := { st := 2, seen := 0x3C02, pinA := true, pinB := true, retryUntil := some 1000000000001, newIns := true, want := true }

theorem test_reinserted_waits : ((nextOf base (exec (.identify 0 { answered := true, bytes := store }) (sl held))).slot 0).st = 9 := by decide +kernel

/-- Chapter 13: lane 5 of station 6 fails LOOPBACK_64 (0x5). -/
theorem test_assay_result : degradedMask { base with unusable := BitVec.ofNat 10 (2 ^ 6) } = 0x40 ∧
    ((nextOf base (exec (.assayBlockDone (.station 6) { pass := false, test := 5, lane := some 5, duration := 5 })
      { base with mode := .assay, assay := { testing := [6], pairFrom := 1000000000000 } })).reg (offAsy 0x118)) >>> 20 &&& 0xCFF = 0x855 := by decide

/-! One command of each family. -/

/-- R69, Table 2.18: DONE, and MODE Run in byte 0 of the response. -/
theorem test_get_state : (nextOf base (exec (.getState .mf 5) base)).mbx.done = true ∧
    tget 0 (nextOf base (exec (.getState .mf 5) base)).mbx.data 0 &&& 0xFF = 3 := by decide

theorem test_mailbox_claim : (nextOf base (exec (.mbxClaimRead .i3c) { base with mbx := {} })).mbx.owner = some .i3c ∧
    (nextOf base (exec (.mbxClaimRead .i3c) base)).mbx.owner = some .mf := by decide

theorem test_seating : ((nextOf base (exec (.presencePinChange 0 true true 100) (sl { pinA := true }))).slot 0).loc = 1 ∧
    ((nextOf base (exec (.seated 0) (sl { loc := 1, pinA := true, pinB := true }))).slot 0).loc = 2 := by decide

def joining : State := { fb with fab := { fb.fab with links := [(24, { st := 1 })] } }

def cold : State := { joining with fab := { joining.fab with runSince := some joining.clock } }

/-- R256, R257: ACTIVE in the cold start, else QUIESCED; another FABRIC_ID is refused. -/
theorem test_hello : ((nextOf base (exec (.hello 24 (hel 0)) joining)).fabLink 24).st = 2 ∧
    ((nextOf base (exec (.hello 24 (hel 0)) cold)).fabLink 24).st = 3 ∧ ((nextOf base (exec (.hello 24 (hel 3)) joining)).fabLink 24).st = 4 ∧
    ((nextOf base (exec (.hello 24 (hel 3)) joining)).fabLink 24).cause = 2 := by decide

theorem test_multicast_index : mcIndex { base with vhs := [(0, { mcBase := 0x10000, mcIndexPos := 12, mcNumGroup := 63, mcEnable := true })] } 0 0x13FFF = some 3 := by
  decide

theorem test_flr : ((nextOf base (exec (.vfFlr 1) base)).vf 1).flr = some base.clock := by decide

theorem test_pool_write : memRead (nextOf win (exec (.poolWindowAccess 1 { kind := .mwr, offset := 64, len := 2, data := [0xAB, 0xCD] }) win)).poolMem
    (poolAddr 0 64) 2 = [0xAB, 0xCD] := by decide

/-! For every clause of every statement, a state and operands that meet all of its hypotheses, at the boundaries of their ranges. -/

theorem witness_StepRunsTheFrontCommand :
    (∃ (s : State) (c : Instr) (r : List Instr), s.pending = c :: r) ∧
    (∃ (s : State), s.pending = [] ∧ s.mode ≠ .reset) ∧
    (∃ (s : State), s.pending = [] ∧ s.mode = .reset ∧ (s.pwrgd = true → s.perstN = true → slotsOff s = false)) ∧
    (∃ (s : State), s.pending = [] ∧ s.mode = .reset ∧ s.pwrgd = true ∧ s.perstN = true ∧ slotsOff s = true) :=
  ⟨⟨{ base with pending := [.ppsEdge] }, .ppsEdge, [], by decide⟩,
    ⟨base, by decide⟩,
    ⟨State.reset, by decide⟩,
    ⟨ready, by decide⟩⟩

theorem witness_ModeChangesOnlyByTable211 :
    (∃ (c : Instr) (s : State) (t : State), exec c s = .next t ∧ t.mode ≠ s.mode) ∧
    (∃ (c : Instr) (s : State) (t : State), exec c s = .next t ∧ t.mode ≠ s.mode ∧ s.mode = .degraded ∧ t.mode = .run) ∧
    (∃ (s : State) (t : State), s.pending = [] ∧ step s = .next t ∧ t.mode ≠ s.mode) :=
  ⟨⟨.powerGoodLost 100, base, nextOf base (exec (.powerGoodLost 100) base), ⟨rfl, by decide⟩⟩,
    ⟨.epochFlip, { State.reset with mode := .degraded, fab := { flip := some { at_ := 0 } } },
      nextOf State.reset (exec .epochFlip { State.reset with mode := .degraded, fab := { flip := some { at_ := 0 } } }), ⟨rfl, by decide⟩⟩,
    ⟨ready, nextOf base (step ready), ⟨by decide, rfl, by decide⟩⟩⟩

theorem witness_OnlyLossOfPowerGoodEndsFactory :
    (∃ (s : State), s.mode = .factory) ∧
    (∃ (s : State) (ns : Nat), s.mode = .factory ∧ 100 ≤ ns) ∧
    (∃ (c : Instr) (s : State) (t : State), exec c s = .next t ∧ s.mode = .factory ∧ t.mode ≠ .factory) :=
  ⟨⟨{ base with mode := .factory }, by decide⟩,
    ⟨{ base with mode := .factory }, 100, by decide⟩,
    ⟨.powerGoodLost 100, { base with mode := .factory }, nextOf base (exec (.powerGoodLost 100) { base with mode := .factory }), ⟨rfl, by decide⟩⟩⟩

theorem witness_UnlockLevelHoldsUntilChipReset :
    (∃ (c : Instr) (s : State) (t : State), exec c s = .next t ∧ s.mode ≠ .reset ∧ t.mode ≠ .reset) ∧
    (∃ (s : State) (t : State) (p : Path) (seq : Byte) (pw : List Byte), exec (.passwordUnlock p seq pw) s = .next t ∧ 1 ≤ s.sec.level) ∧
    (∃ (s : State) (t : State) (p : Path) (seq : Byte) (l : Byte), exec (.unlockChallenge p seq l) s = .next t ∧ l.toNat ≤ s.sec.level) ∧
    (∃ (s : State) (t : State) (p : Path) (seq : Byte) (n : BitVec 256) (sig : Sig) (c : Challenge), exec (.unlockResponse p seq n sig) s = .next t ∧
        s.sec.challenge = some c ∧ c.level ≤ s.sec.level) ∧
    (∃ (s : State) (p : Path), mayIssue s p = true ∧ s.hkRunning = true ∧ s.inRunModes = true ∧ s.sec.level = 3) :=
  ⟨⟨.passwordUnlock .mf 1 [], base, nextOf base (exec (.passwordUnlock .mf 1 []) base), ⟨rfl, by decide⟩⟩,
    ⟨{ base with sec := { level := 1 } }, nextOf base (exec (.passwordUnlock .mf 1 []) { base with sec := { level := 1 } }), .mf, 1, [], ⟨rfl,
      by decide⟩⟩,
    ⟨{ base with sec := { level := 2 } }, nextOf base (exec (.unlockChallenge .mf 1 2) { base with sec := { level := 2 } }), .mf, 1, 2, ⟨rfl,
      by decide⟩⟩,
    ⟨{ base with sec := { level := 2, challenge := some { level := 2, key := 0, nonce := 0, block := [], issued := 0 } } },
      nextOf base (exec (.unlockResponse .mf 1 0 { signer := 0, msg := [] }) { base with sec := { level := 2, challenge := some { level := 2, key := 0, nonce := 0, block := [], issued := 0 } } }),
      .mf, 1, 0, { signer := 0, msg := [] }, { level := 2, key := 0, nonce := 0, block := [], issued := 0 }, ⟨rfl, by decide⟩⟩,
    ⟨{ base with sec := { level := 3 } }, .mf, by decide⟩⟩

theorem witness_KeyStoreOnlyMovesOnward :
    ∃ (s : State) (t : State), (∀ n, (tget {} s.keys.owner n).st ≤ 2) ∧ step s = .next t :=
  ⟨base, nextOf base (step base), ⟨fun _ => Nat.zero_le 2, rfl⟩⟩

theorem witness_StepsKeepTheCanonicalForm :
    ∃ (s : State) (t : State), Safety.Canonical s ∧ step s = .next t :=
  ⟨base, nextOf base (step base), ⟨by decide, rfl⟩⟩

theorem witness_PowerResetsKeepOnlyTheKeyStore :
    (∃ (ns : Nat), ns < 100) ∧
    (∃ (ns : Nat), 100 ≤ ns) :=
  ⟨⟨99, by decide⟩,
    ⟨100, by decide⟩⟩

theorem witness_ChipResetsKeepStickyRegistersAndGates :
    (∃ (ns : Nat), ns < 1000) ∧
    (∃ (s : State) (ns : Nat), 1000 ≤ ns ∧ s.mode = .factory) ∧
    (∃ (s : State) (ns : Nat), 1000 ≤ ns ∧ s.mode ≠ .factory ∧ s.mode ≠ .reset ∧ Safety.Canonical s) ∧
    (∃ (s : State) (r : Nat), s.fab.resetAt = some r ∧ r ≤ s.clock ∧ s.mode ≠ .reset ∧ s.mode = .factory) ∧
    (∃ (s : State) (r : Nat), s.fab.resetAt = some r ∧ r ≤ s.clock ∧ s.mode ≠ .reset ∧ s.mode ≠ .factory ∧ Safety.Canonical s) :=
  ⟨⟨999, by decide⟩,
    ⟨{ base with mode := .factory }, 1000, by decide⟩,
    ⟨base, 1000, by decide⟩,
    ⟨{ base with mode := .factory, fab := { resetAt := some 5 } }, 5, by decide⟩,
    ⟨{ base with fab := { resetAt := some 5 } }, 5, by decide⟩⟩

theorem witness_LoadBeginsWhenTheLastSlotIsOff :
    (∃ (s : State), s.mode = .reset ∧ s.pwrgd = true ∧ slotsOff s = true) ∧
    (∃ (s : State), s.mode = .reset ∧ slotsOff s = false) ∧
    (∃ (s : State) (n : SlotId) (m : SlotId), Safety.Canonical s ∧ s.pd.resetting = true ∧ s.pd.resetSince + 1000 * pdWarnUs s n ≤ s.clock ∧ m ≠ n ∧
        gateOn (s.slot m) = true) ∧
    (∃ (s : State) (n : SlotId), Safety.Canonical s ∧ s.pd.resetting = true ∧ s.pd.resetSince + 1000 * pdWarnUs s n ≤ s.clock ∧ (∀ k : Nat,
        k ≠ n → gateOn (s.slot k) = false) ∧ s.mode = .reset ∧ s.pwrgd = true ∧ s.perstN = true) :=
  ⟨⟨{ State.reset with pwrgd := true }, by decide⟩,
    ⟨{ State.reset with slots := [(0, { gateA := true })] }, by decide⟩,
    ⟨{ base with pd := { inReset := false, resetting := true }, slots := [(0, { gateA := true }), (1, { gateA := true })] }, 0, 1, by decide⟩,
    ⟨{ ready with clock := 1000000000, pd := { resetting := true }, slots := [(0, { gateA := true })] }, 0, ⟨by decide, by decide, by decide,
      slot_off, by decide⟩⟩⟩

theorem witness_SlotPowerDieResetCutsEverySlot :
    (∃ (ns : Nat), ns < 2000) ∧
    (∃ (mv : Nat) (ns : Nat), mv < 4200 ∧ 2000 ≤ ns) ∧
    (∃ (s : State) (mv : Nat), Safety.Canonical s ∧ 4500 ≤ mv ∧ s.pd.vccGood = false) :=
  ⟨⟨1999, by decide⟩,
    ⟨4199, 2000, by decide⟩,
    ⟨{ base with pd := { vccGood := false } }, 4500, by decide⟩⟩

theorem witness_IngotsAreFetchedVerifiedAndApplied :
    (∃ (s : State), s.mode = .load ∧ s.fetchStep < 2 ∧ s.verified = none) ∧
    (∃ (s : State) (k : Nat) (h : IngotHeader) (l : List RawRec), s.mode = .load ∧ s.ingotLive = false ∧ s.verified = some (k, h, l)) :=
  ⟨⟨{ State.reset with mode := .load }, by decide⟩,
    ⟨{ State.reset with mode := .load, verified := some (0, hdr, []) }, 0, hdr, [], by decide⟩⟩

theorem witness_RollbackIsRefused :
    ∃ (s : State) (img : FlashSlot) (i : Nat), (slotHeader img i).secVersion < s.keys.minSec :=
  ⟨{ base with keys := { minSec := 1 } }, { extents := [(0, List.replicate 512 0)] }, 0, by decide +kernel⟩

theorem witness_SlotLatchesCutAndStartTheRetryTimer :
    (∃ (s : State) (n : SlotId), (s.slot n).loc ≤ 8 ∧ ramping (s.slot n) = true ∧ (s.slot n).rampSince + 1000000 * pdField s n 10 50 ≤ s.clock) ∧
    (∃ (s : State) (n : SlotId) (us : _), (s.slot n).loc ≤ 8 ∧ ramping (s.slot n) = true ∧ pdField s n 2 500 ≤ us ∧
        (s.slot n).rampSince + 1000 * us ≤ s.clock) ∧
    (∃ (s : State) (n : SlotId) (f : _) (o : _) (us : _), (s.slot n).loc ≤ 8 ∧ ramping (s.slot n) = true ∧ 2 * o < f ∧ 100 ≤ us ∧
        (s.slot n).rampSince + 1000 * us ≤ s.clock) ∧
    (∃ (s : State) (n : SlotId) (us : _), (s.slot n).loc ≤ 8 ∧ gateOn (s.slot n) = true ∧ (s.slot n).loc ≠ 4 ∧ pdField s n 1 2000 ≤ us) ∧
    (∃ (s : State) (n : SlotId) (v : _), (s.slot n).loc ≤ 8 ∧ gateOn (s.slot n) = true ∧ overSevere s n v = true) ∧
    (∃ (s : State) (n : SlotId) (v : Nat), (s.slot n).loc = 9 ∧ (s.slot n).latch ≠ 0 ∧ (s.slot n).latchAt / 20 = s.clock / 20 ∧
        overSevere s n v = true) ∧
    (∃ (s : State) (n : SlotId) (v : Nat), Safety.Hears s ∧ seenLoc (s.slot n) ≠ 9 ∧ bitsN v 0 4 = 9 ∧ Safety.samePins (s.slot n) v = true ∧
        bitN v 12 = true) :=
  ⟨⟨sl { loc := 4, gateA := true, rampSince := 999950000000 }, 0, by decide⟩,
    ⟨sl { loc := 6, gateB := true, rampSince := 999999500000 }, 0, 500, by decide⟩,
    ⟨sl { loc := 4, gateA := true, rampSince := 999999900000 }, 0, 12000, 5999, 100, by decide⟩,
    ⟨sl { loc := 5, gateA := true }, 0, 2000, by decide⟩,
    ⟨sl { loc := 4, gateB := true }, 0, 100000, by decide⟩,
    ⟨sl { loc := 9, latch := 1, latchAt := 1000000000000 }, 0, 100000, by decide⟩,
    ⟨sl { st := 5, seen := 0xC05 }, 0, 0x1C19, by decide⟩⟩

theorem witness_SlotRampsToPowerGoodAndPerstEnd :
    (∃ (s : State) (n : SlotId) (a : FeedRead) (b : FeedRead) (v : _), mayRamp s n = true ∧ ((v = 1 ∧ feedUsed s n false = true ∧
        feedGood s n a = true) ∨ (v = 2 ∧ (feedUsed s n false && feedGood s n a) = false ∧ feedUsed s n true = true ∧ feedGood s n b = true))) ∧
    (∃ (s : State) (n : SlotId) (a : FeedRead) (b : FeedRead), Safety.Canonical s ∧
        (mayRamp s n = false ∨ ((feedUsed s n false && feedGood s n a) = false ∧ (feedUsed s n true && feedGood s n b) = false))) ∧
    (∃ (s : State) (n : SlotId) (c : SlotCmd) (q : Nat), Safety.PdHears s ∧ repeated s.pd.lastSeq q = false ∧ (c = .powerOn ∨ c = .forcedOn) ∧
        ((s.slot n).loc = 2 ∨ (s.slot n).loc = 9) ∧ (s.slot n).pinA = true ∧ (s.slot n).pinB = true ∧ gateOn (s.slot n) = false) ∧
    (∃ (s : State) (n : SlotId) (f : Nat) (o : Nat) (us : Nat), outputGood f o us = true ∧ (s.slot n).loc = 4 ∧ gateOn (s.slot n) = true ∧
        (s.slot n).warnKind = 0) ∧
    (∃ (f : Nat) (o : Nat) (us : Nat), outputGood f o us = false) ∧
    (∃ (s : State) (n : SlotId) (e : Nat), (s.slot n).loc = 5 ∧ (s.slot n).perstUntil = some e ∧ e ≤ s.clock ∧ (s.slot n).held = false) ∧
    (∃ (s : State) (n : SlotId) (e : Nat), (s.slot n).loc = 5 ∧ (s.slot n).perstUntil = some e ∧ (s.clock < e ∨ (s.slot n).held = true)) ∧
    (∃ (s : State) (n : SlotId) (v : Nat), Safety.Hears s ∧ (s.slot n).st = 4 ∧ seenLoc (s.slot n) ≠ 5 ∧ bitsN v 0 4 = 5 ∧
        Safety.samePins (s.slot n) v = true ∧ bitN v 12 = true) :=
  ⟨⟨sl { st := 2, want := true, seen := 0x3C02, identified := true }, 0, { mv := 8499, ns := 1000000 }, { mv := 8500, ns := 1000000 }, 2, by decide⟩,
    ⟨base, 0, { mv := 8500, ns := 1000000 }, { mv := 8500, ns := 1000000 }, by decide⟩,
    ⟨sl { loc := 2, pinA := true, pinB := true }, 0, .powerOn, 0, by decide⟩,
    ⟨sl { loc := 4, gateA := true }, 0, 12000, 11400, 100, by decide⟩,
    ⟨12000, 11399, 100, by decide⟩,
    ⟨sl { loc := 5, perstUntil := some 1000000000000 }, 0, 1000000000000, by decide⟩,
    ⟨sl { loc := 5, perstUntil := some 1000000000001 }, 0, 1000000000001, by decide⟩,
    ⟨sl { st := 4, seen := 0x3C04 }, 0, 0x3C05, by decide⟩⟩

theorem witness_FeedSwapBreaksBeforeItMakes :
    (∃ (s : State) (n : SlotId) (a : FeedRead) (o : FeedRead), (s.slot n).loc = 5 ∧ gateOn (s.slot n) = true ∧
        ((s.slot n).feed = 1 ∨ (s.slot n).feed = 2) ∧ (s.slot n).warnKind ≠ 2 ∧ pdFeed s n ((s.slot n).feed == 1) = true ∧ feedBad s n a = true ∧
        feedGood s n o = true) ∧
    (∃ (s : State) (n : SlotId) (a : FeedRead) (o : FeedRead), (feedBad s n a = false ∨ feedGood s n o = false ∨ (s.slot n).warnKind = 2)) ∧
    (∃ (s : State) (n : SlotId) (a : FeedRead), (s.slot n).loc = 5 ∧ (s.slot n).feed = 2 ∧ (s.slot n).warnKind = 0 ∧ pdFeed s n false = true ∧
        feedGood s n a = true ∧ 1000000000 ≤ a.ns) ∧
    (∃ (a : FeedRead), a.ns < 1000000000) ∧
    (∃ (s : State) (n : SlotId), (s.slot n).gap = true ∧ (s.slot n).swapTo ≠ 0 ∧ (s.slot n).swapSince + 1000 * pdField s n 4 50 ≤ s.clock) ∧
    (∃ (s : State) (n : SlotId), (s.slot n).gap = true ∧ s.clock < (s.slot n).swapSince + 1000 * pdField s n 4 50) ∧
    (∃ (s : State) (n : SlotId) (f : _) (o : Nat) (us : _), outputGood f o us = true ∧ (s.slot n).loc = 6 ∧ (s.slot n).gap = false ∧
        (s.slot n).swapTo ≠ 0) :=
  ⟨⟨sl { loc := 5, gateA := true, feed := 1 }, 0, { mv := 8499, ns := 50000 }, { mv := 8500, ns := 1000000 }, by decide⟩,
    ⟨base, 0, { mv := 8500, ns := 50000 }, { mv := 8500, ns := 1000000 }, by decide⟩,
    ⟨sl { loc := 5, gateB := true, feed := 2 }, 0, { mv := 8500, ns := 1000000000 }, by decide⟩,
    ⟨{ mv := 8500, ns := 999999999 }, by decide⟩,
    ⟨sl { loc := 6, gap := true, swapTo := 2, swapSince := 999999950000 }, 0, by decide⟩,
    ⟨sl { loc := 6, gap := true, swapTo := 2, swapSince := 999999950001 }, 0, by decide⟩,
    ⟨sl { loc := 6, gateA := true, swapTo := 1 }, 0, 12000, 11400, 100, by decide⟩⟩

theorem witness_SlotWarningsCutsAndFetFailure :
    (∃ (s : State) (n : SlotId), (s.slot n).loc = 5 ∧ (s.slot n).warnKind = 0) ∧
    (∃ (s : State) (n : SlotId) (a : _) (o : _), ((s.slot n).loc = 4 ∨ (s.slot n).loc = 5 ∨ (s.slot n).loc = 6) ∧ (s.slot n).warnKind = 0 ∧
        feedBad s n a = true ∧ (pdFeed s n (!activeB (s.slot n)) = false ∨ feedGood s n o = false)) ∧
    (∃ (s : State) (n : SlotId), (s.slot n).warnKind = 2 ∧ (s.slot n).loc ≤ 8 ∧ (s.slot n).warnSince + 1000 * pdWarnUs s n ≤ s.clock) ∧
    (∃ (s : State) (n : SlotId), (s.slot n).warnKind = 1 ∧ (s.slot n).warnSince + 1000 * pdWarnUs s n ≤ s.clock) ∧
    (∃ (s : State) (n : SlotId), s.clock < (s.slot n).warnSince + 1000 * pdWarnUs s n) ∧
    (∃ (s : State) (n : SlotId) (g : _) (o : _), (s.slot n).gap = true ∧ (s.slot n).loc ≤ 9 ∧ o + 1000 ≤ g ∧ (s.slot n).swapSince + 10000 ≤ s.clock) ∧
    (∃ (g : _) (o : _), g < o + 1000) ∧
    (∃ (s : State) (n : SlotId) (o : _) (ns : _), s.pd.vccGood = true ∧ gateOn (s.slot n) = false ∧ (s.slot n).gap = false ∧ (s.slot n).loc ≤ 9 ∧
        (s.slot n).offSince + 1000000 * pdField s n 8 50 + 2000000 ≤ s.clock ∧ 1000 < o ∧ 2000000 ≤ ns) :=
  ⟨⟨sl { loc := 5 }, 0, by decide⟩,
    ⟨sl { loc := 4, feed := 1, gateA := true }, 0, { mv := 8499, ns := 50000 }, { mv := 8499, ns := 1000000 }, by decide⟩,
    ⟨sl { loc := 5, warnKind := 2, warnSince := 999999000000 }, 0, by decide⟩,
    ⟨sl { loc := 8, warnKind := 1, warnSince := 999999000000 }, 0, by decide⟩,
    ⟨sl { loc := 8, warnKind := 1, warnSince := 999999000001 }, 0, by decide⟩,
    ⟨sl { loc := 6, gap := true, swapSince := 999999990000 }, 0, 13000, 12000, by decide⟩,
    ⟨12999, 12000, by decide⟩,
    ⟨sl { loc := 2, offSince := 999948000000 }, 0, 1001, 2000000, by decide⟩⟩

theorem witness_SeatingRemovalAndIdentification :
    (∃ (s : State) (n : SlotId) (b : Bool), pdRuns s = true ∧ (if b then (s.slot n).pinB else (s.slot n).pinA) = false ∧
        (if b then (s.slot n).pinA else (s.slot n).pinB) = true) ∧
    (∃ (s : State) (n : SlotId) (b : Bool), pdRuns s = true ∧ (if b then (s.slot n).pinA else (s.slot n).pinB) = false) ∧
    (∃ (s : State) (n : SlotId) (ns : Nat), pdRuns s = true ∧ 2000 < ns ∧ (s.slot n).pinA = true ∧ (s.slot n).pinB = true) ∧
    (∃ (ns : Nat), ns ≤ 2000) ∧
    (∃ (s : State) (n : SlotId), pdRuns s = true ∧ (s.slot n).loc = 1 ∧ (s.slot n).pinsSince + 20000000 ≤ s.clock) ∧
    (∃ (s : State) (n : SlotId), pdRuns s = true ∧ (s.slot n).loc = 1 ∧ s.clock < (s.slot n).pinsSince + 20000000) ∧
    (∃ (s : State) (n : SlotId) (v : Nat), Safety.Hears s ∧ seenLoc (s.slot n) = 1 ∧ bitsN v 0 4 = 2 ∧ Safety.samePins (s.slot n) v = true ∧
        bitN v 12 = true) ∧
    (∃ (s : State) (n : SlotId) (e : Nat), (s.slot n).absentSince = some e ∧ Safety.Canonical s ∧ e + 50000000 ≤ s.clock) ∧
    (∃ (s : State) (n : SlotId) (e : Nat), (s.slot n).absentSince = some e ∧ s.clock < e + 50000000) ∧
    (∃ (s : State) (n : SlotId) (r : StoreRead) (c : CartRec), s.hkRunning = true ∧ ((s.slot n).st = 2 ∨ (s.slot n).st = 3 ∨ (s.slot n).st = 9) ∧
        (s.slot n).identified = false ∧ (s.slot n).identFail = false ∧ cartRec s n = some c ∧ r.answered = false) ∧
    (∃ (s : State) (n : SlotId) (r : StoreRead) (c : CartRec), s.hkRunning = true ∧ ((s.slot n).st = 2 ∨ (s.slot n).st = 3 ∨ (s.slot n).st = 9) ∧
        (s.slot n).identified = false ∧ (s.slot n).identFail = false ∧ cartRec s n = some c ∧ r.answered = true ∧ headerOk r.bytes = true ∧
        (c.vendorId = 0xFFFF ∨ c.vendorId = leAt r.bytes 6 2)) :=
  ⟨⟨sl { pinA := true }, 0, true, by decide⟩,
    ⟨base, 0, false, by decide⟩,
    ⟨{ base with slots := [(2, { loc := 5, pinA := true, pinB := true })] }, 2, 2001, by decide⟩,
    ⟨2000, by decide⟩,
    ⟨sl { loc := 1, pinsSince := 999980000000 }, 0, by decide⟩,
    ⟨sl { loc := 1, pinsSince := 999980000001 }, 0, by decide⟩,
    ⟨sl { st := 1, seen := 0x3C01 }, 0, 0x3C02, by decide⟩,
    ⟨sl { st := 5, absentSince := some 999950000000 }, 0, 999950000000, by decide⟩,
    ⟨sl { st := 5, absentSince := some 999950000001 }, 0, 999950000001, by decide⟩,
    ⟨sl { st := 3 }, 0, ({ answered := false, bytes := [] } : StoreRead), ({} : CartRec), by decide⟩,
    ⟨sl { st := 3 }, 0, ({ answered := true, bytes := store } : StoreRead), ({} : CartRec), by decide +kernel⟩⟩

theorem witness_SlotTimersLifeRecordAndHallmark :
    (∃ (s : State) (n : SlotId) (e : _), Safety.Canonical s ∧ (s.slot n).retryUntil = some e ∧ e ≤ s.clock ∧ s.d2d.lost = false ∧ s.mode ≠ .safe) ∧
    (∃ (s : State), (s.mode = .safe ∨ s.d2d.lost = true)) ∧
    (∃ (s : State) (n : SlotId), (s.slot n).st = 5 ∧ (s.slot n).onSince + 10000000000 ≤ s.clock) ∧
    (∃ (s : State) (n : SlotId), (s.slot n).st = 5 ∧ 3600000 ≤ (s.slot n).seconds) ∧
    (∃ (s : State) (n : SlotId), (s.slot n).energyNext ≤ s.clock ∧ seenOn (s.slot n) = true) ∧
    (∃ (s : State) (n : SlotId), (s.slot n).energyNext ≤ s.clock ∧ seenOn (s.slot n) = false) ∧
    (∃ (s : State) (n : SlotId), s.clock < (s.slot n).energyNext) ∧
    (∃ (s : State) (n : SlotId) (p : Nat) (c : CartRec) (a : _), authPort s n = some p ∧ cartRec s n = some c ∧ authPasses s n c a = true) ∧
    (∃ (s : State) (n : SlotId) (p : Nat) (c : CartRec) (a : _), authPort s n = some p ∧ cartRec s n = some c ∧ authPasses s n c a = false) ∧
    (∃ (s : State) (n : SlotId) (p : Nat) (c : CartRec) (r : Fin 16), authPort s n = some p ∧ cartRec s n = some c ∧ 5 ≤ r.val ∧ r.val ≤ 0xA ∧
        (r.val = 0xA → authLate s n c = true) ∧ c.authFailCut = false) ∧
    (∃ (s : State) (n : SlotId) (p : Nat) (c : CartRec) (r : Fin 16), authPort s n = some p ∧ cartRec s n = some c ∧ 5 ≤ r.val ∧ r.val ≤ 0xA ∧
        (r.val = 0xA → authLate s n c = true) ∧ c.authFailCut = true ∧ seenOn (s.slot n) = true ∧ s.d2d.lost = false) ∧
    (∃ (s : State) (n : SlotId) (p : Nat) (c : CartRec) (r : Fin 16), authPort s n = some p ∧ cartRec s n = some c ∧ (r.val < 5 ∨ 0xA < r.val)) :=
  ⟨⟨sl { st := 9, retryUntil := some 1000000000000 }, 0, 1000000000000, by decide⟩,
    ⟨{ base with mode := .safe }, by decide⟩,
    ⟨sl { st := 5, onSince := 990000000000 }, 0, by decide⟩,
    ⟨sl { st := 5, seconds := 3600000 }, 0, by decide⟩,
    ⟨sl { st := 5, seen := 0x3C05, energyNext := 1000000000000 }, 0, by decide⟩,
    ⟨base, 0, by decide⟩,
    ⟨sl { energyNext := 1000000000001 }, 0, by decide⟩,
    ⟨authing, 0, 8, auth1, shown true, by decide +kernel⟩,
    ⟨authing, 0, 8, auth1, shown false, by decide +kernel⟩,
    ⟨pt { link := lk, quarantine := true }, 0, 8, {}, 5, by decide⟩,
    ⟨{ base with ports := [(0, { link := lk }), (8, { link := lk }), (16, { link := lk, quarantine := true })], slots := [(1, { seen := 0x3C05 })] },
      1, 16, { authFailCut := true }, 0xA, by decide⟩,
    ⟨pt { link := lk, quarantine := true }, 0, 8, {}, 4, by decide⟩⟩

theorem witness_DieToDieFramesApplyOnceAndAreAcknowledged :
    (∃ (s : State) (f : D2dFrame), Safety.PdHears s ∧ f.crcOk = true ∧ f.slot < 24 ∧ f.cls = .cfg ∧ f.field < 64 ∧
        repeated s.pd.lastSeq f.seq = false) ∧
    (∃ (s : State) (f : D2dFrame), Safety.PdHears s ∧ f.crcOk = true ∧ f.slot < 24 ∧ f.cls = .cmd ∧ repeated s.pd.lastSeq f.seq = false) ∧
    (∃ (s : State) (f : D2dFrame), Safety.PdHears s ∧ f.crcOk = true ∧ f.slot < 24 ∧ ((f.cls = .cfg ∧ f.field < 64) ∨ f.cls = .cmd) ∧
        repeated s.pd.lastSeq f.seq = true) ∧
    (∃ (s : State) (f : D2dFrame), Safety.PdHears s ∧ f.crcOk = true ∧ f.slot < 24 ∧ f.cls = .quench ∧ Safety.Canonical s ∧
        repeated s.pd.lastQuench f.seq = false) ∧
    (∃ (s : State) (f : D2dFrame), s.d2d.broken = false ∧ f.crcOk = false) ∧
    (∃ (s : State) (f : D2dFrame), s.d2d.broken = false ∧ f.crcOk = false ∧ s.d2d.lost = false ∧ s.mode ≠ .reset) ∧
    (∃ (s : State) (f : D2dFrame) (u : Unacked) (r : List Unacked), Safety.Hears s ∧ f.crcOk = true ∧ f.cls = .ack ∧ s.d2d.unacked = u :: r ∧
        u.frame.seq = f.seq) ∧
    (∃ (s : State) (f : D2dFrame) (u : Unacked), Safety.Hears s ∧ f.crcOk = true ∧ f.cls = .ack ∧ s.d2d.quench = some u ∧ u.frame.seq = f.seq) ∧
    (∃ (s : State) (f : D2dFrame), Safety.Hears s ∧ f.crcOk = true ∧ f.cls = .sample ∧ f.slot < 24 ∧ Safety.Canonical s) ∧
    (∃ (s : State) (f : D2dFrame), Safety.Hears s ∧ f.crcOk = true ∧ f.cls = .alarm ∧ f.slot < 24 ∧ (tget [] s.cupel.queues 14).length < 12) ∧
    (∃ (s : State) (u : Unacked) (r : List Unacked), s.d2d.unacked = u :: r ∧ u.since + 1000 ≤ s.clock) ∧
    (∃ (s : State) (u : Unacked), s.d2d.quench = some u ∧ u.since + 1000 ≤ s.clock) ∧
    (∃ (s : State), (∀ u ∈ s.d2d.unacked, s.clock < u.since + 1000) ∧ (∀ u, s.d2d.quench = some u → s.clock < u.since + 1000)) ∧
    (∃ (s : State), s.d2d.lost = false ∧ s.mode ≠ .reset ∧ s.d2d.lastGood + 800 ≤ s.clock) ∧
    (∃ (s : State), s.d2d.lost = false ∧ s.mode ≠ .reset ∧ s.clock < s.d2d.lastGood + 800) ∧
    (∃ (s : State), s.pd.lost = false ∧ pdRuns s = true ∧ s.pd.resetting = false ∧ Safety.Canonical s ∧ s.pd.lastGood + 800 ≤ s.clock) ∧
    (∃ (s : State), s.pd.lost = false ∧ pdRuns s = true ∧ s.pd.resetting = false ∧ s.clock < s.pd.lastGood + 800) :=
  ⟨⟨base, { cls := .cfg, slot := 23, field := 63 }, by decide⟩,
    ⟨base, { cls := .cmd, slot := 23 }, by decide⟩,
    ⟨{ base with pd := { inReset := false, lastSeq := some 4 } }, { cls := .cmd, seq := 4 }, by decide⟩,
    ⟨base, { cls := .quench }, by decide⟩,
    ⟨base, { cls := .ack, crcOk := false }, by decide⟩,
    ⟨base, { cls := .ack, crcOk := false }, by decide⟩,
    ⟨{ base with d2d := { unacked := [ua] } }, { cls := .ack, seq := 4 }, ua, [], by decide⟩,
    ⟨{ base with d2d := { quench := some ua } }, { cls := .ack, seq := 4 }, ua, by decide⟩,
    ⟨base, { cls := .sample, slot := 23, field := 3, value := 4095 }, by decide⟩,
    ⟨{ base with cupel := { queues := [(14, List.replicate 11 m0)] } }, { cls := .alarm, slot := 23, kind := 0x94 }, by decide⟩,
    ⟨{ base with d2d := { unacked := [ua] } }, ua, [], by decide⟩,
    ⟨{ base with d2d := { quench := some ua } }, ua, by decide⟩,
    ⟨{ base with d2d := { unacked := [{ ua with since := 999999999001 }] } }, ⟨by decide, fun _ => nofun⟩⟩,
    ⟨{ base with d2d := { lastGood := 999999999200 } }, by decide⟩,
    ⟨{ base with d2d := { lastGood := 999999999201 } }, by decide⟩,
    ⟨{ base with pd := { inReset := false, lastGood := 999999999200 } }, by decide⟩,
    ⟨{ base with pd := { inReset := false, lastGood := 999999999201 } }, by decide⟩⟩

theorem witness_AssayRecordsEveryBlock :
    (∃ (s : State) (i : StationId) (o : AssayOutcome), s.mode = .assay ∧ s.assay.testing.contains i.val = true ∧ s.assay.pairFrom ≤ s.clock ∧
        o.pass = true) ∧
    (∃ (s : State) (i : StationId) (o : AssayOutcome), s.mode = .assay ∧ s.assay.testing.contains i.val = true ∧ s.assay.pairFrom ≤ s.clock ∧
        o.pass = false ∧ Safety.Canonical s) ∧
    (∃ (s : State) (i : StationId), s.mode = .assay ∧ s.assay.testing.contains i.val = true ∧ s.clock < s.assay.pairFrom) ∧
    (∃ (s : State) (o : AssayOutcome) (b : AssayBlock), s.mode = .assay ∧ underTest s b = true ∧ o.pass = false ∧
        (b = .crossbar ∨ b = .housekeeping ∨ b = .timeBase)) ∧
    (∃ (s : State) (o : AssayOutcome), s.mode = .assay ∧ underTest s .housekeeping = true ∧ o.pass = true) ∧
    (∃ (s : State) (o : AssayOutcome) (k : Fin 16), s.mode = .assay ∧ underTest s (.bank k) = true ∧ o.pass = false ∧ banksFailed s = 0) ∧
    (∃ (s : State) (d : BitVec 16), Safety.Canonical s ∧ s.mode = .assay ∧ underTest s (.converter d) = true ∧ -200 ≤ d.toInt ∧ d.toInt ≤ 200) ∧
    (∃ (s : State) (d : BitVec 16), Safety.Canonical s ∧ s.mode = .assay ∧ underTest s (.converter d) = true ∧ (d.toInt < -200 ∨ 200 < d.toInt)) :=
  ⟨⟨{ base with mode := .assay, assay := { testing := [2], pairFrom := 1000000000000 } }, 2, { pass := true }, by decide⟩,
    ⟨{ base with mode := .assay, assay := { testing := [9], pairFrom := 1000000000000 } }, 9, { pass := false }, by decide⟩,
    ⟨{ base with mode := .assay, assay := { testing := [9], pairFrom := 1000000000001 } }, 9, by decide⟩,
    ⟨{ base with mode := .assay }, { pass := false }, .housekeeping, by decide⟩,
    ⟨{ base with mode := .assay }, { pass := true }, by decide⟩,
    ⟨passed [0x130], { pass := false }, 15, by decide⟩,
    ⟨passed [0x130], 200, by decide⟩,
    ⟨passed [0x130], 0xFF37, by decide⟩⟩

theorem witness_AssaySequenceLeadsToRunOrDegraded :
    (∃ (s : State), s.mode = .assay ∧ s.assay.testing = [] ∧ secondStepDone s = true) ∧
    (∃ (s : State), s.mode = .assay ∧ underTest s .crossbar = true ∧ tested s 11 = true ∧ tested s 13 = true ∧ s.assay.initFrom = none) ∧
    (∃ (s : State) (f : Nat), s.mode = .assay ∧ s.assay.initFrom = some f ∧ s.assay.initDone = false ∧ f + 10000000 ≤ s.clock) ∧
    (∃ (s : State) (f : Nat), s.mode = .assay ∧ s.assay.initFrom = some f ∧ s.assay.initDone = false ∧ s.clock < f + 10000000) ∧
    (∃ (s : State), s.mode = .assay ∧ assayOver s = true ∧ essentialOk s = true) :=
  ⟨⟨{ allTested with mode := .assay }, by decide⟩,
    ⟨passed [0x12C, 0x130, 0x134], by decide⟩,
    ⟨{ base with mode := .assay, assay := { initFrom := some 999990000000 } }, 999990000000, by decide⟩,
    ⟨{ base with mode := .assay, assay := { initFrom := some 999990000001 } }, 999990000001, by decide⟩,
    ⟨{ allTested with mode := .assay, assay := { initDone := true } }, by decide⟩⟩

theorem witness_RuntimeAssayFencesAndRetestsAStation :
    (∃ (s : State) (path : Path) (st : Byte) (o : AssayOutcome), mayIssue s path = true ∧ s.inRunModes = true ∧ s.hkRunning = true ∧ st.toNat ≤ 9 ∧
        (tfind s.cfg.stations st.toNat).isSome = true ∧ stationInUse s st.toNat = false ∧ s.assay.runtime = none ∧ o.pass = true) ∧
    (∃ (s : State) (path : Path) (st : Byte), mayIssue s path = true ∧ s.inRunModes = true ∧ s.hkRunning = true ∧ st.toNat ≤ 9 ∧
        (tfind s.cfg.stations st.toNat).isSome = true ∧ stationInUse s st.toNat = false ∧ s.assay.runtime = none) ∧
    (∃ (s : State) (i : Nat) (x : Active), Safety.Canonical s ∧ s.assay.runtime = some i ∧ i < 10 ∧ s.mbx.active = some x ∧
        s.assay.runSince + 20000000 ≤ s.clock) :=
  ⟨⟨base, .mf, 5, { pass := true }, by decide⟩,
    ⟨base, .mf, 5, by decide⟩,
    ⟨{ base with assay := { runtime := some 9, runSince := 999980000000 }, mbx := { active := some { path := .mf, seq := 1, code := 6 } } }, 9,
      { path := .mf, seq := 1, code := 6 }, by decide⟩⟩

theorem witness_BurnsOnlyTightenTheKeyStore :
    (∃ (s : State), s.sec.burnsDue = true ∧ s.hkRunning = true ∧ s.keys.lifecycle ≠ 3) ∧
    (∃ (s : State), s.sec.burnsDue = true ∧ s.hkRunning = true ∧ s.keys.lifecycle = 3) :=
  ⟨⟨{ base with sec := { burnsDue := true } }, by decide⟩,
    ⟨{ base with sec := { burnsDue := true }, keys := { lifecycle := 3 } }, by decide⟩⟩

theorem witness_AvsRequestsStayWithinTheirLimits :
    (∃ (s : State), s.mode ≠ .reset ∧ s.assay.avsNext ≤ s.clock) ∧
    (∃ (s : State), s.clock < s.assay.avsNext) ∧
    (∃ (s : State), s.assay.avsWait = true) ∧
    (∃ (s : State), s.assay.avsWait = true ∧ s.assay.avsSent + 10000 ≤ s.clock ∧ s.assay.avsTries < 3) ∧
    (∃ (s : State), s.assay.avsWait = true ∧ s.assay.avsSent + 10000 ≤ s.clock ∧ s.assay.avsTries = 3 ∧ s.assay.avsFail = false) ∧
    (∃ (s : State), s.clock < s.assay.avsSent + 10000) :=
  ⟨⟨{ base with assay := { avsNext := 1000000000000 } }, by decide⟩,
    ⟨{ base with assay := { avsNext := 1000000000001 } }, by decide⟩,
    ⟨{ base with assay := { avsWait := true } }, by decide⟩,
    ⟨{ base with assay := { avsWait := true, avsTries := 2, avsSent := 999999990000 } }, by decide⟩,
    ⟨{ base with assay := { avsWait := true, avsTries := 3, avsSent := 999999990000 } }, by decide⟩,
    ⟨{ base with assay := { avsSent := 999999990001 } }, by decide⟩⟩

theorem witness_CupelFilesEachMessageUnderItsClass :
    (∃ (s : State) (m : Msg) (m' : Msg) (r : List Msg), s.cupel.turn < 15 ∧ tget [] s.cupel.queues s.cupel.turn = m :: r ∧
        m' = normalise { m with parityOk := m.parityOk && Config.msgParityOk s.cupel.turn s.clock } ∧ 0 < (kindInForce (reactEntries s) m'.kind).1 ∧
        m.parityOk = false) ∧
    (∃ (s : State) (m : Msg) (m' : Msg) (r : List Msg), s.cupel.turn < 15 ∧ tget [] s.cupel.queues s.cupel.turn = m :: r ∧
        m' = normalise { m with parityOk := m.parityOk && Config.msgParityOk s.cupel.turn s.clock } ∧ 0 < (kindInForce (reactEntries s) m'.kind).1 ∧
        (kindOf m.kind).isSome = true) ∧
    (∃ (s : State) (m : Msg) (m' : Msg) (r : List Msg), s.cupel.turn < 15 ∧ tget [] s.cupel.queues s.cupel.turn = m :: r ∧
        m' = normalise { m with parityOk := m.parityOk && Config.msgParityOk s.cupel.turn s.clock } ∧ 0 < (kindInForce (reactEntries s) m'.kind).1 ∧
        findClass s (classOf m') = none ∧ s.cupel.table.length < 992) ∧
    (∃ (s : State) (m : Msg) (m' : Msg) (r : List Msg) (i : _) (e : _), s.cupel.turn < 15 ∧ tget [] s.cupel.queues s.cupel.turn = m :: r ∧
        m' = normalise { m with parityOk := m.parityOk && Config.msgParityOk s.cupel.turn s.clock } ∧ 0 < (kindInForce (reactEntries s) m'.kind).1 ∧
        findClass s (classOf m') = some (i, e)) :=
  ⟨⟨qBad, mBad, normalise mBad, [], by decide⟩,
    ⟨qBad, mBad, normalise mBad, [], by decide⟩,
    ⟨qBad, mBad, normalise mBad, [], by decide⟩,
    ⟨{ qBad with cupel := { qBad.cupel with table := [(5, ent 3 0)] } }, mBad, normalise mBad, [], 5, ent 3 0, by decide⟩⟩

theorem witness_RailFaultQuenchesTheDevice :
    (∃ (s : State) (r : RailId), s.inRunModes = true ∧ tget .healthy s.cupel.rails r = .healthy ∧ (kindInForce (reactEntries s) 0x01).1 = 4 ∧
        (kindInForce (reactEntries s) 0x01).2.1 ≤ 4 ∧ (∀ e ∈ s.cupel.table, e.2.cls.kind = 0x01 → e.2.level = 4) ∧ (∀ x,
        s.cupel.quenchAt ≠ some (s.clock, x))) ∧
    (∃ (s : State) (r : RailId), s.inRunModes = true ∧ tget .healthy s.cupel.rails r = .healthy ∧ (kindInForce (reactEntries s) 0x02).1 = 3 ∧
        (∀ e ∈ s.cupel.table, e.2.cls.kind ≠ 0x02) ∧ s.cupel.table.length < 992) :=
  ⟨⟨base, 13, ⟨by decide, by decide, by decide, by decide, by decide, fun _ => nofun⟩⟩,
    ⟨base, 13, by decide⟩⟩

theorem witness_EndedConditionsOverrunsAndLimits :
    (∃ (s : State) (i : Fin 1024) (e : FltEntry), tfind s.cupel.table i = some e ∧ e.active = true ∧ e.cls.kind = 0x95) ∧
    (∃ (s : State) (i : Fin 1024) (e : FltEntry), tfind s.cupel.table i = some e ∧ e.active = true ∧ (e.cls.kind = 0x01 ∨ e.cls.kind = 0x02) ∧
        tget 0 s.cupel.injectUntil e.cls.source ≤ s.clock) ∧
    (∃ (s : State) (i : Fin 1024) (e : FltEntry), tfind s.cupel.table i = some e ∧ e.active = true ∧ (e.cls.kind = 0x01 ∨ e.cls.kind = 0x02) ∧
        s.clock < tget 0 s.cupel.injectUntil e.cls.source) ∧
    (∃ (s : State) (i : Fin 1024) (e : FltEntry) (d : Int), tfind s.cupel.table i = some e ∧ e.active = true ∧ ((e.cls.kind = 0x0C ∧
        d = 120) ∨ (e.cls.kind = 0x0D ∧ d = 130)) ∧ cooled s d = true) ∧
    (∃ (s : State) (i : Fin 1024) (e : FltEntry) (d : Int), tfind s.cupel.table i = some e ∧ e.active = true ∧ ((e.cls.kind = 0x0C ∧
        d = 120) ∨ (e.cls.kind = 0x0D ∧ d = 130)) ∧ cooled s d = false) ∧
    (∃ (s : State) (i : Fin 1024) (e : FltEntry), tfind s.cupel.table i = some e ∧ e.active = false) ∧
    (∃ (s : State) (r : RailId), s.cupel.ovf.getLsbD r = true ∧ tget 0 s.cupel.ovfMs r ≠ s.now / 1000000 + 1 ∧
        0 < (kindInForce (reactEntries s) 0x04).1 ∧ (∀ e ∈ s.cupel.table, e.2.cls.kind ≠ 0x04) ∧ s.cupel.table.length < 992) ∧
    (∃ (s : State) (r : RailId), (s.cupel.ovf.getLsbD r = false ∨ tget 0 s.cupel.ovfMs r = s.now / 1000000 + 1)) ∧
    (∃ (s : State), s.cupel.stormMs ≠ s.now / 1000000) :=
  ⟨⟨{ base with cupel := { table := [(1023, { ent 3 0x95 with active := true })] } }, 1023, { ent 3 0x95 with active := true }, by decide⟩,
    ⟨{ base with cupel := { table := [(0, { ent 3 1 with active := true })] } }, 0, { ent 3 1 with active := true }, by decide⟩,
    ⟨{ base with cupel := { table := [(0, { ent 3 1 with active := true })], injectUntil := [(3, 1000000000001)] } }, 0,
      { ent 3 1 with active := true }, by decide⟩,
    ⟨{ base with cupel := { table := [(0, { ent 3 0x0C with active := true })], temps := [460] } }, 0, { ent 3 0x0C with active := true }, 120,
      by decide⟩,
    ⟨{ base with cupel := { table := [(0, { ent 3 0x0D with active := true })], temps := [501] } }, 0, { ent 3 0x0D with active := true }, 130,
      by decide⟩,
    ⟨{ base with cupel := { table := [(0, ent 3 1)] } }, 0, ent 3 1, by decide⟩,
    ⟨{ base with cupel := { ovf := 0x2000 } }, 13, by decide⟩,
    ⟨base, 13, by decide⟩,
    ⟨{ base with cupel := { stormMs := 1 } }, by decide⟩⟩

theorem witness_AliveTemperatureAndWatchdog :
    (∃ (s : State) (b : Bool), s.cupel.aliveNext ≤ s.clock ∧ s.inRunModes = true ∧ s4Holds s = false ∧ s.cupel.unserved = 0 ∧ s.cupel.signalled = 0 ∧
        (∀ r : RailId, tget .healthy s.cupel.rails r = .healthy) ∧ b = true) ∧
    (∃ (s : State) (b : Bool), s.cupel.aliveNext ≤ s.clock ∧ s.inRunModes = true ∧ b = false) ∧
    (∃ (s : State), s.cupel.aliveNext ≤ s.clock ∧ s.inRunModes = true ∧ s4Holds s = true) ∧
    (∃ (s : State), s.cupel.aliveNext ≤ s.clock ∧ (s.mode = .safe ∨ s.mode = .maintenance ∨ s.mode = .factory)) ∧
    (∃ (s : State), s.clock < s.cupel.aliveNext) ∧
    (∃ (s : State), s.mode ≠ .reset ∧ s.cupel.tempNext ≤ s.clock) ∧
    (∃ (s : State) (l : List Int), s.mode ≠ .reset ∧ s.cupel.tempNext ≤ s.clock ∧ (∀ x ∈ l, x < 480) ∧ tsorted 0 s.cupel.hot = true) ∧
    (∃ (s : State), s.clock < s.cupel.tempNext) ∧
    (∃ (s : State), s.hkRunning = true ∧ s.assay.wdogFrom + 100000000 ≤ s.clock) ∧
    (∃ (s : State), (s.hkRunning = false ∨ s.clock < s.assay.wdogFrom + 100000000)) :=
  ⟨⟨base, true, by decide⟩,
    ⟨base, false, by decide⟩,
    ⟨{ base with cupel := { table := [(0, { ent 3 1 with level := 4 })] } }, by decide⟩,
    ⟨{ base with mode := .safe }, by decide⟩,
    ⟨{ base with cupel := { aliveNext := 1000000000001 } }, by decide⟩,
    ⟨{ base with cupel := { tempNext := 1000000000000 } }, by decide⟩,
    ⟨base, List.replicate 32 479, by decide⟩,
    ⟨{ base with cupel := { tempNext := 1000000000001 } }, by decide⟩,
    ⟨{ base with assay := { wdogFrom := 999900000000 } }, by decide⟩,
    ⟨{ base with assay := { wdogFrom := 999900000001 } }, by decide⟩⟩

theorem witness_MailboxHasOneHolderAndAnswersGetState :
    (∃ (s : State) (p : Path), pathOpen s p = true ∧ s.mbx.owner = none) ∧
    (∃ (s : State) (p : Path) (q : Path), pathOpen s p = true ∧ s.mbx.owner = some q) ∧
    (∃ (s : State) (p : Path), pathOpen s p = true ∧ s.mbx.owner = some p ∧ s.mbx.busy = false) ∧
    (∃ (s : State) (p : Path), (s.mbx.owner ≠ some p ∨ s.mbx.busy = true)) ∧
    (∃ (s : State), s.mbx.owner.isSome = true ∧ s.mbx.busy = false ∧ s.mbx.lastUse + 1000000 * s.device.mbxReleaseMs ≤ s.clock) ∧
    (∃ (s : State), s.mbx.busy = true) ∧
    (∃ (s : State) (p : Path), mayIssue s p = true ∧ tsorted 0 s.mbx.data = true) :=
  ⟨⟨{ base with mbx := {} }, .mf, by decide⟩,
    ⟨base, .i3c, .mf, by decide⟩,
    ⟨base, .mf, by decide⟩,
    ⟨base, .i3c, by decide⟩,
    ⟨{ base with mbx := { owner := some .mf, lastUse := 999000000000 } }, by decide⟩,
    ⟨{ base with mbx := { busy := true } }, by decide⟩,
    ⟨base, .mf, by decide⟩⟩

theorem witness_AckFaultMarksExactlyTheNamedEntries :
    (∃ (s : State) (p : Path) (i : W16) (e : FltEntry), mayIssue s p = true ∧ s.hkRunning = true ∧ s.mode ≠ .load ∧ s.mode ≠ .assay ∧
        tfind s.cupel.table i.toNat = some e) ∧
    (∃ (s : State) (p : Path) (l : Byte), mayIssue s p = true ∧ s.hkRunning = true ∧ s.mode ≠ .load ∧ s.mode ≠ .assay ∧ 1 ≤ l.toNat ∧ l.toNat ≤ 4) ∧
    (∃ (s : State) (p : Path), mayIssue s p = true ∧ s.hkRunning = true ∧ s.mode ≠ .load ∧ s.mode ≠ .assay) :=
  ⟨⟨{ base with cupel := { table := [(1023, ent 3 1)] } }, .mf, 1023, ent 3 1, by decide⟩,
    ⟨base, .mf, 4, by decide⟩,
    ⟨base, .mf, by decide⟩⟩

theorem witness_AmendCommitsWholeOrNotAtAll :
    (∃ (s : State) (p : Path) (b : List Byte) (l : Layout), mayIssue s p = true ∧ s.inRunModes = true ∧ 8 ≤ b.length ∧ b.length ≤ 1016 ∧
        framedSize b = b.length ∧ layoutOf (recOf b).type = some l ∧ deniedAt s (recOf b) l = none ∧ amendErr s (recOf b) l = none ∧
        amendBusy s (recOf b) l = false) ∧
    (∃ (s : State) (p : Path) (b : List Byte) (l : Layout), mayIssue s p = true ∧ s.inRunModes = true ∧ 8 ≤ b.length ∧ b.length ≤ 1016 ∧
        framedSize b = b.length ∧ layoutOf (recOf b).type = some l ∧ deniedAt s (recOf b) l = none ∧ amendErr s (recOf b) l = none ∧
        amendBusy s (recOf b) l = true) ∧
    (∃ (s : State) (p : Path) (b : List Byte) (l : Layout) (c : _) (o : _), mayIssue s p = true ∧ s.inRunModes = true ∧ 8 ≤ b.length ∧
        b.length ≤ 1016 ∧ framedSize b = b.length ∧ layoutOf (recOf b).type = some l ∧ deniedAt s (recOf b) l = none ∧
        amendErr s (recOf b) l = some (c, o)) ∧
    (∃ (s : State) (p : Path) (b : List Byte) (l : Layout) (o : _), mayIssue s p = true ∧ s.inRunModes = true ∧ 8 ≤ b.length ∧ b.length ≤ 1016 ∧
        framedSize b = b.length ∧ layoutOf (recOf b).type = some l ∧ deniedAt s (recOf b) l = some o) ∧
    (∃ (s : State) (p : Path) (b : List Byte), mayIssue s p = true ∧ s.inRunModes = true ∧ s.hkRunning = true ∧ 8 ≤ b.length ∧ b.length ≤ 1016 ∧
        framedSize b ≤ 8192 ∧ b.length ≤ framedSize b) ∧
    (∃ (s : State) (p : Path) (b : List Byte) (off : W32) (g : Staging), mayIssue s p = true ∧ s.inRunModes = true ∧ s.hkRunning = true ∧
        b.length ≤ 1016 ∧ off ≠ 0 ∧ s.mbx.staging = some g ∧ off.toNat ≠ g.bytes.length) :=
  ⟨⟨{ base with records := [timeRaw] }, .mf, [0x0E, 1, 0, 0, 8, 0, 0, 0] ++ timeRaw.basic, layTime, by decide⟩,
    ⟨{ base with hkRunning := false, records := [timeRaw] }, .mf, timeHdr ++ timeRaw.basic, layTime, by decide⟩,
    ⟨{ base with records := [timeBad] }, .mf, timeHdr ++ timeBad.basic, layTime, 0x0C, 8, by decide⟩,
    ⟨{ base with records := [timeRaw] }, .mf, [0x0E, 1, 0, 0, 8, 0, 0, 0, 0, 1, 100, 0, 0, 0, 0, 0], layTime, 8, by decide⟩,
    ⟨base, .mf, part, by decide⟩,
    ⟨{ base with mbx := { owner := some .mf, staging := some { bytes := part, total := 20, validateOnly := false } } }, .mf, part, 9,
      { bytes := part, total := 20, validateOnly := false }, by decide⟩⟩

theorem witness_SlotPowerCommandsActOnTheirSlotOnly :
    (∃ (s : State) (p : Path) (n : Byte), mayIssue s p = true ∧ s.hkRunning = true ∧
        (s.inRunModes = true ∨ s.mode = .maintenance ∨ s.mode = .factory) ∧ n.toNat ≤ 23 ∧ (tfind s.cfg.slots n.toNat).isSome = true) ∧
    (∃ (s : State) (p : Path) (n : Byte), mayIssue s p = true ∧ s.hkRunning = true ∧
        (s.inRunModes = true ∨ s.mode = .maintenance ∨ s.mode = .factory) ∧ n.toNat ≤ 23 ∧ (tfind s.cfg.slots n.toNat).isSome = true ∧
        granted s .slotPower n.toNat = true ∧ (s.slot n.toNat).st ≠ 7 ∧ (s.slot n.toNat).st ≠ 8) ∧
    (∃ (s : State) (p : Path) (n : Byte), mayIssue s p = true ∧ s.hkRunning = true ∧
        (s.inRunModes = true ∨ s.mode = .maintenance ∨ s.mode = .factory) ∧ n.toNat ≤ 23 ∧ (tfind s.cfg.slots n.toNat).isSome = true ∧
        granted s .slotPower n.toNat = true ∧ (s.slot n.toNat).st ≠ 7 ∧ (s.slot n.toNat).st ≠ 8 ∧ forceBlock s n.toNat = 0) ∧
    (∃ (s : State) (p : Path) (n : Byte), mayIssue s p = true ∧ s.hkRunning = true ∧
        (s.inRunModes = true ∨ s.mode = .maintenance ∨ s.mode = .factory) ∧ n.toNat ≤ 23 ∧ (tfind s.cfg.slots n.toNat).isSome = true ∧
        granted s .slotPower n.toNat = true ∧ (s.slot n.toNat).st ≠ 7 ∧ (s.slot n.toNat).st ≠ 8 ∧ forceBlock s n.toNat ≠ 0) ∧
    (∃ (s : State) (p : Path) (n : Byte), mayIssue s p = true ∧ s.hkRunning = true ∧
        (s.inRunModes = true ∨ s.mode = .maintenance ∨ s.mode = .factory) ∧ n.toNat ≤ 23 ∧ (tfind s.cfg.slots n.toNat).isSome = true ∧
        granted s .slotPower n.toNat = true ∧ (s.slot n.toNat).st ≠ 7 ∧ (s.slot n.toNat).st ≠ 8 ∧ seenOn (s.slot n.toNat) = true ∧ s.d2d.lost = false) ∧
    (∃ (s : State) (p : Path) (n : Byte), mayIssue s p = true ∧ s.hkRunning = true ∧
        (s.inRunModes = true ∨ s.mode = .maintenance ∨ s.mode = .factory) ∧ n.toNat ≤ 23 ∧ (tfind s.cfg.slots n.toNat).isSome = true ∧
        granted s .slotPower n.toNat = true ∧ (s.slot n.toNat).st ≠ 7 ∧ (s.slot n.toNat).st ≠ 8 ∧ Safety.Canonical s ∧
        (seenOn (s.slot n.toNat) = false ∨ s.d2d.lost = true)) ∧
    (∃ (s : State) (p : Path) (n : Byte) (q : _), mayIssue s p = true ∧ s.hkRunning = true ∧
        (s.inRunModes = true ∨ s.mode = .maintenance ∨ s.mode = .factory) ∧ n.toNat ≤ 23 ∧ (tfind s.cfg.slots n.toNat).isSome = true ∧
        granted s .slotPower n.toNat = true ∧ (s.slot n.toNat).st ≠ 7 ∧ (s.slot n.toNat).st ≠ 8 ∧ (s.slot n.toNat).st = 5 ∧
        portOfSlot s n.toNat = some q ∧ (s.port q).link.dlUp = true ∧ (s.port q).contain.phase = 0) ∧
    (∃ (s : State) (p : Path) (n : Byte), mayIssue s p = true ∧ s.hkRunning = true ∧
        (s.inRunModes = true ∨ s.mode = .maintenance ∨ s.mode = .factory) ∧ n.toNat ≤ 23 ∧ (tfind s.cfg.slots n.toNat).isSome = true ∧
        granted s .slotPower n.toNat = true ∧ (s.slot n.toNat).st ≠ 7 ∧ (s.slot n.toNat).st ≠ 8 ∧ Safety.Canonical s) ∧
    (∃ (s : State) (p : Path) (seq : Byte) (n : Byte) (c : _), let orders : List Instr := [.slotPowerOn p seq n, .slotPowerForceOn p seq n,
        .slotPowerOff p seq n, .slotPowerOffDrain p seq n,
      .slotPowerClearLatch p seq n]; mayIssue s p = true ∧ s.hkRunning = true ∧
        (s.inRunModes = true ∨ s.mode = .maintenance ∨ s.mode = .factory) ∧ n.toNat ≤ 23 ∧ (tfind s.cfg.slots n.toNat).isSome = true ∧
        granted s .slotPower n.toNat = true ∧ ((s.slot n.toNat).st = 7 ∨ (s.slot n.toNat).st = 8) ∧ c ∈ orders) ∧
    (∃ (s : State) (p : Path) (seq : Byte) (n : Byte) (c : _), let orders : List Instr := [.slotPowerOn p seq n, .slotPowerForceOn p seq n,
        .slotPowerOff p seq n, .slotPowerOffDrain p seq n,
      .slotPowerClearLatch p seq n]; mayIssue s p = true ∧ s.hkRunning = true ∧
        (s.inRunModes = true ∨ s.mode = .maintenance ∨ s.mode = .factory) ∧ n.toNat ≤ 23 ∧ (tfind s.cfg.slots n.toNat).isSome = true ∧
        granted s .slotPower n.toNat = false ∧ c ∈ orders) :=
  ⟨⟨base, .mf, 1, by decide⟩,
    ⟨sl { st := 5, seen := 0x3C05 }, .mf, 0, by decide⟩,
    ⟨sl { st := 2 }, .mf, 0, by decide⟩,
    ⟨sl { expired := true }, .mf, 0, by decide⟩,
    ⟨sl { st := 5, seen := 0x3C05 }, .mf, 0, by decide⟩,
    ⟨base, .mf, 1, by decide⟩,
    ⟨sl { st := 5 }, .mf, 0, 8, by decide⟩,
    ⟨base, .mf, 1, by decide⟩,
    ⟨sl { st := 8 }, .mf, 1, 0, .slotPowerOff .mf 1 0, by decide⟩,
    ⟨{ base with cfg := { cfg1 with amend := none } }, .mf, 1, 1, .slotPowerClearLatch .mf 1 1, by decide⟩⟩

theorem witness_TimedCommandsAreScheduledAndAct :
    (∃ (s : State) (p : Path) (sec : W64), mayIssue s p = true ∧ s.hkRunning = true ∧ s.inRunModes = true ∧ sec.toNat ≤ 18446744072 ∧
        isFollower s = false) ∧
    (∃ (s : State) (p : Path) (sec : W64), mayIssue s p = true ∧ s.hkRunning = true ∧ s.inRunModes = true ∧ sec.toNat ≤ 18446744072 ∧
        setTimeConflict s true = false) ∧
    (∃ (s : State) (a : Active) (x : W64), activeCmd s 0x07 = some a ∧ s.time.setAt = some x ∧ a.since + 1500000000 ≤ s.clock) ∧
    (∃ (s : State) (p : Path) (at_ : W64), mayIssue s p = true ∧ s.hkRunning = true ∧ s.inRunModes = true ∧
        leadBad s at_.toNat (propTime s) = false ∧ s.fab.snap = none) ∧
    (∃ (s : State) (x : Snap), Safety.Canonical s ∧ s.fab.snap = some x ∧ x.at_ ≤ s.now ∧ s.inRunModes = true) ∧
    (∃ (s : State) (p : Path) (at_ : W64) (tag : W32), mayIssue s p = true ∧ s.hkRunning = true ∧ s.inRunModes = true ∧ s.fabricMode = true ∧
        granted s .routeEpoch 0 = true ∧ leadBad s at_.toNat (2 * propTime s) = false ∧ s.fab.flip = none ∧ drainRecent s = false ∧ idleTag s = tag ∧
        (∀ c, c < 16 → c ≠ s.chipId → present_ s c = false)) ∧
    (∃ (s : State) (q : Prepare) (x : Active) (st : Nat), s.fab.prep = some q ∧ s.mbx.active = some x ∧ q.since + 4 * propTime s ≤ s.clock ∧
        ((st = stBusy ∧ q.drains = true) ∨ (st = stBadArgument ∧ q.drains = false ∧ q.tags = true) ∨ (st = stTimeout ∧ q.drains = false ∧
        q.tags = false ∧ q.waiting ≠ 0))) ∧
    (∃ (s : State) (f : Flip), s.fab.flip = some f ∧ f.at_ ≤ s.now ∧ s.inRunModes = true) :=
  ⟨⟨base, .mf, 18446744072, by decide⟩,
    ⟨{ base with time := { st := 2 } }, .mf, 18446744072, by decide⟩,
    ⟨{ base with mbx := { owner := some .mf, active := some { path := .mf, seq := 1, code := 7, since := 998500000000 } }, time := { setAt := some 1 } },
      { path := .mf, seq := 1, code := 7, since := 998500000000 }, 1, by decide⟩,
    ⟨base, .mf, 10000000000, by decide⟩,
    ⟨{ base with fab := { snap := some { at_ := 0, id := 1 } } }, { at_ := 0, id := 1 }, by decide⟩,
    ⟨{ fb with fab := { links := [(24, { st := 3 })], present := 2 } }, .mf, 10000000000, 0, ⟨by decide, by decide, by decide, by decide, by decide,
      lead_ok, by decide⟩⟩,
    ⟨{ base with fab := { prep := some { prp with waiting := 3 } }, mbx := { active := some (act 8 0) } }, { prp with waiting := 3 }, act 8 0,
      stTimeout, ⟨rfl, rfl, by decide, Or.inr (Or.inr ⟨rfl, rfl, rfl, by decide⟩)⟩⟩,
    ⟨{ base with fab := { flip := some { at_ := 0 } } }, { at_ := 0 }, by decide⟩⟩

theorem witness_UnlockLevelsNeedTheirProof :
    (∃ (s : State) (p : Path) (pw : List Byte), mayIssue s p = true ∧ s.hkRunning = true ∧ (s.inRunModes = true ∨ s.mode = .safe) ∧ 8 ≤ pw.length ∧
        pw.length ≤ 64 ∧ s.sec.level = 0 ∧ (lockRec s).passwordEn = true ∧ unlockHeld s = false ∧
        sha384 ((lockRec s).salt ++ pw) = (lockRec s).pwHash) ∧
    (∃ (s : State) (p : Path) (pw : List Byte), mayIssue s p = true ∧ s.hkRunning = true ∧ (s.inRunModes = true ∨ s.mode = .safe) ∧ 8 ≤ pw.length ∧
        pw.length ≤ 64 ∧ s.sec.level = 0 ∧ (lockRec s).passwordEn = true ∧ unlockHeld s = false ∧
        sha384 ((lockRec s).salt ++ pw) ≠ (lockRec s).pwHash) ∧
    (∃ (s : State) (p : Path) (pw : List Byte), mayIssue s p = true ∧ (s.inRunModes = true ∨ s.mode = .safe) ∧ 8 ≤ pw.length ∧ pw.length ≤ 64 ∧
        unlockHeld s = true) ∧
    (∃ (s : State) (p : Path) (l : Byte), mayIssue s p = true ∧ s.hkRunning = true ∧ s.sec.level < l.toNat ∧ unlockHeld s = false ∧ ((l = 2 ∧
        (s.inRunModes = true ∨ s.mode = .safe ∨ s.mode = .maintenance) ∧ ((lockRec s).bilinoEn = true ∨ fieldReturn s = true)) ∨ (l = 3 ∧
        s.mode = .maintenance))) ∧
    (∃ (s : State) (p : Path) (n : BitVec 256) (sig : Sig) (c : Challenge), mayIssue s p = true ∧ s.hkRunning = true ∧
        (s.inRunModes = true ∨ s.mode = .safe ∨ s.mode = .maintenance) ∧ s.sec.challenge = some c ∧ unlockHeld s = false ∧
        s.clock ≤ c.issued + 1000000000 * (lockRec s).challengeLifeS ∧ responseRight s c n sig = true) ∧
    (∃ (s : State) (p : Path) (n : BitVec 256) (sig : Sig) (c : Challenge), mayIssue s p = true ∧ s.hkRunning = true ∧
        (s.inRunModes = true ∨ s.mode = .safe ∨ s.mode = .maintenance) ∧ s.sec.challenge = some c ∧ unlockHeld s = false ∧
        s.clock ≤ c.issued + 1000000000 * (lockRec s).challengeLifeS ∧ responseRight s c n sig = false) ∧
    (∃ (s : State) (p : Path), mayIssue s p = true ∧ (s.inRunModes = true ∨ s.mode = .safe ∨ s.mode = .maintenance) ∧ s.sec.challenge = none) ∧
    (∃ (s : State) (x : Nat), s.sec.holdUntil = some x) :=
  ⟨⟨{ base with cfg := { cfg1 with lock := some { passwordEn := true, pwHash := sha384 (List.replicate 8 1) } } }, .mf, List.replicate 8 1,
      ⟨by decide, by decide, by decide, by decide, by decide, by decide, by decide, by decide, by decide +kernel⟩⟩,
    ⟨base, .mf, List.replicate 64 1, ⟨by decide, by decide, by decide, by decide, by decide, by decide, by decide, by decide, by decide +kernel⟩⟩,
    ⟨{ base with sec := { lockout := true } }, .mf, List.replicate 64 1, by decide⟩,
    ⟨base, .mf, 2, by decide⟩,
    ⟨{ base with sec := { challenge := some chal } }, .mf, 5, { signer := 0, msg := [1] }, chal, by decide⟩,
    ⟨{ base with sec := { challenge := some chal } }, .mf, 6, { signer := 0, msg := [1] }, chal, by decide⟩,
    ⟨{ base with mode := .maintenance }, .mf, by decide⟩,
    ⟨{ base with sec := { holdUntil := some 3 } }, 3, by decide⟩⟩

theorem witness_MaintenanceFactoryAndResume :
    (∃ (s : State) (p : Path), mayIssue s p = true ∧ s.hkRunning = true ∧ s.inRunModes = true ∧ 2 ≤ s.sec.level) ∧
    (∃ (s : State) (p : Path), mayIssue s p = true ∧ s.inRunModes = true ∧ s.sec.level < 2) ∧
    (∃ (s : State), s.sec.scrubbing = true ∧ s.sec.bufScrubbed = false ∧ allEvicted s = true) ∧
    (∃ (s : State), s.sec.scrubbing = true ∧ s.sec.bufScrubbed = true) ∧
    (∃ (s : State) (p : Path), mayIssue s p = true ∧ s.hkRunning = true ∧ s.mode = .maintenance ∧ 3 ≤ s.sec.level ∧ s.sec.scrubDone = true) ∧
    (∃ (s : State) (p : Path), mayIssue s p = true ∧ s.hkRunning = true ∧ s.mode = .maintenance ∧ 3 ≤ s.sec.level ∧ s.sec.scrubDone = false) ∧
    (∃ (s : State) (p : Path), mayIssue s p = true ∧ s.hkRunning = true ∧ s.mode = .safe ∧ warmResume s = true ∧ s4Holds s = false) ∧
    (∃ (s : State) (p : Path), mayIssue s p = true ∧ s.mode = .safe ∧ warmResume s = true ∧ s4Holds s = true) ∧
    (∃ (s : State) (p : Path), mayIssue s p = true ∧ s.mode = .safe ∧ warmResume s = false) :=
  ⟨⟨{ base with sec := { level := 2 } }, .mf, by decide⟩,
    ⟨{ base with sec := { level := 1 } }, .mf, by decide⟩,
    ⟨{ base with sec := { scrubbing := true }, evict := [(1, 3), (2, 3)] }, by decide⟩,
    ⟨{ base with sec := { scrubbing := true, bufScrubbed := true } }, by decide⟩,
    ⟨{ base with mode := .maintenance, sec := { level := 3, scrubDone := true } }, .mf, by decide⟩,
    ⟨{ base with mode := .maintenance, sec := { level := 3 } }, .mf, by decide⟩,
    ⟨{ base with mode := .safe }, .mf, by decide⟩,
    ⟨{ base with mode := .safe, cupel := { table := [(0, { ent 3 1 with level := 4 })] } }, .mf, by decide⟩,
    ⟨{ base with mode := .safe, cfg := {} }, .mf, by decide⟩⟩

theorem witness_EvictionRemovesOneTenant :
    (∃ (s : State) (p : Path) (t0 : Byte), mayIssue s p = true ∧ s.hkRunning = true ∧ s.inRunModes = true ∧ (s.tenantRec t0.toNat).isSome = true ∧
        granted s .tenantEvict t0.toNat = true ∧ tfind s.evict t0.toNat = none) ∧
    (∃ (s : State) (p : Path) (t0 : Byte), mayIssue s p = true ∧ s.hkRunning = true ∧ s.inRunModes = true ∧ (s.tenantRec t0.toNat).isSome = true ∧
        granted s .tenantEvict t0.toNat = true ∧ tfind s.evict t0.toNat = some 3) ∧
    (∃ (s : State) (p : Path) (t0 : Byte), mayIssue s p = true ∧ s.hkRunning = true ∧ s.inRunModes = true ∧ (s.tenantRec t0.toNat).isSome = true ∧
        granted s .tenantEvict t0.toNat = true ∧ tfind s.evict t0.toNat = some 2) ∧
    (∃ (s : State) (t0 : TenantId) (a : Active), tfind s.evict t0 = some 2 ∧ activeCmd s 0x0E = some a ∧ a.arg = t0.val ∧ evictDone s t0 = true) ∧
    (∃ (s : State) (t0 : TenantId) (a : Active), tfind s.evict t0 = some 2 ∧ activeCmd s 0x0E = some a ∧ a.arg = t0.val ∧ evictDone s t0 = false) ∧
    (∃ (s : State) (a : Active), activeCmd s 0x0E = some a ∧ a.since + 10000000 ≤ s.clock ∧ evictDone s a.arg = false) ∧
    (∃ (s : State) (a : Active), activeCmd s 0x0E = some a ∧ (s.clock < a.since + 10000000 ∨ evictDone s a.arg = true)) :=
  ⟨⟨base, .mf, 1, by decide⟩,
    ⟨{ base with evict := [(1, 3)] }, .mf, 1, by decide⟩,
    ⟨{ base with evict := [(1, 2)] }, .mf, 1, by decide⟩,
    ⟨{ base with evict := [(255, 2)], mbx := { active := some (act 0x0E 255) } }, 255, act 0x0E 255, by decide⟩,
    ⟨{ base with evict := [(1, 2)], mbx := { active := some (act 0x0E 1) }, used := [(4, 1)] }, 1, act 0x0E 1, by decide⟩,
    ⟨{ base with clock := 10000000, mbx := { active := some (act 0x0E 1) }, used := [(4, 1)] }, act 0x0E 1, by decide⟩,
    ⟨{ base with clock := 9999999, mbx := { active := some (act 0x0E 1) }, used := [(4, 1)] }, act 0x0E 1, by decide⟩⟩

theorem witness_GroupMembersChangeOnlyUnderAGrant :
    (∃ (s : State) (p : Path) (g : W16) (m : McastRec), mayIssue s p = true ∧ s.hkRunning = true ∧ s.inRunModes = true ∧
        mcastRec s g.toNat = some m ∧ Safety.Canonical s ∧ tsorted 0 s.mbx.data = true) ∧
    (∃ (s : State) (p : Path) (d : Byte) (g : W16) (m : McastRec), mayIssue s p = true ∧ s.hkRunning = true ∧ s.inRunModes = true ∧
        mcastRec s g.toNat = some m ∧ Safety.Canonical s ∧ granted s .mcastMember g.toNat = true ∧ d.toNat < m.dests.length) ∧
    (∃ (s : State) (p : Path) (d : Byte) (g : W16) (m : McastRec), mayIssue s p = true ∧ s.hkRunning = true ∧ s.inRunModes = true ∧
        mcastRec s g.toNat = some m ∧ Safety.Canonical s ∧ granted s .mcastMember g.toNat = false ∧ d.toNat < m.dests.length) ∧
    (∃ (s : State) (c : ChipId) (q : PortId) (vn : Nat), vhNumOf s { port := q, chip := c } = some vn ∧ cfgWrites s = true ∧
        tsorted 0 s.cfg.mcasts = true ∧ Safety.Canonical s) :=
  ⟨⟨base, .mf, 3, mc1, by decide⟩,
    ⟨base, .mf, 1, 3, mc1, by decide⟩,
    ⟨{ base with cfg := { cfg1 with amend := none } }, .mf, 1, 3, mc1, by decide⟩,
    ⟨base, 0, 8, 0, by decide⟩⟩

theorem witness_InjectionNeedsFactory :
    (∃ (s : State) (p : Path) (b : Byte) (us : W16), mayIssue s p = true ∧ s.hkRunning = true ∧ s.mode = .factory ∧ b.toNat ≤ 13 ∧ us ≠ 0) ∧
    (∃ (s : State) (p : Path) (us : W16), mayIssue s p = true ∧ s.hkRunning = true ∧ s.mode = .factory ∧ us ≠ 0) ∧
    (∃ (s : State) (p : Path) (m : Msg), mayIssue s p = true ∧ s.hkRunning = true ∧ s.mode = .factory ∧ m.wf = true ∧ m.parityOk = true ∧
        (kindOf m.kind).isSome = true ∧ 0 < (kindInForce (reactEntries s) m.kind).1 ∧ findClass s (classOf m) = none ∧ s.cupel.table.length < 992) ∧
    (∃ (s : State) (p : Path) (b : Byte) (us : W16), mayIssue s p = true ∧ s.mode ≠ .factory ∧ b.toNat ≤ 13 ∧ us ≠ 0) :=
  ⟨⟨{ base with mode := .factory }, .mf, 13, 1, by decide⟩,
    ⟨{ base with mode := .factory }, .mf, 1, by decide⟩,
    ⟨{ base with mode := .factory }, .mf, { source := 3, kind := 0x94 }, by decide⟩,
    ⟨base, .mf, 13, 1, by decide⟩⟩

theorem witness_RegisterWritesFollowTheirAccessTypes :
    (∃ (s : State) (p : Path) (off : Nat), Safety.Canonical s ∧ windowOpen s p off = true ∧ off % 4 = 0 ∧ off < 0x1000000 ∧
        (off < 0x20000 ∨ 0x30000 ≤ off) ∧ off ≠ offFab 0x20) ∧
    (∃ (s : State) (p : Path) (off : Nat), windowOpen s p off = false) ∧
    (∃ (s : State) (p : Path) (i : Nat), pathOpen s p = true ∧ i < 256 ∧ s.mbx.owner ≠ some p) ∧
    (∃ (s : State) (p : Path) (i : Nat), pathOpen s p = true ∧ i < 256 ∧ s.mbx.owner = some p ∧ s.mbx.busy = false ∧ tsorted 0 s.mbx.data = true) ∧
    (∃ (s : State) (c : ChipId) (q : PortId) (r : Nat), Safety.Canonical s ∧ bridgeReg s { port := q, chip := c } r = true ∧
        (cfgWrites s = true ∨ (s.mode = .safe ∧ (r = 0x2004 ∨ r = 0x2010))) ∧ r ≠ 0x4004 ∧ r ≠ 0x4008 ∧ r ≠ 0x400C ∧
        (r = 0x1010 → linkCtlOpen s { port := q, chip := c } = true)) ∧
    (∃ (s : State) (c : ChipId) (q : PortId) (r : Nat), (s.mode = .safe ∧ r ≠ 0x2004 ∧ r ≠ 0x2010) ∨ (r = 0x1010 ∧
        linkCtlOpen s { port := q, chip := c } = false) ∨ bridgeReg s { port := q, chip := c } r = false) ∧
    (∃ (s : State) (c : ChipId) (q : PortId) (r : Nat) (vn : Nat), cfgWrites s = true ∧ bridgeReg s { port := q, chip := c } r = true ∧
        (r = 0x4004 ∨ r = 0x4008 ∨ r = 0x400C) ∧ vhNumOf s { port := q, chip := c } = some vn) ∧
    (∃ (s : State) (vn : Fin 128), (s.vhRec vn).isSome = true ∧ cfgWrites s = true) ∧
    (∃ (s : State) (x : TenantId) (off : Nat), vfOpenTo s x = true ∧ off % 4 = 0) ∧
    (∃ (s : State) (p : Path), pathOpen s p = true ∧ s.mode ≠ .load ∧ s.mode ≠ .assay) :=
  ⟨⟨base, .mf, 0xFFFFFC, by decide⟩,
    ⟨{ base with mode := .load }, .i3c, 0, by decide⟩,
    ⟨base, .i3c, 255, by decide⟩,
    ⟨base, .mf, 255, by decide⟩,
    ⟨base, 0, 8, 0x1010, by decide⟩,
    ⟨{ base with mode := .safe }, 0, 8, 0x1000, by decide⟩,
    ⟨base, 0, 8, 0x400C, 0, by decide⟩,
    ⟨base, 0, by decide⟩,
    ⟨base, 1, 0, by decide⟩,
    ⟨base, .mf, by decide⟩⟩

theorem witness_I3cTargetFollowsItsWindow :
    (∃ (s : State) (off : Nat) (b : List Byte), s.mode ≠ .reset ∧ off < 0x1000000 ∧ b.length % 4 = 0 ∧ accessOk off (b.length / 4) = true ∧
        windowOpen s .i3c off = true) ∧
    (∃ (s : State) (off : Nat) (b : List Byte), s.mode ≠ .reset ∧ off < 0x1000000 ∧ b.length % 4 = 0 ∧
        (accessOk off (b.length / 4) = false ∨ windowOpen s .i3c off = false)) ∧
    (∃ (s : State) (off : Nat) (n : Nat), s.mode ≠ .reset ∧ off < 0x1000000 ∧ n < 256) ∧
    (∃ (s : State), s.mode ≠ .reset) ∧
    (∃ (s : State), s.mode = .reset) :=
  ⟨⟨base, 0xFFFFFC, [0, 0, 0, 0], by decide⟩,
    ⟨base, 0xFFFFFE, [0, 0, 0, 0], by decide⟩,
    ⟨base, 0xFFFFFF, 255, by decide⟩,
    ⟨base, by decide⟩,
    ⟨State.reset, by decide⟩⟩

theorem witness_DebugReachesThePoolOnlyAfterTheScrub :
    (∃ (s : State) (v : DebugVia) (n : Nat), s.mode ≠ .reset ∧ debugInterface s v = true ∧ 1 ≤ n ∧ n ≤ 64 ∧ debugOpen s = false ∧
        (s.reg (offGat 0x20800)).toNat < 64) ∧
    (∃ (s : State) (v : DebugVia) (a : Nat) (n : Nat) (d : List Byte), Memory.wf s.hkMem = true ∧ s.mode ≠ .reset ∧ debugInterface s v = true ∧
        1 ≤ n ∧ n ≤ 64 ∧ debugOpen s = true ∧ a + n ≤ 0x200000 ∧ d.length = n) ∧
    (∃ (s : State) (v : DebugVia), debugInterface s v = false) ∧
    (∃ (s : State) (i : Fin 4), s.pwrgd = true ∧ s.sec.lifeAtReset ≤ 1 ∧ s.keys.lifecycle ≤ 1 ∧ (tget {} s.keys.owner i).st = 0) ∧
    (∃ (s : State) (i : Fin 4), s.pwrgd = true ∧ s.sec.lifeAtReset ≤ 1 ∧ s.keys.lifecycle ≤ 1 ∧ (tget {} s.keys.owner i).st ≠ 0) ∧
    (∃ (s : State), 2 ≤ s.keys.lifecycle) ∧
    (∃ (s : State), s.mode = .factory ∧ s.keys.lifecycle = 2) ∧
    (∃ (s : State), (s.mode ≠ .factory ∨ s.keys.lifecycle ≠ 2)) ∧
    (∃ (s : State) (q : PortId), s.hkRunning = true ∧ answersCfg s q = true) ∧
    (∃ (s : State), s.hkRunning = false) :=
  ⟨⟨base, .jtag, 64, by decide⟩,
    ⟨{ base with mode := .factory }, .uart, 0x1FFFC0, 64, List.replicate 64 0, by decide⟩,
    ⟨{ base with sec := { lifeAtReset := 2 } }, .uart, by decide⟩,
    ⟨base, 3, by decide⟩,
    ⟨{ base with keys := { owner := [(0, { st := 1 })] } }, 0, by decide⟩,
    ⟨{ base with keys := { lifecycle := 2 } }, by decide⟩,
    ⟨{ base with mode := .factory, keys := { lifecycle := 2 } }, by decide⟩,
    ⟨base, by decide⟩,
    ⟨base, 0, by decide⟩,
    ⟨{ base with hkRunning := false }, by decide⟩⟩

theorem witness_GlobalOperationsRunOverTheTree :
    (∃ (s : State) (p : Path) (b : Byte), gopOpen s p = true ∧ s.fab.gopBusy = false ∧ s.chipId < 16 ∧
        (s.fab.present ||| selfBit s) &&& (tget 0 s.fab.barriers b.toNat ||| selfBit s) ≠ s.fab.present ||| selfBit s) ∧
    (∃ (s : State) (p : Path) (b : Byte), gopOpen s p = true ∧ s.fab.gopBusy = false ∧ s.chipId < 16 ∧
        (s.fab.present ||| selfBit s) &&& (tget 0 s.fab.barriers b.toNat ||| selfBit s) = s.fab.present ||| selfBit s) ∧
    (∃ (s : State) (p : Path), Safety.Canonical s ∧ gopOpen s p = true ∧ s.fab.gopBusy = false) ∧
    (∃ (s : State) (p : Path) (id : Nat), gopOpen s p = true ∧ s.fab.entered = some id ∧ tsorted 0 s.fab.barriers = true) ∧
    (∃ (s : State) (p : Path), gopOpen s p = true ∧ s.fab.gopBusy = false ∧ s.mode ≠ .factory) ∧
    (∃ (s : State) (p : Path), gopOpen s p = true ∧ s.fab.gopBusy = true) ∧
    (∃ (s : State) (q : PortId), s.fabricMode = true ∧ linkAccepted s q = true ∧ s.mode ≠ .factory) :=
  ⟨⟨fb, .mf, 255, by decide⟩,
    ⟨{ fb with fab := { fb.fab with barriers := [(255, 3)] } }, .mf, 255, by decide⟩,
    ⟨fb, .mf, by decide⟩,
    ⟨{ fb with fab := { fb.fab with entered := some 255 } }, .mf, 255, by decide⟩,
    ⟨fb, .mf, by decide⟩,
    ⟨{ fb with fab := { fb.fab with gopBusy := true } }, .mf, by decide⟩,
    ⟨fb, 24, by decide⟩⟩

theorem witness_FabricLinksFollowHello :
    (∃ (s : State) (q : PortId) (b : HelloBody), s.isFabric q = true ∧ (s.port q).link.dlUp = true ∧ s.fabricMode = true ∧ helloCause s q b ≠ 0) ∧
    (∃ (s : State) (q : PortId) (b : HelloBody), s.isFabric q = true ∧ (s.port q).link.dlUp = true ∧ s.fabricMode = true ∧ helloCause s q b = 0) ∧
    (∃ (s : State) (q : PortId), s.isFabric q = true ∧ (s.port q).link.dlUp = true ∧ s.fabricMode = true) ∧
    (∃ (s : State) (x : Nat), s.fab.runSince = some x ∧ s.fab.joinOver = false ∧ x + 1000000 * (fabricRec s).joinWindowMs ≤ s.clock) ∧
    (∃ (s : State) (x : Nat), s.fab.runSince = some x ∧ s.fab.joinOver = false ∧ s.clock < x + 1000000 * (fabricRec s).joinWindowMs) ∧
    (∃ (s : State) (q : PortId), Safety.Canonical s ∧ s.isFabric q = true ∧ s.fabricMode = true ∧ (s.port q).link.dlUp = false) ∧
    (∃ (s : State) (q : PortId) (x : Nat), (s.fabLink q).clashAt = some x ∧ x + 1000000000 ≤ s.clock ∧ tsorted 0 s.fab.links = true) ∧
    (∃ (s : State) (q : PortId) (x : Nat), (s.fabLink q).clashAt = some x ∧ s.clock < x + 1000000000) ∧
    (∃ (s : State) (q : PortId), Safety.Canonical s ∧ tsorted 0 s.fab.links = true ∧ s.isFabric q = true ∧ (s.port q).link.dlUp = true) :=
  ⟨⟨fb, 24, hel 3, by decide⟩,
    ⟨fb, 24, hel 0, by decide⟩,
    ⟨fb, 24, by decide⟩,
    ⟨{ fb with fab := { fb.fab with runSince := some 999000000000 } }, 999000000000, by decide⟩,
    ⟨{ fb with fab := { fb.fab with runSince := some 999000000001 } }, 999000000001, by decide⟩,
    ⟨{ fb with ports := [] }, 24, by decide⟩,
    ⟨{ fb with fab := { links := [(24, { clashAt := some 999000000000 })] } }, 24, 999000000000, by decide⟩,
    ⟨{ fb with fab := { links := [(24, { clashAt := some 999000000001 })] } }, 24, 999000000001, by decide⟩,
    ⟨fb, 24, by decide⟩⟩

theorem witness_PresenceDrainsAndArrivals :
    (∃ (s : State) (q : PortId), s.fabricMode = true ∧ linkAccepted s q = true ∧ (isRoot s = true ∨ q.val ≠ treeParent s)) ∧
    (∃ (s : State) (q : PortId), s.fabricMode = true ∧ linkAccepted s q = true ∧ isRoot s = false ∧ q.val = treeParent s) ∧
    (∃ (s : State), s.fabricMode = true ∧ isRoot s = false ∧ linkAccepted s (treeParent s) = true) ∧
    (∃ (s : State) (q : PortId) (f : Farug) (e : Bool) (d : Drain), s.isFabric q = true ∧ linkAccepted s q = true ∧ f.dstChip = s.chipId ∧
        tfind s.fab.drains f.srcChip = some d ∧ e ≠ s.fab.epoch ∧ tsorted 0 s.fab.drains = true) ∧
    (∃ (s : State) (q : PortId) (f : Farug), s.isFabric q = true ∧ linkAccepted s q = true ∧ f.dstChip ≠ s.chipId ∧ f.hops = 0) ∧
    (∃ (s : State) (q : PortId) (f : Farug) (p : _), s.isFabric q = true ∧ linkAccepted s q = true ∧ f.dstChip ≠ s.chipId ∧ 0 < f.hops ∧
        ctlRoute s { f with hops := f.hops - 1 } = some p) ∧
    (∃ (s : State) (x : Nat), s.fab.flippedAt = some x ∧ s.clock ≤ x + 1000 * (fabricRec s).epochDrainUs ∧ tsorted 0 s.fab.eacked = true) ∧
    (∃ (s : State) (c : ChipId) (d : Drain), tfind s.fab.drains c = some d ∧ tsorted 0 s.fab.drains = true ∧
        d.since + 1000 * (fabricRec s).epochDrainUs ≤ s.clock) ∧
    (∃ (s : State) (c : ChipId) (d : Drain), tfind s.fab.drains c = some d ∧ tsorted 0 s.fab.drains = true ∧
        s.clock < d.since + 1000 * (fabricRec s).epochDrainUs) ∧
    (∃ (s : State) (q : PortId) (f : Farug) (x : Tlp), s.isFabric q = true ∧ (s.fabLink q).st = 3 ∧ s.inRunModes = true ∧
        (s.port q).contain.phase = 0 ∧ overCredit s q x = false ∧ f.dstChip ≠ s.chipId ∧ f.dstChip < 16 ∧
        (fabricRec s).chipMask.getLsbD f.dstChip = true ∧ f.hops = 0) ∧
    (∃ (s : State) (q : PortId) (f : Farug) (x : Tlp), s.isFabric q = true ∧ (s.fabLink q).st = 3 ∧ s.inRunModes = true ∧
        (s.port q).contain.phase = 0 ∧ overCredit s q x = false ∧ f.dstChip ≠ s.chipId ∧ f.dstChip < 16 ∧
        (fabricRec s).chipMask.getLsbD f.dstChip = true ∧ 0 < f.hops ∧ fabRoute s { f with hops := f.hops - 1 } ≠ .none) ∧
    (∃ (s : State) (q : PortId) (f : Farug) (x : Tlp), s.isFabric q = true ∧ (s.fabLink q).st = 3 ∧ s.inRunModes = true ∧
        (s.port q).contain.phase = 0 ∧ overCredit s q x = false ∧ f.dstChip = s.chipId) :=
  ⟨⟨rb, 24, by decide⟩,
    ⟨fb, 24, by decide⟩,
    ⟨fb, by decide⟩,
    ⟨{ fb with fab := { fb.fab with drains := [(15, { since := 0 })] } }, 24, { fg 1 0 with srcChip := 15 }, true, { since := 0 }, by decide⟩,
    ⟨fb, 24, fg 0 0, by decide⟩,
    ⟨fb, 24, fg 0 1, 24, by decide⟩,
    ⟨{ fb with fab := { fb.fab with flippedAt := some 999999950000 } }, 999999950000, by decide⟩,
    ⟨{ fb with fab := { fb.fab with drains := [(15, { since := 999999950000 })] } }, 15, { since := 999999950000 }, by decide⟩,
    ⟨{ fb with fab := { fb.fab with drains := [(15, { since := 999999950001 })] } }, 15, { since := 999999950001 }, by decide⟩,
    ⟨rb, 24, fg 1 0, rd, by decide⟩,
    ⟨fb, 24, fg 0 1, rd, by decide⟩,
    ⟨fb, 24, fg 1 0, rd, by decide⟩⟩

theorem witness_TheCounterFollowsItsReference :
    (∃ (s : State), ppsOn s = true ∧ isFollower s = false ∧ edgeValid s = false) ∧
    (∃ (s : State) (x : Int) (o : Int), ppsOn s = true ∧ isFollower s = false ∧ edgeValid s = true ∧ s.time.setAt = none ∧
        x = s.now - (timeRec s).ppsDelayNs ∧ o = x - nearestSecond x ∧ o.natAbs ≤ 1000) ∧
    (∃ (s : State) (x : Int) (o : Int), ppsOn s = true ∧ isFollower s = false ∧ edgeValid s = true ∧ s.time.setAt = none ∧
        x = s.now - (timeRec s).ppsDelayNs ∧ o = x - nearestSecond x ∧ 1000 < o.natAbs ∧ 0 ≤ (s.now : Int) - o ∧ (s.now : Int) - o < 2 ^ 64) ∧
    (∃ (s : State) (sec : W64) (a : Active) (n : Nat), ppsOn s = true ∧ isFollower s = false ∧ edgeValid s = true ∧ s.time.setAt = some sec ∧
        s.mbx.active = some a ∧ (n : Int) = 1000000000 * sec.toNat + (timeRec s).ppsDelayNs ∧ n < 2 ^ 64) ∧
    (∃ (s : State), ppsOn s = true ∧ isFollower s = false ∧ (s.time.st = 1 ∨ s.time.st = 2) ∧ s.time.edgeAt + 1500000000 ≤ s.clock) ∧
    (∃ (s : State), s.mode ≠ .reset ∧ Safety.Canonical s ∧ tsorted 0 s.time.replicas = true) ∧
    (∃ (s : State) (q : PortId) (tx : W64) (rx : W64) (o : Int), isFollower s = true ∧ q.val = treeParent s ∧ linkAccepted s q = true ∧
        o = rx.toNat - (tx.toNat + ((s.fabLink q).delay : Int)) ∧ o.natAbs ≤ 1000) ∧
    (∃ (s : State), s.fabricMode = true) ∧
    (∃ (s : State), isFollower s = true ∧ linkAccepted s (treeParent s) = true) ∧
    (∃ (s : State) (q : PortId), s.fabricMode = true ∧ linkAccepted s q = true) ∧
    (∃ (s : State), isFollower s = true ∧ (s.time.st = 1 ∨ s.time.st = 2) ∧ s.time.edgeAt + 100000 ≤ s.clock) ∧
    (∃ (s : State) (q : PortId), (timeRec s).ptmEn = true ∧ s.isFabric q = false ∧ (s.portRec q).isSome = true ∧ (s.port q).link.dlUp = true ∧
        deaf s q = false) :=
  ⟨⟨{ base with time := { accept := false, lastEdge := some 5 } }, by decide⟩,
    ⟨{ base with time := { ctr := 1000 * 2 ^ 32 } }, 1000, 1000, by decide⟩,
    ⟨{ base with time := { ctr := 1001 * 2 ^ 32 } }, 1001, 1001, by decide⟩,
    ⟨{ base with time := { setAt := some 18446744072 }, mbx := { owner := some .mf, active := some (act 7 0) } }, 18446744072, act 7 0,
      18446744072000000000, by decide⟩,
    ⟨{ base with time := { st := 2, edgeAt := 998500000000 } }, by decide⟩,
    ⟨base, by decide⟩,
    ⟨fb, 24, 0, 1000, 1000, by decide⟩,
    ⟨fb, by decide⟩,
    ⟨fb, by decide⟩,
    ⟨fb, 24, by decide⟩,
    ⟨{ fb with time := { st := 1, edgeAt := 999999900000 } }, by decide⟩,
    ⟨base, 16, by decide⟩⟩

theorem witness_RemoteFaultsAndTheRing :
    (∃ (s : State) (q : PortId), s.fabricMode = true ∧ linkAccepted s q = true ∧ (tget [] s.cupel.queues 13).length < 12) ∧
    (∃ (s : State), ringOn s = true) ∧
    (∃ (s : State), ringOn s = true ∧ s.fab.ringArmed = true) ∧
    (∃ (s : State), ringOn s = true ∧ s.fab.ringArmed = false ∧ s.fab.ringOpened = false) ∧
    (∃ (s : State), ringOn s = false) ∧
    (∃ (s : State), ringOn s = true ∧ s.inRunModes = true ∧ s.fab.ringIn = some .healthy ∧ s.fab.ringSince + 1000000 ≤ s.clock) ∧
    (∃ (s : State), s.fab.ringIn ≠ some .healthy) :=
  ⟨⟨{ fb with cupel := { queues := [(13, List.replicate 11 { source := 3, kind := 1 })] } }, 24, by decide⟩,
    ⟨fb, by decide⟩,
    ⟨{ fb with fab := { fb.fab with ringArmed := true } }, by decide⟩,
    ⟨fb, by decide⟩,
    ⟨base, by decide⟩,
    ⟨{ fb with fab := { fb.fab with ringIn := some .healthy, ringSince := 999999000000 } }, by decide⟩,
    ⟨base, by decide⟩⟩

theorem witness_LinkControlTakesEffectThroughItsVh :
    (∃ (s : State) (q : PortId) (w : Writer), Safety.Canonical s ∧ mayControl s q w = true) ∧
    (∃ (s : State) (q : PortId) (w : Writer), Safety.Canonical s ∧ mayControl s q w = true ∧ (s.port q).link.dlUp = true) ∧
    (∃ (s : State) (q : PortId) (w : Writer), mayControl s q w = false) ∧
    (∃ (s : State) (q : PortId), Safety.Canonical s ∧ (s.port q).link.dlUp = true ∧ (s.port q).link.ltssm = .l0) ∧
    (∃ (s : State) (q : PortId), Safety.Canonical s ∧ (s.port q).link.dlUp = true) ∧
    (∃ (s : State) (q : PortId), Safety.Canonical s ∧ (s.port q).link.dlUp = true ∧ (s.port q).link.flit = true) :=
  ⟨⟨base, 8, .host 0, by decide⟩,
    ⟨base, 16, .host 0, by decide⟩,
    ⟨base, 8, .host 1, by decide⟩,
    ⟨base, 8, by decide⟩,
    ⟨base, 8, by decide⟩,
    ⟨base, 8, by decide⟩⟩

theorem witness_LinksComeUpGoDownAndChangeRate :
    (∃ (s : State) (q : PortId) (w : Nat) (n : Nat) (pr : Nat) (pf : Bool) (c : ChipId), trainOpen s q = true ∧ (s.port q).link.dlUp = false ∧
        1 ≤ pr ∧ pr ≤ 6 ∧ 1 ≤ w ∧ w ≤ cfgWidth s q ∧ (s.isFabric q = true → c.val ≠ s.chipId) ∧
        ((s.port q).contain.phase = 0 ∨ (s.port q).link.ltssm ≠ .disabled) ∧ retimersOk s q n = true ∧ (s.isFabric q = true → pf = true)) ∧
    (∃ (s : State) (q : PortId) (w : Nat) (n : Nat) (pr : Nat) (pf : Bool) (c : ChipId), trainOpen s q = true ∧ (s.port q).link.dlUp = false ∧
        1 ≤ pr ∧ pr ≤ 6 ∧ 1 ≤ w ∧ w ≤ cfgWidth s q ∧ (s.isFabric q = true → c.val ≠ s.chipId) ∧
        ((s.port q).contain.phase = 0 ∨ (s.port q).link.ltssm ≠ .disabled) ∧ (retimersOk s q n = false ∨ s.isFabric q = true ∧ pf = false) ∧
        Safety.Canonical s) ∧
    (∃ (s : State) (q : PortId) (c : ChipId), s.isFabric q = true ∧ c.val = s.chipId) ∧
    (∃ (s : State) (q : PortId), Safety.Canonical s ∧ s.isDown q = true ∧ (s.port q).link.dlUp = true ∧ (s.port q).link.excused = false ∧
        (s.port q).contain.phase = 0) ∧
    (∃ (s : State) (q : PortId), Safety.Canonical s ∧ s.isDown q = true ∧ (s.port q).link.dlUp = true ∧ (s.port q).link.excused = true ∧
        (s.port q).contain.phase = 0) ∧
    (∃ (s : State) (q : PortId), Safety.Canonical s ∧ s.isUp q = true ∧ (s.port q).link.dlUp = true ∧ (s.port q).contain.phase = 0) ∧
    (∃ (s : State) (q : PortId), (s.port q).link.dlUp = false) ∧
    (∃ (s : State) (q : PortId), s.isDown q = true ∧ (s.port q).link.dlUp = true ∧ s.hkRunning = true) ∧
    (∃ (s : State) (q : PortId) (r : Nat) (eyes : List Eye), Safety.Canonical s ∧ (s.port q).link.dlUp = true ∧ (s.port q).link.ltssm = .recovery ∧
        equalises s q r = true ∧ eyes.length = (linkLanes s q).length) ∧
    (∃ (s : State) (q : PortId) (r : Nat) (w : Nat) (a : Nat), Safety.Canonical s ∧ (s.port q).link.dlUp = true ∧ rateAllowed s q r = true ∧ 1 ≤ a ∧
        a ≤ w ∧ w ≤ cfgWidth s q ∧ (s.port q).link.ltssm = .recovery) ∧
    (∃ (s : State) (q : PortId) (r : Nat) (w : Nat) (a : Nat), Safety.Canonical s ∧ (s.port q).link.dlUp = true ∧ rateAllowed s q r = true ∧ 1 ≤ a ∧
        a ≤ w ∧ w ≤ cfgWidth s q ∧ (s.port q).link.ltssm = .l0 ∧ (s.port q).link.flit = true ∧ r = (s.port q).link.rate ∧ w = (s.port q).link.width) :=
  ⟨⟨{ pt {} with slots := [(0, { seen := 0x2C05 })] }, 8, 16, 2, 6, false, 1, by decide⟩,
    ⟨{ pt {} with slots := [(0, { seen := 0x2C05 })], cfg := { cfg1 with ports := [(8, { role := 1, vh := 0, slot := 0, retimers := 1 })] } }, 8, 1,
      2, 1, true, 1, by decide⟩,
    ⟨fb, 24, 1, by decide⟩,
    ⟨base, 8, by decide⟩,
    ⟨pt { link := { lk with excused := true } }, 8, by decide⟩,
    ⟨base, 0, by decide⟩,
    ⟨pt {}, 8, by decide⟩,
    ⟨base, 16, by decide⟩,
    ⟨pt { link := { lk with ltssm := .recovery } }, 8, 6, List.replicate 16 { height := 25, width := 9 }, by decide⟩,
    ⟨pt { link := { lk with ltssm := .recovery } }, 8, 1, 16, 16, by decide⟩,
    ⟨base, 8, 5, 16, 1, by decide⟩⟩

theorem witness_LanesQuadsAndPowerStates :
    (∃ (b : HuntBlock) (e : Fin 130), b.eieos = some e) ∧
    (∃ (l : List HuntBlock) (o : Fin 130), l.length = 64 ∧ (∀ b ∈ l, b.eieos = none ∧ b.valid.getLsbD o = true ∧ ∀ i : Nat,
        i < o → b.valid.getLsbD i = false)) ∧
    (∃ (s : State) (i : StationId) (j : LaneId) (p : Nat) (o : Nat) (l : List HuntBlock), lanePort s i j = some p ∧ 3 ≤ (s.port p).link.rate ∧
        (s.port p).link.rate ≤ 5 ∧ (s.lane i j).aligned = false ∧ huntFrom l (List.replicate 130 0) = some o) ∧
    (∃ (s : State) (i : StationId) (j : LaneId) (p : Nat) (b : HuntBlock), lanePort s i j = some p ∧ (s.port p).link.rate = 6 ∧
        (s.lane i j).aligned = false ∧ b.eieos.isSome = true) ∧
    (∃ (s : State) (i : StationId) (j : LaneId) (p : Nat) (n : Nat), Safety.Canonical s ∧ tsorted 0 (s.station i).lanes = true ∧
        lanePort s i j = some p ∧ (s.lane i j).aligned = true ∧ 3 ≤ (s.port p).link.rate ∧ (s.stationRec i).alignBadMax ≤ n) ∧
    (∃ (s : State) (i : StationId) (j : LaneId) (p : Nat) (n : Nat), Safety.Canonical s ∧ tsorted 0 (s.station i).lanes = true ∧
        lanePort s i j = some p ∧ ((s.lane i j).aligned = false ∨ n < (s.stationRec i).alignBadMax)) ∧
    (∃ (s : State) (i : StationId) (j : LaneId) (p : Nat) (idle : Bool) (mv : Nat), Safety.Canonical s ∧ tsorted 0 (s.station i).lanes = true ∧
        lanePort s i j = some p ∧ expectsData s p j idle = true ∧ (s.port p).link.ltssm = .l0 ∧ mv < (s.stationRec i).losMv) ∧
    (∃ (s : State) (i : StationId) (j : LaneId) (p : Nat) (idle : Bool) (a : Nat) (b : Nat) (n : Nat), Safety.Canonical s ∧
        tsorted 0 (s.station i).lanes = true ∧ lanePort s i j = some p ∧ expectsData s p j idle = true ∧ (s.port p).link.ltssm = .l0 ∧
        lockGone s i a b n = true) ∧
    (∃ (s : State) (i : StationId) (j : LaneId) (p : Nat) (mv : Nat), Safety.Canonical s ∧ tsorted 0 (s.station i).lanes = true ∧
        lanePort s i j = some p ∧ (s.stationRec i).losMv + 20 < mv) ∧
    (∃ (s : State) (i : StationId) (j : LaneId) (p : Nat) (mv : Nat), Safety.Canonical s ∧ tsorted 0 (s.station i).lanes = true ∧
        lanePort s i j = some p ∧ (s.stationRec i).losMv ≤ mv) ∧
    (∃ (s : State) (i : StationId) (j : LaneId) (p : Nat) (mv : Nat), Safety.Canonical s ∧ tsorted 0 (s.station i).lanes = true ∧
        lanePort s i j = some p ∧ mv ≤ (s.stationRec i).losMv + 20) ∧
    (∃ (s : State) (i : StationId) (j : LaneId) (p : Nat) (a : Nat) (b : Nat) (n : Nat), Safety.Canonical s ∧ tsorted 0 (s.station i).lanes = true ∧
        lanePort s i j = some p ∧ lockGone s i a b n = false) ∧
    (∃ (s : State) (i : StationId) (j : LaneId) (p : Nat), Safety.Canonical s ∧ tsorted 0 (s.station i).lanes = true ∧ lanePort s i j = some p) ∧
    (∃ (s : State) (i : StationId) (j : LaneId) (p : Nat), Safety.Canonical s ∧ tsorted 0 (s.station i).lanes = true ∧ lanePort s i j = some p ∧
        (s.port p).link.dlUp = true) ∧
    (∃ (s : State) (i : StationId) (j : LaneId) (p : Nat), Safety.Canonical s ∧ tsorted 0 (s.station i).lanes = true ∧ lanePort s i j = some p ∧
        burnishDue s i j = false) ∧
    (∃ (s : State) (i : StationId) (j : LaneId) (p : Nat), Safety.Canonical s ∧ tsorted 0 (s.station i).lanes = true ∧ lanePort s i j = some p ∧
        ((s.port p).link.ltssm = .l0 ∨ (s.port p).link.ltssm = .recovery ∧ (s.port p).link.dlUp = true) ∧ laneActive s p j = true ∧
        (s.lane i j).marginEnd ≤ s.clock + 100000 ∧ burnishDue s i j = true ∧ (s.lane i j).knob < 7 ∧ (s.lane i j).dfe.length = 5 ∧
        burnishFrozen s p i j = true) ∧
    (∃ (s : State) (i : StationId) (j : LaneId) (p : Nat) (a : Eye) (b : Eye), Safety.Canonical s ∧ tsorted 0 (s.station i).lanes = true ∧
        lanePort s i j = some p ∧ ((s.port p).link.ltssm = .l0 ∨ (s.port p).link.ltssm = .recovery ∧ (s.port p).link.dlUp = true) ∧
        laneActive s p j = true ∧ (s.lane i j).marginEnd ≤ s.clock + 100000 ∧ burnishDue s i j = true ∧ (s.lane i j).knob < 7 ∧
        (s.lane i j).dfe.length = 5 ∧ burnishFrozen s p i j = false ∧ knobOk (s.lane i j).knob (knobVal (s.lane i j) (s.lane i j).knob + 1) = true ∧
        a.height + 2 ≤ b.height) ∧
    (∃ (s : State) (i : StationId) (j : LaneId) (p : Nat) (a : Eye) (b : Eye) (c : Eye), Safety.Canonical s ∧ tsorted 0 (s.station i).lanes = true ∧
        lanePort s i j = some p ∧ ((s.port p).link.ltssm = .l0 ∨ (s.port p).link.ltssm = .recovery ∧ (s.port p).link.dlUp = true) ∧
        laneActive s p j = true ∧ (s.lane i j).marginEnd ≤ s.clock + 100000 ∧ burnishDue s i j = true ∧ (s.lane i j).knob < 7 ∧
        (s.lane i j).dfe.length = 5 ∧ burnishFrozen s p i j = false ∧ b.height < a.height + 2 ∧ c.height < a.height + 2) ∧
    (∃ (s : State) (i : StationId) (q : QuadId) (n : Nat), Safety.Canonical s ∧ 200 < n ∧ (s.station i).pllLock.getLsbD q = true) ∧
    (∃ (s : State) (i : StationId) (q : QuadId) (n : Nat), Safety.Canonical s ∧ (n ≤ 200 ∨ (s.station i).pllLock.getLsbD q = false)) ∧
    (∃ (s : State), Safety.Canonical s ∧ s.mode ≠ .reset) ∧
    (∃ (s : State) (i : StationId) (q : QuadId), Safety.Canonical s ∧ s.mode ≠ .reset ∧ (s.station i).pllLock.getLsbD q = false ∧
        (s.station i).pllFail.getLsbD q = false ∧ tget 0 (s.station i).pllLostAt q + 1000000 ≤ s.clock) ∧
    (∃ (s : State) (i : StationId) (q : QuadId), Safety.Canonical s ∧ s.clock < tget 0 (s.station i).pllLostAt q + 1000000) ∧
    (∃ (s : State) (i : StationId) (q : QuadId), Safety.Canonical s ∧ s.mode ≠ .reset ∧ (s.station i).pllFail.getLsbD q = true ∧
        tget 0 (s.station i).pllTryAt q + 100000000 ≤ s.clock) ∧
    (∃ (s : State) (i : StationId) (q : QuadId), Safety.Canonical s ∧ s.clock < tget 0 (s.station i).pllTryAt q + 100000000) ∧
    (∃ (s : State), Safety.Canonical s) ∧
    (∃ (s : State) (i : StationId) (p : Nat) (d : Desc), s.portNums.filter (fun x => stationOf x == i.val) = [p] ∧
        (s.port p).sched.txing.bind (findDesc s) = some d ∧ (s.port p).link.flit = true ∧ (s.port p).link.ltssm = .l0 ∧ inTransmission s p = true) ∧
    (∃ (s : State) (i : StationId) (p : Nat) (d : Desc), s.portNums.filter (fun x => stationOf x == i.val) = [p] ∧
        (s.port p).sched.txing.bind (findDesc s) = some d ∧ (s.port p).link.flit = false) ∧
    (∃ (s : State) (q : PortId) (b : Bool) (n : Nat), (s.port q).link.dlUp = true ∧ (s.port q).link.ltssm = .l0 ∧ (s.port q).link.pmeOff = false ∧
        (b = true ∨ (∀ r, s.portRec q = some r → r.aspmL1 = true) ∧ (s.portRec q).isSome = true ∧ (s.bridge q).aspm.getLsbD 1 = true ∧
        hasGateList s q = false ∧ idleFor s q n = true)) ∧
    (∃ (s : State) (q : PortId), (s.port q).link.dlUp = true ∧ (s.port q).link.ltssm = .l0 ∧ (s.port q).link.pmeOff = true ∧ descsTo s q = []) ∧
    (∃ (s : State) (q : PortId), (s.port q).link.dlUp = true ∧ (s.port q).link.ltssm = .l0 ∧ hasGateList s q = true ∧ (s.port q).link.pmeOff = false) ∧
    (∃ (s : State) (q : PortId), (s.port q).link.dlUp = true ∧ (s.port q).link.ltssm = .l0 ∧ hasGateList s q = true) ∧
    (∃ (s : State) (q : PortId) (u : Nat), (s.port q).link.dlUp = true ∧ (s.port q).link.ltssm = .l0 ∧ 40 ≤ u) ∧
    (∃ (s : State) (q : PortId) (w : Nat) (u : Nat), (s.port q).link.dlUp = true ∧ (s.port q).link.ltssm = .l0 ∧ u < 40 ∧
        (s.bridge q).hawDisable = false ∧ (s.port q).link.flit = true ∧ l0pFlag s q = true ∧ hasGateList s q = false ∧
        2 * w = (s.port q).link.active ∧ 0 < w ∧ (∀ r, s.portRec q = some r → r.l0pMinWidth ≤ w)) ∧
    (∃ (s : State) (q : PortId) (u : Nat), (s.port q).link.dlUp = true ∧ (s.port q).link.ltssm = .l0 ∧ (s.port q).link.flit = true ∧
        l0pFlag s q = true ∧ (s.port q).link.active < (s.port q).link.width ∧ (16 < cellsTo s q ∨ 80 < u)) :=
  ⟨⟨{ valid := 0, eieos := some 129 }, 129, by decide⟩,
    ⟨List.replicate 64 { valid := BitVec.ofNat 130 (2 ^ 129) }, 129, ⟨rfl, hunt_only⟩⟩,
    ⟨pt { link := { lk with rate := 3 } }, 1, 0, 8, 0, List.replicate 64 { valid := 1 }, by decide⟩,
    ⟨pt { link := { lk with rate := 6 } }, 1, 0, 8, { valid := 0, eieos := some 0 }, by decide⟩,
    ⟨{ base with stations := [(1, { passed := true, lanes := [(0, { aligned := true })] })] }, 1, 0, 8, 8, by decide⟩,
    ⟨{ base with stations := [(1, { passed := true, lanes := [(0, { aligned := true })] })] }, 1, 0, 8, 7, by decide⟩,
    ⟨base, 1, 15, 8, true, 79, by decide⟩,
    ⟨base, 1, 15, 8, true, 0, 0, 1000, by decide⟩,
    ⟨base, 1, 15, 8, 101, by decide⟩,
    ⟨base, 1, 15, 8, 80, by decide⟩,
    ⟨base, 1, 15, 8, 100, by decide⟩,
    ⟨base, 1, 15, 8, 1001, 1000, 999, by decide⟩,
    ⟨base, 1, 15, 8, by decide⟩,
    ⟨base, 1, 15, 8, by decide⟩,
    ⟨{ base with stations := [(1, { lanes := [(0, { burnAt := some 1000000000000 })] })] }, 1, 0, 8, by decide⟩,
    ⟨{ base with cfg := { cfg1 with stations := [(1, { burnishEn := false })] } }, 1, 15, 8, by decide⟩,
    ⟨base, 1, 0, 8, { height := 25, width := 9 }, { height := 27, width := 9 }, by decide⟩,
    ⟨base, 1, 0, 8, { height := 25, width := 9 }, { height := 26, width := 9 }, { height := 26, width := 9 }, by decide⟩,
    ⟨{ base with stations := [(1, { pllLock := 8 })] }, 1, 3, 201, by decide⟩,
    ⟨{ base with stations := [(1, { pllLock := 8 })] }, 1, 3, 200, by decide⟩,
    ⟨base, by decide⟩,
    ⟨{ base with stations := [(1, { pllLock := 7, pllLostAt := [(3, 999999000000)] })] }, 1, 3, by decide⟩,
    ⟨{ base with stations := [(1, { pllLock := 7, pllLostAt := [(3, 999999000001)] })] }, 1, 3, by decide⟩,
    ⟨{ base with stations := [(1, { pllFail := 8, pllTryAt := [(3, 999900000000)] })] }, 1, 3, by decide⟩,
    ⟨{ base with stations := [(1, { pllFail := 8, pllTryAt := [(3, 999900000001)] })] }, 1, 3, by decide⟩,
    ⟨base, by decide⟩,
    ⟨{ pt { link := lk, sched := { txing := some 4 } } with descs := [dsc] }, 1, 8, dsc, by decide⟩,
    ⟨{ pt { link := { lk with flit := false }, sched := { txing := some 4 } } with descs := [dsc] }, 1, 8, dsc, by decide⟩,
    ⟨base, 8, true, 0, ⟨by decide, by decide, by decide, Or.inl rfl⟩⟩,
    ⟨pt { link := { lk with pmeOff := true } }, 8, by decide⟩,
    ⟨pt { link := lk, sched := { oper := some { gcl := [], cycle := 100000, base := 0 } } }, 8, by decide⟩,
    ⟨pt { link := lk, sched := { oper := some { gcl := [], cycle := 100000, base := 0 } } }, 8, by decide⟩,
    ⟨base, 8, 40, by decide⟩,
    ⟨base, 8, 8, 39, ⟨by decide, by decide, by decide, by decide, by decide, by decide, by decide, by decide, by decide,
      fun _ h => by injection h with h; subst h; decide⟩⟩,
    ⟨pt { link := { lk with active := 8 } }, 8, 81, by decide⟩⟩

theorem witness_ContainmentDropsWhatIsQueuedUntilReleased :
    (∃ (s : State) (q : PortId), Safety.Canonical s ∧ s.isDown q = true ∧ s.inRunModes = true ∧ (s.port q).contain.phase = 0 ∧
        ((s.bridge q).dpcEnable = 1 ∨ (s.bridge q).dpcEnable = 2)) ∧
    (∃ (s : State) (q : PortId), Safety.Canonical s ∧ s.isDown q = true ∧ s.inRunModes = true ∧
        ((s.port q).contain.phase = 1 ∨ (s.port q).contain.phase = 2 ∨ (s.bridge q).dpcEnable = 0)) ∧
    (∃ (s : State) (q : PortId), s.isFabric q = false ∧ (s.port q).contain.phase = 1) ∧
    (∃ (s : State) (q : PortId), (s.port q).contain.phase ≠ 1) ∧
    (∃ (s : State) (q : PortId), (s.port q).contain.phase = 3 ∧ drainOver s q = true ∧ slotOfPort s q = none) ∧
    (∃ (s : State) (q : PortId) (n : _), (s.port q).contain.phase = 3 ∧ drainOver s q = true ∧ slotOfPort s q = some n ∧ s.d2d.lost = false ∧
        seenOn (s.slot n) = true) ∧
    (∃ (s : State) (q : PortId), (s.port q).contain.phase = 3 ∧ drainOver s q = false) ∧
    (∃ (s : State) (q : PortId), Safety.Canonical s ∧ s.isDown q = true ∧ s.mode ≠ .reset ∧ (s.port q).contain.phase = 2 ∧
        ((s.port q).contain.cause = 1 ∨ (s.port q).contain.cause = 2 ∨ (s.port q).contain.cause = 3) ∧ underRuntime s q = false) ∧
    (∃ (s : State) (q : PortId), Safety.Canonical s ∧ s.isDown q = true ∧ s.mode ≠ .reset ∧ (s.port q).contain.phase = 2 ∧
        (s.port q).contain.cause ≠ 1 ∧ (s.port q).contain.cause ≠ 2 ∧ (s.port q).contain.cause ≠ 3) ∧
    (∃ (s : State) (p : Path) (port : Byte), mayIssue s p = true ∧ s.hkRunning = true ∧ s.inRunModes = true ∧ (s.portRec port.toNat).isSome = true ∧
        granted s .containRelease port.toNat = true ∧ Safety.Canonical s ∧ (s.port port.toNat).contain.phase = 2 ∧ underRuntime s port.toNat = false) ∧
    (∃ (s : State) (p : Path) (port : Byte), mayIssue s p = true ∧ s.hkRunning = true ∧ s.inRunModes = true ∧ (s.portRec port.toNat).isSome = true ∧
        granted s .containRelease port.toNat = true ∧ (s.port port.toNat).contain.phase = 1) ∧
    (∃ (s : State) (p : Path) (port : Byte), mayIssue s p = true ∧ s.hkRunning = true ∧ s.inRunModes = true ∧ (s.portRec port.toNat).isSome = true ∧
        granted s .containRelease port.toNat = false) :=
  ⟨⟨{ base with bridges := [(8, { dpcEnable := 1 })] }, 8, by decide⟩,
    ⟨pt { link := lk, contain := { phase := 2 } }, 8, by decide⟩,
    ⟨pt { link := lk, contain := { phase := 1 } }, 8, by decide⟩,
    ⟨pt { link := lk, contain := { phase := 2 } }, 8, by decide⟩,
    ⟨{ base with ports := [(0, { link := lk, contain := { phase := 3 } })] }, 0, by decide⟩,
    ⟨{ pt { contain := { phase := 3 } } with slots := [(0, { st := 5, seen := 0x3C05 })] }, 8, 0, by decide⟩,
    ⟨{ pt { contain := { phase := 3, drainSince := 1000000000000 } } with tracker := [trk] }, 8, by decide⟩,
    ⟨pt { contain := { phase := 2, cause := 3 } }, 8, by decide⟩,
    ⟨pt { contain := { phase := 2, cause := 4 } }, 8, by decide⟩,
    ⟨pt { contain := { phase := 2 } }, .mf, 8, by decide⟩,
    ⟨pt { contain := { phase := 1 } }, .mf, 8, by decide⟩,
    ⟨{ base with cfg := { cfg1 with amend := none } }, .mf, 8, by decide⟩⟩

theorem witness_RequestsAndCompletionsAreClassified :
    (∃ (s : State) (q : PortId), takesRequests s q = false) ∧
    (∃ (s : State) (q : PortId) (x : Tlp), takesRequests s q = true ∧ x.kind ≠ .cpl ∧ s.mode = .run ∧ deaf s q = false ∧ x.malformed = false ∧
        (s.port q).quarantine = false ∧ overCredit s q x = false ∧ classify s q x.rid x.pasid = none) ∧
    (∃ (s : State) (q : PortId) (x : Tlp) (o : _) (tr : _) (r : Nat) (b : Bool), takesRequests s q = true ∧ x.kind ≠ .cpl ∧ s.mode = .run ∧
        deaf s q = false ∧ x.malformed = false ∧ (s.port q).quarantine = false ∧ overCredit s q x = false ∧ classify s q x.rid x.pasid = some (o,
        tr) ∧ s.cfg.samples = [] ∧ isErrMsg x = false ∧ (x.kind = .msg → x.msgCode ≠ 0x19) ∧ policerOf s o x.tc.toNat = none ∧
        routeVerdict s q o tr x = .goes (.port r) b ∧ portOpen s r = true ∧ (s.port r).contain.phase = 0 ∧ (s.port r).quarantine = false) ∧
    (∃ (s : State) (q : PortId) (x : Tlp) (o : _) (tr : _) (k : _) (b : _) (d : _), takesRequests s q = true ∧ x.kind ≠ .cpl ∧ s.mode = .run ∧
        deaf s q = false ∧ x.malformed = false ∧ (s.port q).quarantine = false ∧ overCredit s q x = false ∧ classify s q x.rid x.pasid = some (o,
        tr) ∧ s.cfg.samples = [] ∧ isErrMsg x = false ∧ (x.kind = .msg → x.msgCode ≠ 0x19) ∧ policerOf s o x.tc.toNat = none ∧
        routeVerdict s q o tr x = .ur k b d ∧ isNonPosted x.kind = true) ∧
    (∃ (s : State) (q : PortId) (x : Tlp) (o : _) (tr : _) (z : _) (m : _) (c : _) (b : _) (n : _), takesRequests s q = true ∧ x.kind ≠ .cpl ∧
        s.mode = .run ∧ deaf s q = false ∧ x.malformed = false ∧ (s.port q).quarantine = false ∧ overCredit s q x = false ∧
        classify s q x.rid x.pasid = some (o, tr) ∧ s.cfg.samples = [] ∧ isErrMsg x = false ∧ (x.kind = .msg → x.msgCode ≠ 0x19) ∧
        policerOf s o x.tc.toNat = none ∧ routeVerdict s q o tr x = .gate z m c b n ∧ isNonPosted x.kind = true) ∧
    (∃ (s : State) (q : PortId) (x : Tlp) (o : _) (tr : _) (g : _) (a : _) (m : _) (c : _) (b : _) (n : _), takesRequests s q = true ∧
        x.kind ≠ .cpl ∧ s.mode = .run ∧ deaf s q = false ∧ x.malformed = false ∧ (s.port q).quarantine = false ∧ overCredit s q x = false ∧
        classify s q x.rid x.pasid = some (o, tr) ∧ s.cfg.samples = [] ∧ isErrMsg x = false ∧ (x.kind = .msg → x.msgCode ≠ 0x19) ∧
        policerOf s o x.tc.toNat = none ∧ routeVerdict s q o tr x = .mfGate g a m c b n ∧ isNonPosted x.kind = true) ∧
    (∃ (s : State) (q : PortId) (x : Tlp) (o : _) (tr : _), takesRequests s q = true ∧ x.kind ≠ .cpl ∧ s.mode = .run ∧ deaf s q = false ∧
        x.malformed = false ∧ (s.port q).quarantine = false ∧ overCredit s q x = false ∧ classify s q x.rid x.pasid = some (o, tr) ∧
        s.cfg.samples = [] ∧ isErrMsg x = false ∧ (x.kind = .msg → x.msgCode ≠ 0x19) ∧ policerOf s o x.tc.toNat = none ∧
        routeVerdict s q o tr x = .own) ∧
    (∃ (s : State) (q : PortId) (x : Tlp) (o : _) (tr : _) (k : Nat) (r : Nat) (e : PolEntry) (b : Bool), takesRequests s q = true ∧ x.kind ≠ .cpl ∧
        s.mode = .run ∧ deaf s q = false ∧ x.malformed = false ∧ (s.port q).quarantine = false ∧ overCredit s q x = false ∧
        classify s q x.rid x.pasid = some (o, tr) ∧ s.cfg.samples = [] ∧ isErrMsg x = false ∧ (x.kind = .msg → x.msgCode ≠ 0x19) ∧
        policerOf s o x.tc.toNat = some (k, e) ∧ (colour s k (tlpBytes x)).1 = .red ∧ e.hold = true ∧
        routeVerdict (s.bump (offPol k 8)) q o tr x = .goes (.port r) b ∧ portOpen s r = true ∧ (s.port r).contain.phase = 0 ∧
        (s.port r).quarantine = false) ∧
    (∃ (s : State) (q : PortId) (x : Tlp) (o : _) (tr : _) (k : Nat) (e : PolEntry), takesRequests s q = true ∧ x.kind ≠ .cpl ∧ s.mode = .run ∧
        deaf s q = false ∧ x.malformed = false ∧ (s.port q).quarantine = false ∧ overCredit s q x = false ∧ classify s q x.rid x.pasid = some (o,
        tr) ∧ s.cfg.samples = [] ∧ isErrMsg x = false ∧ (x.kind = .msg → x.msgCode ≠ 0x19) ∧ policerOf s o x.tc.toNat = some (k, e) ∧
        (colour s k (tlpBytes x)).1 = .red ∧ e.hold = false ∧ isNonPosted x.kind = true) ∧
    (∃ (s : State) (q : PortId) (x : Tlp), s.isDown q = true ∧ isErrMsg x = true ∧ overCredit s q x = false) ∧
    (∃ (s : State) (q : PortId) (x : Tlp), takesRequests s q = true ∧ s.isDown q = true ∧ s.mode = .run ∧ deaf s q = false ∧ x.malformed = false ∧
        x.kind = .msg ∧ x.msgCode = 0x33 ∧ (classify s q x.rid x.pasid).isSome = true ∧ (s.bridge q).dpcEnable = 1) ∧
    (∃ (s : State) (q : PortId) (c : Tlp) (e : _), takesRequests s q = true ∧ c.kind = .cpl ∧ s.mode = .run ∧ deaf s q = false ∧
        c.malformed = false ∧ overCredit s q c = false ∧ lookupTrk s q c = some e ∧ e.retired = true) ∧
    (∃ (s : State) (q : PortId) (c : Tlp) (e : Trk) (r : Nat), takesRequests s q = true ∧ c.kind = .cpl ∧ s.mode = .run ∧ deaf s q = false ∧
        c.malformed = false ∧ overCredit s q c = false ∧ lookupTrk s q c = some e ∧ e.retired = false ∧ s.cfg.samples = [] ∧
        cplTarget s q e c = .port r ∧ portOpen s r = true) ∧
    (∃ (s : State) (q : PortId) (c : Tlp) (k : _), takesRequests s q = true ∧ c.kind = .cpl ∧ s.mode = .run ∧ deaf s q = false ∧
        c.malformed = false ∧ overCredit s q c = false ∧ lookupTrk s q c = none ∧ quarantinedKey s q c = some k) ∧
    (∃ (s : State) (q : PortId) (c : Tlp), takesRequests s q = true ∧ c.kind = .cpl ∧ s.mode = .run ∧ deaf s q = false ∧ c.malformed = false ∧
        overCredit s q c = false ∧ lookupTrk s q c = none ∧ quarantinedKey s q c = none ∧ s.isUp q = false) :=
  ⟨⟨pt {}, 8, by decide⟩,
    ⟨base, 16, { kind := .mrd, len := 4 }, by decide⟩,
    ⟨base, 8, { kind := .mrd, len := 4 }, 1, false, 0, false, by decide⟩,
    ⟨base, 8, { kind := .cfgrd0, len := 4 }, 1, false, 0x35, aerUr, (none : Option PortChip), by decide⟩,
    ⟨peer, 8, { kind := .mrd, len := 4, addr := 0x100000 }, 1, false, ({ port := 16, chip := 0 } : PortChip), false, 0, 0x100000, 0xFF, by decide⟩,
    ⟨{ base with vhs := [(0, { mfBar0 := some 0x1000000 })] }, 8, { kind := .mrd, len := 4, addr := 0x1000000 }, 1, false, 2, 0, false, 0, 0, 0xFF,
      by decide +kernel⟩,
    ⟨own1, 0, { kind := .cfgrd0, len := 4 }, 1, false, by decide⟩,
    ⟨pol true, 8, { kind := .mrd, len := 4 }, 1, false, 0, 0, { tcMask := 1, hold := true, cir := 1, pir := 1, cbs := 1, pbs := 1 }, false, by decide⟩,
    ⟨pol false, 8, { kind := .mrd, len := 4 }, 1, false, 0, { tcMask := 1, cir := 1, pir := 1, cbs := 1, pbs := 1 }, by decide⟩,
    ⟨base, 8, { kind := .msg, msgCode := 0x33 }, by decide⟩,
    ⟨{ base with bridges := [(8, { dpcEnable := 1 })] }, 8, { kind := .msg, msgCode := 0x33 }, by decide⟩,
    ⟨{ base with tracker := [{ trk with retired := true }] }, 8, { kind := .cpl, tag := 9 }, { trk with retired := true }, by decide⟩,
    ⟨{ base with tracker := [trk] }, 8, { kind := .cpl, tag := 9 }, trk, 0, by decide⟩,
    ⟨{ base with ideQ := [idk] }, 8, { kind := .cpl, tag := 9, ide := true }, idk, by decide⟩,
    ⟨base, 8, { kind := .cpl, tag := 9 }, by decide⟩⟩

theorem witness_AdmissionClosingAndTheTracker :
    (∃ (s : State) (p : PortId) (c : Fin 3) (x : Staged) (r : Nat), (s.staging.filter (fun y => y.key == .port p c)).head? = some x ∧ x.red = none ∧
        behindPosted s x = false ∧ behindWait s x = false ∧ x.dest = .port r ∧ shutTo s r x = false ∧
        mayAdmit s x.owner x.cls r (tlpCells x.tlp) = true) ∧
    (∃ (s : State) (p : PortId) (c : Fin 3) (x : Staged) (r : Nat), (s.staging.filter (fun y => y.key == .port p c)).head? = some x ∧ x.red = none ∧
        behindPosted s x = false ∧ behindWait s x = false ∧ x.dest = .port r ∧ shutTo s r x = false ∧
        mayAdmit s x.owner x.cls r (tlpCells x.tlp) = false ∧ x.waited = true) ∧
    (∃ (s : State) (p : PortId) (c : Fin 3) (x : Staged) (r : Nat), (s.staging.filter (fun y => y.key == .port p c)).head? = some x ∧ x.red = none ∧
        behindPosted s x = false ∧ behindWait s x = false ∧ x.dest = .port r ∧ shutTo s r x = false ∧
        mayAdmit s x.owner x.cls r (tlpCells x.tlp) = false ∧ x.waited = false) ∧
    (∃ (s : State) (id : Nat), (∃ x ∈ s.staging, x.id = id ∧ x.isOpen = true) ∧ (∀ y ∈ s.ended, y.id ≠ id ∧ y.origin ≠ id) ∧ (∀ x ∈ s.staging,
        x.id = id → stomped x.farug = false)) ∧
    (∃ (s : State) (id : Nat) (r : CloseReason), (∃ x ∈ s.staging, x.id = id ∧ x.isOpen = true) ∧ (∀ y ∈ s.ended, y.id ≠ id ∧ y.origin ≠ id) ∧
        r ≠ .good ∧ r ≠ .lcrc ∧ lostInside r = false) ∧
    (∃ (s : State) (d : Desc) (n : Nat), (∀ x ∈ s.staging, x.id ≠ d.id) ∧ (∀ w ∈ s.mcWaits, w.x.id ≠ d.id) ∧
        s.descs.filter (fun y => (y.id == d.id || y.origin == d.id) && y.isOpen) = [d] ∧ (s.port d.egress).sched.txing = some d.id ∧
        stomped d.farug = false ∧ (s.isFabric d.egress = false ∨ n < 2000)) ∧
    (∃ (s : State) (d : Desc), (∀ x ∈ s.staging, x.id ≠ d.id) ∧ (∀ w ∈ s.mcWaits, w.x.id ≠ d.id) ∧
        s.descs.filter (fun y => (y.id == d.id || y.origin == d.id) && y.isOpen) = [d] ∧ (s.port d.egress).sched.txing = some d.id) ∧
    (∃ (s : State), (∀ e ∈ s.tracker, timedOut s e = false)) :=
  ⟨⟨{ base with staging := [stg] }, 8, 1, stg, 0, by decide⟩,
    ⟨{ base with staging := [{ stg with owner := 7, waited := true }] }, 8, 1, { stg with owner := 7, waited := true }, 0, by decide⟩,
    ⟨{ base with staging := [{ stg with owner := 7 }] }, 8, 1, { stg with owner := 7 }, 0, by decide⟩,
    ⟨{ base with staging := [{ stg with isOpen := true }] }, 4, by decide⟩,
    ⟨{ base with staging := [{ stg with isOpen := true }] }, 4, CloseReason.flitRetryLate, by decide⟩,
    ⟨{ pt { link := lk, sched := { txing := some 4 } } with descs := [dsc] }, dsc, 2000, ⟨by decide, by decide, by decide, by decide, by decide,
      Or.inl (by decide)⟩⟩,
    ⟨{ pt { link := lk, sched := { txing := some 4 } } with descs := [dsc] }, dsc, by decide⟩,
    ⟨{ base with tracker := [{ trk with start := some 999950000000 }] }, by decide⟩⟩

theorem witness_EgressStartsOneEligibleTlp :
    (∃ (s : State) (q : PortId), Safety.Canonical s ∧ mayStart s q = false) ∧
    (∃ (s : State) (q : PortId) (g : GateList), Safety.Canonical s ∧ (s.port q).sched.pend = none ∧ (s.port q).sched.oper = some g ∧
        maskAt g (entryAt g (stationTime s q)) = 0) ∧
    (∃ (s : State) (p : Nat) (nc : BitVec 3) (d : Desc), expressPick s nc p = some d) ∧
    (∃ (s : State) (p : Nat) (nc : BitVec 3) (d : Desc) (c : _), expressPick s nc p = some d ∧ d.tlp.tc.toNat < c ∧ c < 8 ∧ isExpress s p c = true) ∧
    (∃ (s : State) (q : PortId) (nc : BitVec 3) (d : Desc), Safety.Canonical s ∧ mayStart s q = true ∧ gatesNow s q = s ∧ (∀ x ∈ s.descs,
        x.needTrk = false) ∧ s.isFabric q = false ∧ d.isOpen = false ∧ (expressPick s nc q = some d ∨ (expressPick s nc q = none ∧ ∃ y,
        drr s nc q 700 (s.port q).sched = some (d, y)))) ∧
    (∃ (s : State) (q : PortId) (id : Nat), Safety.Canonical s ∧ (s.port q).sched.held = some id ∧ (s.port q).sched.heldSince + 2000 ≤ s.clock) ∧
    (∃ (s : State) (q : PortId) (id : Nat), Safety.Canonical s ∧ (s.port q).sched.held = some id ∧ s.clock < (s.port q).sched.heldSince + 2000) ∧
    (∃ (s : State) (q : PortId) (d : Desc) (n : Nat), (s.port q).sched.txing.bind (findDesc s) = some d ∧ s.isFabric q = true ∧ 2000 ≤ n ∧
        (s.port q).sched.cutAt + n ≤ s.clock) ∧
    (∃ (s : State) (q : PortId) (d : Desc) (n : Nat), (s.port q).sched.txing.bind (findDesc s) = some d ∧
        (n < 2000 ∨ s.clock < (s.port q).sched.cutAt + n)) :=
  ⟨⟨pt {}, 8, by decide⟩,
    ⟨pt { link := lk, sched := { oper := some { gcl := [{ mask := 0, interval := 125 }], cycle := 1000, base := 0 } } }, 8,
      { gcl := [{ mask := 0, interval := 125 }], cycle := 1000, base := 0 }, by decide⟩,
    ⟨{ base with cfg := { cfg1 with scheds := [(8, { express := 1 })] }, descs := [{ dsc with isOpen := false }] }, 8, 0,
      { dsc with isOpen := false }, by decide⟩,
    ⟨{ base with cfg := { cfg1 with scheds := [(8, { express := 0x81 })] }, descs := [{ dsc with isOpen := false }] }, 8, 0,
      { dsc with isOpen := false }, 7, by decide⟩,
    ⟨{ pt { link := lk, sched := { ring := [0], deficit := [(0, 4096)] } } with descs := [{ dsc with isOpen := false }] }, 8, 0,
      { dsc with isOpen := false }, ⟨by decide, by decide, by decide, by decide, by decide, by decide, Or.inr ⟨by decide, _, rfl⟩⟩⟩,
    ⟨{ base with ports := [(8, { link := lk, sched := { held := some 4, heldSince := 999999998000 } })] }, 8, 4, by decide⟩,
    ⟨{ base with ports := [(8, { link := lk, sched := { held := some 4, heldSince := 999999998001 } })] }, 8, 4, by decide⟩,
    ⟨cutAt, 24, cutDsc, 2000, by decide⟩,
    ⟨cutAt, 24, cutDsc, 1999, by decide⟩⟩

theorem witness_GatesAndTicksFollowTheClock :
    (∃ (s : State), Safety.Canonical s) ∧
    (∃ (s : State) (q : PortId) (d : PendList), Safety.Canonical s ∧ (s.port q).sched.pend = some d ∧ d.ts ≤ stationTime s q) ∧
    (∃ (s : State) (q : PortId) (d : PendList), Safety.Canonical s ∧ (s.port q).sched.pend = some d ∧ stationTime s q < d.ts) ∧
    (∃ (s : State), tsorted 0 s.policers = true ∧ s.staging = []) ∧
    (∃ (s : State) (n : Nat) (r : TenantRec), tsorted 0 s.cfg.tenants = true ∧ tfind s.cfg.tenants n = some r) ∧
    (∃ (s : State) (q : PortId) (m : MonEntry), Safety.Canonical s ∧ (schedRec s q).mons = [m]) :=
  ⟨⟨base, by decide⟩,
    ⟨pt { link := lk, sched := { pend := some pnd } }, 8, pnd, by decide⟩,
    ⟨pt { link := lk, sched := { pend := some { pnd with ts := 1 } } }, 8, { pnd with ts := 1 }, by decide⟩,
    ⟨base, by decide⟩,
    ⟨base, 2, { vh := 0 }, by decide⟩,
    ⟨{ base with cfg := { cfg1 with scheds := [(8, { mons := [{ id := 3 }] })] } }, 8, { id := 3 }, by decide⟩⟩

theorem witness_MulticastCopiesParkedAndSampled :
    (∃ (s : State) (q : PortId) (x : Staged) (g : Nat) (m : McastRec), Safety.Canonical s ∧ mcHead s q = some (x, g) ∧ mcastRec s g = some m ∧
        portWaits s q = [] ∧ behindWait s x = false ∧ mcAdmissible s x = true ∧ x.id < s.nextId ∧ (∀ k ∈ mcTargets s x m (s.group g).members,
        deadCause s x m k = 0 ∧ copyGate s x m k = .pass ∧ hasCredit s g m k (tlpCells x.tlp) = true ∧ parkedTo s g k = [] ∧
        (destAt m k).chip = s.chipId ∧ (s.port (destAt m k).port).contain.phase = 0 ∧ (s.port (destAt m k).port).quarantine = false)) ∧
    (∃ (s : State) (q : PortId) (x : Staged) (g : Nat) (m : McastRec), Safety.Canonical s ∧ mcHead s q = some (x, g) ∧ mcastRec s g = some m ∧
        portWaits s q = [] ∧ behindWait s x = false ∧ mcAdmissible s x = true ∧ x.id < s.nextId ∧ m.policy = .atomicAdmit ∧
        (∃ k ∈ mcTargets s x m (s.group g).members, deadCause s x m k = 0 ∧ hasCredit s g m k (tlpCells x.tlp) = false)) ∧
    (∃ (s : State) (q : PortId) (w : McWait) (m : McastRec), Safety.Canonical s ∧ (portWaits s q).head? = some w ∧ mcastRec s w.group = some m ∧
        w.since + 1000 * m.admitTimeout ≤ s.clock ∧ mcAllCredit s w m = false) ∧
    (∃ (s : State) (q : PortId) (w : McWait) (m : McastRec), Safety.Canonical s ∧ (portWaits s q).head? = some w ∧ mcastRec s w.group = some m ∧
        portWaits s q = [w] ∧ s.clock < w.since + 1000 * m.admitTimeout) ∧
    (∃ (s : State) (g : GroupId) (k : Fin 64) (m : McastRec) (x : Parked) (p : _), Safety.Canonical s ∧ mcastRec s g = some m ∧
        (parkedTo s g k).head? = some x ∧ s.mode ≠ .safe ∧ copyEgress s x.src x.owner x.tlp.tc.toNat x.trusted x.epoch (destAt m k) = some p ∧
        x.isOpen = false ∧ destLive s m k = true ∧ hasCredit s g m k x.cells = true ∧ s.parkUsed + x.cells ≤ 2048) ∧
    (∃ (s : State) (g : GroupId) (k : Fin 64) (m : McastRec) (x : Parked), Safety.Canonical s ∧ mcastRec s g = some m ∧
        (parkedTo s g k).head? = some x ∧ s.mode ≠ .safe) ∧
    (∃ (s : State) (g : GroupId) (k : Fin 64) (m : McastRec) (x : Parked), Safety.Canonical s ∧ mcastRec s g = some m ∧
        (parkedTo s g k).head? = some x ∧ s.mode = .safe) ∧
    (∃ (s : State) (r : Report) (l : List Report) (m : McastRec) (v : VhRec), Safety.Canonical s ∧ tsorted 0 (s.vh m.vh).rings = true ∧
        s.reports = r :: l ∧ mcastRec s r.group = some m ∧ s.vhRec m.vh = some v) ∧
    (∃ (s : State), s.reports = []) ∧
    (∃ (s : State) (x : Sample) (l : List Sample), Safety.Canonical s ∧ s.samples = x :: l ∧ x.tap < 32) ∧
    (∃ (s : State) (x : Sample) (l : List Sample), Safety.Canonical s ∧ s.samples = x :: l ∧ x.tap < 32 ∧ (s.reg (offMcgA 0x20400)).toNat < 256) :=
  ⟨⟨{ base with nextId := 5, groups := [(3, { members := 3 })], staging := [mst] }, 0, mst, 3, mc1, by decide⟩,
    ⟨{ base with nextId := 5, groups := [(3, { members := 3, pending := [(1, 96)] })], staging := [mst], cfg := { cfg1 with mcasts := [(3, { mc1 with policy := .atomicAdmit })] } },
      0, mst, 3, { mc1 with policy := .atomicAdmit }, by decide⟩,
    ⟨{ base with groups := [(3, { members := 3, pending := [(1, 96)] })], mcWaits := [wt] }, 0, wt, mc1, by decide⟩,
    ⟨{ base with mcWaits := [{ wt with since := 999999900001 }] }, 0, { wt with since := 999999900001 }, mc1, by decide⟩,
    ⟨{ base with groups := [(3, { parked := [pkd] })] }, 3, 1, mc1, pkd, 16, by decide⟩,
    ⟨{ base with groups := [(3, { parked := [pkd] })] }, 3, 1, mc1, pkd, by decide⟩,
    ⟨{ base with mode := .safe, groups := [(3, { parked := [pkd] })] }, 3, 1, mc1, pkd, by decide⟩,
    ⟨{ base with reports := [rpt] }, rpt, [], mc1, { upPort := 0, ds := [{ port := 8, chip := 0 }, { port := 16, chip := 0 }] }, by decide⟩,
    ⟨base, by decide⟩,
    ⟨{ base with samples := [smp] }, smp, [], by decide⟩,
    ⟨{ base with samples := [smp] }, smp, [], by decide⟩⟩

theorem witness_VfControlsActOnOneFunction :
    (∃ (s : State) (n : TenantId) (w : _) (l : _), Safety.Canonical s ∧ (s.tenantRec n).isSome = true ∧ tfind s.evict n = none ∧
        (s.vf n).flr = none ∧ s.inRunModes = true ∧ (s.vf n).ntfy = w :: l) ∧
    (∃ (s : State) (n : TenantId) (w : _) (l : _) (be : BitVec 4), Safety.Canonical s ∧ (s.tenantRec n).isSome = true ∧ tfind s.evict n = none ∧
        (s.vf n).flr = none ∧ s.inRunModes = true ∧ (s.vf n).ntfy = w :: l ∧ be ≠ 15) ∧
    (∃ (s : State) (n : TenantId), Safety.Canonical s ∧ (s.tenantRec n).isSome = true ∧ tfind s.evict n = none ∧ (s.vf n).flr = none ∧
        s.inRunModes = true ∧ (s.vf n).ntfy = []) ∧
    (∃ (s : State) (n : TenantId), Safety.Canonical s ∧ (s.tenantRec n).isSome = true ∧ tfind s.evict n = none ∧ (s.vf n).flr = none ∧
        s.inRunModes = true) ∧
    (∃ (s : State) (n : TenantId),
        ((s.tenantRec n).isNone = true ∨ (tfind s.evict n).isSome = true ∨ (s.vf n).flr.isSome = true ∨ s.inRunModes = false)) ∧
    (∃ (s : State) (n : TenantId), Safety.Canonical s ∧ (s.tenantRec n).isSome = true ∧ s.inRunModes = true) ∧
    (∃ (s : State) (n : TenantId), Safety.Canonical s ∧ (s.tenantRec n).isSome = true ∧ s.inRunModes = true ∧ (s.vf n).flr = none) ∧
    (∃ (s : State) (n : TenantId), Safety.Canonical s ∧ (s.tenantRec n).isSome = true ∧ s.inRunModes = true ∧ (s.vf n).flr.isSome = true) ∧
    (∃ (s : State) (n : TenantId) (x : Nat), Safety.Canonical s ∧ (s.vf n).flr = some x ∧ vfOpen s n = []) ∧
    (∃ (s : State) (n : TenantId) (x : Nat), Safety.Canonical s ∧ (s.vf n).flr = some x ∧ vfOpen s n ≠ [] ∧ s.clock < x + 90000000) ∧
    (∃ (s : State) (n : TenantId) (x : Nat), Safety.Canonical s ∧ (s.vf n).flr = some x ∧ x + 90000000 ≤ s.clock) ∧
    (∃ (s : State) (n : TenantId) (u : Nat) (j : Job) (l : List Job) (f : Fanout), (s.vf n).jobs = j :: l ∧ vfHalted s n = false ∧
        descOp (s.vf n) j.entry = 4 ∧ j.fail = 0 ∧ j.told = false ∧ (poolRec s).fanout[descList (s.vf n) j.entry]? = some f ∧ consumers s f = [u] ∧
        u ≠ n.val ∧ tfind s.evict u = none ∧ (s.vf u).flr = none ∧ (s.vf u).ntfy.length < 64) :=
  ⟨⟨{ base with vfs := [(1, { ntfy := [7] })] }, 1, 7, ([] : List W32), by decide⟩,
    ⟨{ base with vfs := [(1, { ntfy := [7] })] }, 1, 7, ([] : List W32), (14 : BitVec 4), by decide⟩,
    ⟨base, 1, by decide⟩,
    ⟨base, 1, by decide⟩,
    ⟨{ base with evict := [(1, 2)] }, 1, by decide⟩,
    ⟨{ base with evict := [(1, 2)] }, 1, by decide⟩,
    ⟨base, 1, by decide⟩,
    ⟨{ base with vfs := [(1, { flr := some 5 })] }, 1, by decide⟩,
    ⟨{ base with vfs := [(255, { flr := some 5 })] }, 255, 5, by decide⟩,
    ⟨{ base with clock := 90000004, vfs := [(1, { flr := some 5 })], tracker := [{ trk with owner := 1, src := { port := 0x7E } }] }, 1, 5, by decide⟩,
    ⟨{ base with clock := 90000005, vfs := [(1, { flr := some 5 })] }, 1, 5, by decide⟩,
    ⟨{ base with vfs := [(1, { bme := true, ring := [(0, 4)], jobs := [{ entry := 0 }] })] }, 1, 2, { entry := 0 }, [],
      { region := 1, producer := 1 }, by decide⟩⟩

theorem witness_WindowAndEngineAccessThePool :
    (∃ (s : State) (n : TenantId) (a : WinAccess) (c : _) (x : _), Safety.Canonical s ∧ s.inRunModes = true ∧ (s.tenantRec n).isSome = true ∧
        tfind s.evict n = none ∧ a.kind = .mwr ∧ s.poison = [] ∧
        translate s n a.offset a.data.length .mwr (isPriv (winTlp a) a.priv) (isExe (winTlp a)) = .ok c x) ∧
    (∃ (s : State) (n : TenantId) (a : WinAccess) (c : _) (x : _), Safety.Canonical s ∧ s.inRunModes = true ∧ (s.tenantRec n).isSome = true ∧
        tfind s.evict n = none ∧ a.kind = .mrd ∧ s.poison = [] ∧ a.err = none ∧ 0 < a.len ∧ x % mpsOf s n + a.len ≤ mpsOf s n ∧
        translate s n a.offset a.len .mrd (isPriv (winTlp a) a.priv) (isExe (winTlp a)) = .ok c x) ∧
    (∃ (s : State) (n : TenantId) (a : WinAccess) (w : _), Safety.Canonical s ∧ s.inRunModes = true ∧ (s.tenantRec n).isSome = true ∧
        tfind s.evict n = none ∧ a.kind = .mrd ∧ translate s n a.offset a.len .mrd (isPriv (winTlp a) a.priv) (isExe (winTlp a)) = .window w) ∧
    (∃ (s : State) (n : TenantId), (s.inRunModes = false ∨ (s.tenantRec n).isNone = true ∨ (tfind s.evict n).isSome = true)) ∧
    (∃ (s : State) (n : TenantId), Safety.Canonical s ∧ mayStartDesc s n = true) ∧
    (∃ (s : State) (n : TenantId), mayStartDesc s n = false) ∧
    (∃ (s : State) (n : TenantId), (vfHalted s n = true ∨ (s.vf n).jobs = [])) ∧
    (∃ (s : State) (n : TenantId) (j : Job), Safety.Canonical s ∧ tsorted 0 (s.vf n).ring = true ∧ vfHalted s n = false ∧ (s.vf n).jobs = [j] ∧
        descIrq (s.vf n) j.entry = false ∧ (j.fail ≠ 0 ∨ descOp (s.vf n) j.entry = 0)) ∧
    (∃ (s : State) (n : TenantId) (j : Job) (c : _) (x : _) (d : _) (z : _), Safety.Canonical s ∧ tsorted 0 (s.vf n).ring = true ∧
        vfHalted s n = false ∧ (s.vf n).jobs = [j] ∧ descIrq (s.vf n) j.entry = false ∧ j.fail = 0 ∧ descOp (s.vf n) j.entry = 3 ∧ s.poison = [] ∧
        0 < descLen (s.vf n) j.entry ∧ descSrc (s.vf n) j.entry % 4096 + descLen (s.vf n) j.entry ≤ 4096 ∧
        descDst (s.vf n) j.entry % 4096 + descLen (s.vf n) j.entry ≤ 4096 ∧
        translate s n (descSrc (s.vf n) j.entry) (descLen (s.vf n) j.entry) .mrd false false = .ok c x ∧
        translate s n (descDst (s.vf n) j.entry) (descLen (s.vf n) j.entry) .mwr false false = .ok d z) :=
  ⟨⟨win, 1, { kind := .mwr, offset := 0x3FFFFFF, len := 1, data := [5] }, 0, 0x3FFFFFF, by decide⟩,
    ⟨win, 1, { kind := .mrd, offset := 64, len := 64 }, 0, 64, by decide⟩,
    ⟨win, 1, { kind := .mrd, offset := 0x4000000, len := 64 }, 1, by decide⟩,
    ⟨base, 3, by decide⟩,
    ⟨{ base with vfs := [(1, { bme := true, tail := 1 })] }, 1, by decide⟩,
    ⟨base, 1, by decide⟩,
    ⟨base, 1, by decide⟩,
    ⟨{ base with vfs := [(1, { bme := true, jobs := [{ entry := 0 }] })] }, 1, { entry := 0 }, by decide⟩,
    ⟨{ win with vfs := [(1, { bme := true, ring := [(0, 3), (1, 64), (4, 4096)], jobs := [{ entry := 0 }] })] }, 1, { entry := 0 }, 0, 0, 0, 4096,
      by decide⟩⟩

theorem witness_ChannelsAndLotsComeUpAndAreLost :
    (∃ (s : State) (c : ChanId) (p : ChannelProbe) (r : PoolRec), Safety.Canonical s ∧ s.cfg.pool = some r ∧ s.mode = .assay ∧ (s.chan c).st < 2 ∧
        bitN r.chMask c = true ∧ bringupCause s c p = 0) ∧
    (∃ (s : State) (c : ChanId) (p : ChannelProbe) (r : PoolRec), Safety.Canonical s ∧ s.cfg.pool = some r ∧ s.mode = .assay ∧ (s.chan c).st < 2 ∧
        bitN r.chMask c = true ∧ bringupCause s c p ≠ 0) ∧
    (∃ (s : State) (c : ChanId), (s.chan c).st = 2 ∧ fillPending s c = 0 ∧ (s.chan c).lastUse + 1000 * (poolRec s).srIdleUs ≤ s.clock) ∧
    (∃ (s : State) (c : ChanId), (s.chan c).st = 2 ∧ fillPending s c = 0 ∧ s.clock < (s.chan c).lastUse + 1000 * (poolRec s).srIdleUs) ∧
    (∃ (s : State) (l : Fin 8192), (s.lot l).st = 2 ∧ (s.chan (l.val / 4096)).st = 2 ∧ fillTurn s l = true) ∧
    (∃ (s : State) (c : ChanId), (s.chan c).st = 2 ∧ (s.chan c).initFill = true) ∧
    (∃ (s : State) (c : ChanId) (n : _) (b : _), (s.chan c).st = 2 ∧ Safety.Canonical s ∧ (b = true ∨ n < 3)) ∧
    (∃ (s : State) (c : ChanId) (n : _), (s.chan c).st = 2 ∧ 3 ≤ n ∧ bitN (poolRec s).chMask c = true) ∧
    (∃ (s : State) (c : ChanId), (s.chan c).st = 2 ∧ bitN (poolRec s).chMask c = false) ∧
    (∃ (s : State) (c : ChanId), (s.chan c).st = 2 ∧ bitN (poolRec s).chMask c = true) ∧
    (∃ (s : State) (c : ChanId), (s.chan c).st = 2 ∧ bitN (poolRec s).chMask c = true ∧ (poolRec s).ueLimit < (s.chan c).ueSecond) ∧
    (∃ (s : State) (c : ChanId), (s.chan c).st = 2 ∧ (s.chan c).ueSecond ≤ (poolRec s).ueLimit) :=
  ⟨⟨{ base with mode := .assay }, 0, { spdOk := true, modules := 2, capGib := 64, trained := true },
      { chMask := 3, capGib0 := 64, fanout := [{ region := 1, producer := 1 }], runs := [{ firstLot := 0, count := 1, tenant := 1, firstSlot := 0 }] },
      by decide⟩,
    ⟨{ base with mode := .assay }, 1, { spdOk := true, modules := 2, capGib := 64, trained := true },
      { chMask := 3, capGib0 := 64, fanout := [{ region := 1, producer := 1 }], runs := [{ firstLot := 0, count := 1, tenant := 1, firstSlot := 0 }] },
      by decide⟩,
    ⟨{ base with chans := [(1, { st := 2, lastUse := 999999900000 })] }, 1, by decide⟩,
    ⟨{ base with chans := [(1, { st := 2, lastUse := 999999900001 })] }, 1, by decide⟩,
    ⟨{ base with chans := [(1, { st := 2 })], lots := [(8191, { st := 2 })] }, 8191, by decide⟩,
    ⟨{ base with chans := [(1, { st := 2, initFill := true })] }, 1, by decide⟩,
    ⟨{ base with chans := [(1, { st := 2 })] }, 1, 2, false, by decide⟩,
    ⟨{ base with chans := [(1, { st := 2 })] }, 1, 3, by decide⟩,
    ⟨{ base with cfg := { cfg1 with pool := some { chMask := 1 } }, chans := [(1, { st := 2 })] }, 1, by decide⟩,
    ⟨{ base with chans := [(1, { st := 2 })] }, 1, by decide⟩,
    ⟨{ base with chans := [(1, { st := 2, ueSecond := 65 })] }, 1, by decide⟩,
    ⟨{ base with chans := [(1, { st := 2, ueSecond := 64 })] }, 1, by decide⟩⟩

end Sys2Proof.Tests
end

section
/-! What verification refuses: an ingot below the security minimum (R44). -/

namespace Sys2Proof.Machine

/-- A check that fails stops the list of checks: there is a first bad one. -/
theorem firstBad_ne_none_of_mem {l : List (Bool × Nat)} {o : Nat} (h : (true, o) ∈ l) : firstBad l ≠ none := by
  induction l with
  | nil => simp at h
  | cons e r ih =>
    obtain ⟨b, c⟩ := e
    cases b with
    | true => simp [firstBad]
    | false => simpa [firstBad] using ih (by simpa using h)

/-- The check of SEC_VERSION stands among the header checks. -/
theorem headerErr_ne_none_of_rollback {s : State} {img : FlashSlot} {i : Nat} (h : (slotHeader img i).secVersion < s.keys.minSec) :
    headerErr s img i ≠ none :=
  firstBad_ne_none_of_mem (o := 0x06) (by simp [h])

/-- A slot whose header checks fail has an ING_CAUSE. -/
theorem slotErr_ne_none_of_headerErr {s : State} {img : FlashSlot} {i : Nat} (h : headerErr s img i ≠ none) : slotErr s img i ≠ none := by
  unfold slotErr
  split
  · simp
  · contradiction

/-- Settles O14: SEC_VERSION is one of the header checks, and a slot that fails a header check does not verify. -/
theorem rollbackIsRefused : Obligations.RollbackIsRefused :=
  fun _ _ _ h => slotErr_ne_none_of_headerErr (headerErr_ne_none_of_rollback h)

end Sys2Proof.Machine
end

section
/-! The mode changes of Table 2.11, and a state in which one ADMIT makes two of them. -/

namespace Sys2Proof.Machine.TwoWrites

/-- A write of the manager's host to MBX_CTL and what follows it, waiting for the housekeeping controller under identifier 0. -/
def mbxWrite (data : List Byte) : Staged :=
  { id := 0, key := .block 3, tlp := { kind := .mwr, addr := 0x20004, len := data.length, data := data }, src := { port := 0 },
    owner := ownerM, cls := 0, dest := .housekeeping, isOpen := false }

/-- GO, and behind it MBX_CMD with ENTER_MAINT; and GO alone. -/
def goThenEnterMaint : List Byte := [1, 0, 0, 0, 0, 0, 0, 0, 0x0C, 4, 0, 0]
def go : List Byte := [1, 0, 0, 0]

/-- Safe at unlock level 2, with RESUME in MBX_CMD and the MF's vector 0 unmasked. Both writes that wait, and the next TLP to be formed, bear
identifier 0, which no state after reset does. -/
def start : State :=
  { State.reset with
    mode := .safe, hkRunning := true, sec := { level := 2 }
    cfg := { device := some { managerVh := 0 }, vhs := [(0, { upPort := 0 })], amend := some { warmResume := true } }
    vhs := [(0, { mfBar0 := some 0 })]
    mbx := { owner := some .mf, cmd := 0x10 }
    regs := [(offMsix 12, 1)]
    staging := [mbxWrite goThenEnterMaint, mbxWrite go] }

def admitHk : Instr := .admitTlp { key := .block 3, ecc := none }

/-- The first write resumes to Run and its response's MSI-X write takes identifier 0 again, so that ADMIT goes on to the second write, which
enters Maintenance. -/
theorem admitHk_enters_maintenance : ∃ t, exec admitHk start = .next t ∧ t.mode = .maintenance := ⟨_, rfl, by decide⟩

end Sys2Proof.Machine.TwoWrites

namespace Sys2Proof.Machine

/-- Refutes O3: the statement allows any state, and with identifiers that collide one ADMIT delivers two mailbox writes, RESUME and then
ENTER_MAINT, and takes the device from Safe to Maintenance, which Table 2.11 does not have. -/
theorem not_modeChangesOnlyByTable211 : ¬ Obligations.ModeChangesOnlyByTable211 := by
  rintro ⟨h, -⟩
  obtain ⟨t, ht, hm⟩ := TwoWrites.admitHk_enters_maintenance
  have hs : TwoWrites.start.mode = .safe := rfl
  obtain ⟨event, -, -⟩ := h TwoWrites.admitHk TwoWrites.start t ht (by simp [hm, hs])
  simp [hm, hs, Safety.modeEvent] at event

end Sys2Proof.Machine
end

section
/-! What leaves the mode alone, and what leaves Factory alone (R59). A function of the model that no branch of which writes the mode has a
lemma `f_mode`; one that can change the mode, but not out of Factory, has a lemma `f_factory`. They stand in the order of the model's files. -/

namespace Sys2Proof.Machine

/-! ### Folds over the state -/

/-- A step of a fold that leaves the mode as it was. -/
def KeepsMode {α : Type} (f : State → α → State) : Prop := ∀ a x, (f a x).mode = a.mode

@[simp] theorem keepsMode_iff {α : Type} (f : State → α → State) : KeepsMode f ↔ ∀ a x, (f a x).mode = a.mode := Iff.rfl

@[simp] theorem foldl_mode {α : Type} (f : State → α → State) (l : List α) (s : State) (h : KeepsMode f) :
    (l.foldl f s).mode = s.mode := by
  induction l generalizing s with
  | nil => rfl
  | cons x r ih => rw [List.foldl_cons, ih, h]

@[simp] theorem mode_ite (c : Prop) [Decidable c] (a b : State) : (if c then a else b).mode = if c then a.mode else b.mode :=
  apply_ite State.mode c a b

/-- A step of a fold that does not leave Factory. -/
def StaysFactory {α : Type} (f : State → α → State) : Prop := ∀ a x, a.mode = .factory → (f a x).mode = .factory

theorem foldl_factory {α : Type} (f : State → α → State) (l : List α) (s : State) (h : StaysFactory f) (hs : s.mode = .factory) :
    (l.foldl f s).mode = .factory := by
  induction l generalizing s with
  | nil => exact hs
  | cons x r ih => exact ih _ (h s x hs)

/-- The outcome of a command that Factory outlives. -/
def KeepsFactory (o : Host.Outcome State Fault Refusal) : Prop := ∃ t, o = .next t ∧ t.mode = .factory

@[simp] theorem keepsFactory_next {t : State} : KeepsFactory (.next t) ↔ t.mode = .factory :=
  ⟨fun ⟨_, he, hf⟩ => by cases he; exact hf, fun hf => ⟨t, rfl, hf⟩⟩

/-! ### The mode through `Ops.lean` -/

@[simp] theorem signalRail_mode (s : State) (q kind : Nat) : (signalRail s q kind).mode = s.mode := rfl

@[simp] theorem sendMsg_mode (s : State) (q : Nat) (m : Msg) : (sendMsg s q m).mode = s.mode := by simp [sendMsg]

@[simp] theorem report_mode (s : State) (src inst kind : Nat) (owner : Option Owner) (port : Nat) (detail : Option Nat)
    (dest : Option (Nat × Nat)) : (report s src inst kind owner port detail dest).mode = s.mode := by
  simp [report]

@[simp] theorem reportPort_mode (s : State) (p kind : Nat) (owner : Option Owner) (detail : Option Nat)
    (dest : Option (Nat × Nat)) : (reportPort s p kind owner detail dest).mode = s.mode := by
  simp [reportPort]

@[simp] theorem reportConflict_mode (s : State) (code : Nat) (seq : Byte) (path : Path) :
    (reportConflict s code seq path).mode = s.mode := by
  simp [reportConflict]

/-! ### The mode through `Buffer.lean` -/

@[simp] theorem setThresholds_mode (s : State) : (setThresholds s).mode = s.mode := rfl

@[simp] theorem clearBuffer_mode (s : State) : (clearBuffer s).mode = s.mode := rfl

@[simp] theorem takeCells_mode (s : State) (o c e n : Nat) : (takeCells s o c e n).mode = s.mode := rfl

@[simp] theorem freeCells_mode (s : State) (o c e n : Nat) : (freeCells s o c e n).mode = s.mode := rfl

@[simp] theorem takeBanks_mode (s : State) (n : Nat) : (takeBanks s n).mode = s.mode := rfl

@[simp] theorem freeBanks_mode (s : State) (l : List Nat) : (freeBanks s l).mode = s.mode := rfl

@[simp] theorem unstage_mode (s : State) (id : Nat) : (unstage s id).mode = s.mode := rfl

@[simp] theorem modStaged_mode (s : State) (id : Nat) (f : Staged → Staged) : (modStaged s id f).mode = s.mode := rfl

@[simp] theorem modDesc_mode (s : State) (id : Nat) (f : Desc → Desc) : (modDesc s id f).mode = s.mode := rfl

@[simp] theorem mcUnref_mode (s : State) (e : Nat) : (mcUnref s e).mode = s.mode := by simp [mcUnref]

@[simp] theorem unpend_mode (s : State) (g d n : Nat) : (unpend s g d n).mode = s.mode := rfl

@[simp] theorem enqueue_mode (s : State) (d : Desc) : (enqueue s d).mode = s.mode := by simp [enqueue]

@[simp] theorem leaveRing_mode (s : State) (p c : Nat) : (leaveRing s p c).mode = s.mode := by simp [leaveRing]

@[simp] theorem noteEnded_mode (s : State) (isOpen : Bool) (id origin ingress : Nat) :
    (noteEnded s isOpen id origin ingress).mode = s.mode := by
  simp [noteEnded]

@[simp] theorem removeDesc_mode (s : State) (d : Desc) : (removeDesc s d).mode = s.mode := by
  unfold removeDesc; split <;> simp

/-! ### The mode through `Tracker.lean` -/

@[simp] theorem countFabLoss_mode (s : State) (o : Owner) (n : Nat) : (countFabLoss s o n).mode = s.mode := rfl

@[simp] theorem present_mode (s : State) (b : Nat) (from_ : Src) (o : Owner) (d : Dest) (t : Tlp) :
    (present s b from_ o d t).mode = s.mode :=
  rfl

@[simp] theorem sendMsix_mode (s : State) (b port : Nat) (o : Owner) (vn : Nat) (rid : W16) (lo hi data : W32) :
    (sendMsix s b port o vn rid lo hi data).mode = s.mode := by
  unfold sendMsix; split <;> simp

@[simp] theorem answer_mode (s : State) (b at_ : Nat) (src : Src) (o : Owner) (t : Tlp) :
    (answer s b at_ src o t).mode = s.mode := by
  unfold answer; split <;> simp

@[simp] theorem answerStatus_mode (s : State) (b at_ : Nat) (src : Src) (o : Owner) (t : Tlp) (st : CplStatus) :
    (answerStatus s b at_ src o t st).mode = s.mode := by
  simp [answerStatus]

theorem trackDesc_mode (s t : State) (d : Desc) (h : trackDesc s d = some t) : t.mode = s.mode := by
  simp only [trackDesc] at h
  repeat' split at h
  all_goals simp at h
  all_goals subst h; simp

@[simp] theorem freeTrk_mode (s : State) (id : Nat) : (freeTrk s id).mode = s.mode := rfl

@[simp] theorem modTrk_mode (s : State) (id : Nat) (f : Trk → Trk) : (modTrk s id f).mode = s.mode := rfl

@[simp] theorem ideqAdd_mode (s : State) (k : IdeKey) : (ideqAdd s k).mode = s.mode := by simp [ideqAdd]

@[simp] theorem retire_mode (s : State) (e : Trk) (st : CplStatus) : (retire s e st).mode = s.mode := by simp [retire]

@[simp] theorem lateDiscard_mode (s : State) (p : Nat) (d : Desc) : (lateDiscard s p d).mode = s.mode := by
  simp [lateDiscard]

@[simp] theorem endTrk_mode (s : State) (d : Desc) (lost : Bool) : (endTrk s d lost).mode = s.mode := by
  unfold endTrk; split
  · rfl
  · split
    · split <;> simp
    · simp

@[simp] theorem cutShort_mode (s : State) (p : Nat) (d : Desc) (lost : Bool) : (cutShort s p d lost).mode = s.mode := by
  simp [cutShort]

/-! ### The mode through `Contain.lean` -/

@[simp] theorem dropReport_mode (s : State) (g : Nat) : (dropReport s g).mode = s.mode := by simp [dropReport]

@[simp] theorem missCopies_mode (s : State) (g seq time cause : Nat) (missed : W64) :
    (missCopies s g seq time cause missed).mode = s.mode := by
  unfold missCopies; dsimp only; repeat' split
  all_goals simp

@[simp] theorem missDesc_mode (s : State) (d : Desc) (cause : Nat) : (missDesc s d cause).mode = s.mode := by
  unfold missDesc; split <;> simp

@[simp] theorem dropParked_mode (s : State) (g k cause : Nat) : (dropParked s g k cause).mode = s.mode := by
  simp [dropParked]

@[simp] theorem dropParkedTo_mode (s : State) (p : Nat) : (dropParkedTo s p).mode = s.mode := by
  unfold dropParkedTo
  refine foldl_mode _ _ _ (fun a x => ?_)
  split <;> simp

@[simp] theorem dropReportsOf_mode (s : State) (p : Nat) : (dropReportsOf s p).mode = s.mode := by simp [dropReportsOf]

@[simp] theorem fabDiscard_mode (s : State) (p : Nat) : (fabDiscard s p).mode = s.mode := by
  simp only [fabDiscard]
  rw [foldl_mode _ _ _ (by simp), State.bump_mode, State.bump_mode, foldl_mode]
  intro a d
  dsimp only; split <;> simp

@[simp] theorem countCtnDrop_mode (s : State) (p : Nat) (o : Owner) : (countCtnDrop s p o).mode = s.mode := by
  rw [countCtnDrop, State.bump_mode, State.bump_mode]

@[simp] theorem linkToDisabled_mode (s : State) (p cause : Nat) : (linkToDisabled s p cause).mode = s.mode := by
  simp [linkToDisabled]

@[simp] theorem stopTx_mode (s : State) (p : Nat) : (stopTx s p).mode = s.mode := by
  unfold stopTx; dsimp only; split <;> simp

@[simp] theorem dropTx_mode (s : State) (p : Nat) : (dropTx s p).mode = s.mode := by
  unfold dropTx; dsimp only; split <;> simp

@[simp] theorem dropStaging_mode (s : State) (p : Nat) : (dropStaging s p).mode = s.mode := by simp [dropStaging]

@[simp] theorem contain_mode (s : State) (p cause : Nat) : (contain s p cause).mode = s.mode := by simp [contain]

@[simp] theorem dropQueued_mode (s : State) (p : Nat) (d : Desc) : (dropQueued s p d).mode = s.mode := by
  unfold dropQueued; split
  · split <;> simp
  · simp

@[simp] theorem containFinish_mode (s : State) (p : Nat) : (containFinish s p).mode = s.mode := by simp [containFinish]

@[simp] theorem beginTraining_mode (s : State) (p : Nat) : (beginTraining s p).mode = s.mode := by simp [beginTraining]

@[simp] theorem releasePort_mode (s : State) (p : Nat) : (releasePort s p).mode = s.mode := by simp [releasePort]

@[simp] theorem countQblock_mode (s : State) (p : Nat) (o : Option Owner) : (countQblock s p o).mode = s.mode := by
  unfold countQblock; split <;> simp

@[simp] theorem degrade_factory (s : State) (h : s.mode = .factory) : (degrade s).mode = .factory := by
  simp [degrade, h]

@[simp] theorem recoverMode_factory (s : State) (h : s.mode = .factory) : (recoverMode s).mode = .factory := by
  simp [recoverMode, h]

@[simp] theorem stationUnusable_factory (s : State) (i : Nat) (h : s.mode = .factory) :
    (stationUnusable s i).mode = .factory := by
  simp [stationUnusable, h]

/-! ### The mode through `Errors.lean` -/

@[simp] theorem sendErrMsg_mode (s : State) (x : PortChip) (code : Byte) : (sendErrMsg s x code).mode = s.mode := by
  unfold sendErrMsg; split <;> simp

@[simp] theorem logCorrectable_mode (s : State) (x : PortChip) (bit : Nat) :
    (logCorrectable s x bit).mode = s.mode := by
  simp [logCorrectable]

@[simp] theorem dpcContain_mode (s : State) (p cause : Nat) (reason : BitVec 2) :
    (dpcContain s p cause reason).mode = s.mode := by
  simp [dpcContain]

@[simp] theorem dpcTrigger_mode (s : State) (x : PortChip) (bit : Nat) : (dpcTrigger s x bit).mode = s.mode := by
  simp [dpcTrigger]

@[simp] theorem logHdr_mode (s : State) (x : PortChip) (bit : Nat) (hdr : Option (List Nat)) :
    (logHdr s x bit hdr).mode = s.mode := by
  unfold logHdr; split <;> simp

@[simp] theorem logUncorrectable_mode (s : State) (x : PortChip) (bit : Nat) (hdr : Option (List Nat)) :
    (logUncorrectable s x bit hdr).mode = s.mode := by
  simp [logUncorrectable]

@[simp] theorem noteKex_mode (s : State) (x : PortChip) (level kind o : Nat) :
    (noteKex s x level kind o).mode = s.mode :=
  rfl

@[simp] theorem logHere_mode (s : State) (x : PortChip) (unc flow : Bool) (bit kind o : Nat) (hdr : Option (List Nat)) :
    (logHere s x unc flow bit kind o hdr).mode = s.mode := by
  simp [logHere]

@[simp] theorem logAt_mode (s : State) (x : PortChip) (unc flow : Bool) (bit kind o : Nat) (t : Option Tlp) :
    (logAt s x unc flow bit kind o t).mode = s.mode := by
  simp only [logAt, mode_ite, dpcTrigger_mode, logHere_mode, present_mode, ite_self]

@[simp] theorem linkError_mode (s : State) (p : Nat) (unc : Bool) (bit : Nat) (hdr : Option Tlp) :
    (linkError s p unc bit hdr).mode = s.mode := by
  unfold linkError; dsimp only; split <;> simp

@[simp] theorem flowError_mode (s : State) (src kind bit : Nat) (o : Owner) (p : Nat) (d : Option PortChip)
    (hdr : Option Tlp) (detail : Option Nat) (inst : Nat) :
    (flowError s src kind bit o p d hdr detail inst).mode = s.mode := by
  unfold flowError; split <;> simp

@[simp] theorem internalError_mode (s : State) (level kind : Nat) (o : Owner) (p : Nat) (d : Option PortChip) :
    (internalError s level kind o p d).mode = s.mode := by
  unfold internalError; split <;> simp

@[simp] theorem remoteReport_mode (s : State) (t : Tlp) : (remoteReport s t).mode = s.mode := by simp [remoteReport]

/-! ### The mode through `Gates.lean` -/

@[simp] theorem writeFault_mode (s : State) (t : Nat) (e : List Nat) : (writeFault s t e).mode = s.mode := by
  simp [writeFault]

theorem rejectAt_mode (s : State) (src : Nat) (x : Denied) (cause bad region : Nat) (rep : State → State)
    (h : ∀ a, (rep a).mode = a.mode) : (rejectAt s src x cause bad region rep).mode = s.mode := by
  simp [rejectAt, h]

@[simp] theorem gateReject_mode (s : State) (src p t : Nat) (d : Option PortChip) (hdr : Option Tlp) (x : Denied)
    (matched : Bool) (cause bad region : Nat) : (gateReject s src p t d hdr x matched cause bad region).mode = s.mode :=
  rejectAt_mode _ _ _ _ _ _ _ (fun _ => flowError_mode ..)

/-! ### The mode through `PoolErr.lean` -/

@[simp] theorem vfMessage_mode (s : State) (t k : Nat) : (vfMessage s t k).mode = s.mode := by
  unfold vfMessage; split <;> simp

@[simp] theorem sendVf_mode (s : State) (t k : Nat) : (sendVf s t k).mode = s.mode := by simp [sendVf]

@[simp] theorem flushMsix_mode (s : State) (t : Nat) : (flushMsix s t).mode = s.mode := by simp [flushMsix]

@[simp] theorem raiseVf_mode (s : State) (t b : Nat) : (raiseVf s t b).mode = s.mode := by simp [raiseVf]

@[simp] theorem countSecond_mode (s : State) (c : Nat) : (countSecond s c).mode = s.mode := State.modChan_mode ..

@[simp] theorem countUe_mode (s : State) (c line : Nat) (o : Option Nat) : (countUe s c line o).mode = s.mode := by
  simp only [countUe, report_mode]; split <;> simp

@[simp] theorem countCe_mode (s : State) (c : Nat) : (countCe s c).mode = s.mode := by simp [countCe]

@[simp] theorem poisonLine_mode (s : State) (c line : Nat) : (poisonLine s c line).mode = s.mode := by simp [poisonLine]

@[simp] theorem meetError_mode (s : State) (c : Nat) (e : LineError) : (meetError s c e).mode = s.mode := by
  unfold meetError; split <;> simp

@[simp] theorem touchChan_mode (s : State) (c : Nat) : (touchChan s c).mode = s.mode := rfl

/-! ### The mode through `Mcast.lean` -/

@[simp] theorem sampleTaps_mode (s : State) (p : Nat) (egress : Bool) (o : Owner) (t : Tlp) :
    (sampleTaps s p egress o t).mode = s.mode := by
  simp [sampleTaps]

@[simp] theorem writerWrite_mode (s : State) (v addr : Nat) (data : List Byte) :
    (writerWrite s v addr data).mode = s.mode := by
  unfold writerWrite; split <;> simp

@[simp] theorem writeSample_mode (s : State) (x : Sample) : (writeSample s x).mode = s.mode := by
  unfold writeSample; dsimp only; split <;> simp

theorem execSampleWrite_factory (writerFull : Bool) (s : State) (h : s.mode = .factory) :
    KeepsFactory (execSampleWrite writerFull s) := by
  unfold execSampleWrite; simp only [keepsFactory_next]; split <;> simp [h]

@[simp] theorem writeReport_mode (s : State) (r : Report) : (writeReport s r).mode = s.mode := by
  unfold writeReport; split <;> simp

theorem execDeliveryReportWrite_factory (s : State) (h : s.mode = .factory) :
    KeepsFactory (execDeliveryReportWrite s) := by
  unfold execDeliveryReportWrite; simp only [keepsFactory_next]; split <;> simp [h]

@[simp] theorem McRun.miss_mode (r : McRun) (k c : Nat) : (r.miss k c).st.mode = r.st.mode := rfl

@[simp] theorem queueCopy_mode (r : McRun) (x : Staged) (g : Nat) (m : McastRec) (k e n : Nat) :
    (queueCopy r x g m k e n).st.mode = r.st.mode := by
  unfold queueCopy; dsimp only; split <;> simp

@[simp] theorem touchSpill_mode (s : State) : (touchSpill s).mode = s.mode := by
  unfold touchSpill; split <;> simp

@[simp] theorem parkCopy_mode (r : McRun) (x : Staged) (g k n seq : Nat) :
    (parkCopy r x g k n seq).st.mode = r.st.mode := by
  simp [parkCopy]

@[simp] theorem enterFallback_mode (s : State) (g k t : Nat) : (enterFallback s g k t).mode = s.mode := by
  simp [enterFallback]

@[simp] theorem deliverOne_mode (x : Staged) (g : Nat) (m : McastRec) (n e seq : Nat) (r : McRun) (k : Nat) :
    (deliverOne x g m n e seq r k).st.mode = r.st.mode := by
  simp only [deliverOne]; repeat' split
  all_goals simp

@[simp] theorem missDead_mode (x : Staged) (m : McastRec) (r : McRun) (k : Nat) :
    (missDead x m r k).st.mode = r.st.mode := by
  simp only [missDead]; repeat' split
  all_goals simp

@[simp] theorem missGate_mode (x : Staged) (m : McastRec) (r : McRun) (k : Nat) :
    (missGate x m r k).st.mode = r.st.mode := by
  unfold missGate; split <;> simp

@[simp] theorem startCopies_mode (s : State) (x : Staged) (g : Nat) : (startCopies s x g).1.mode = s.mode := by
  simp [startCopies]

/-- A run over destinations leaves the mode as each of its steps does. -/
theorem foldl_st_mode (f : McRun → Nat → McRun) (h : ∀ r k, (f r k).st.mode = r.st.mode) (l : List Nat) (r : McRun) :
    (l.foldl f r).st.mode = r.st.mode := by
  induction l generalizing r with
  | nil => rfl
  | cons k l ih => rw [List.foldl_cons, ih, h]

@[simp] theorem deliverCopies_mode (s : State) (w : McWait) (m : McastRec) (timedOut : Bool) :
    (deliverCopies s w m timedOut).mode = s.mode := by
  simp only [deliverCopies]
  simp only [mode_ite, missCopies_mode, mcUnref_mode, noteEnded_mode, ite_self]
  split
  · rw [foldl_st_mode _ (by simp), report_mode, State.setEvt_mode, foldl_st_mode _ (by simp)]
  · rw [foldl_st_mode _ (by simp), foldl_st_mode _ (by simp), foldl_st_mode _ (by simp)]

@[simp] theorem countWait_mode (s : State) (x : Staged) : (countWait s x).mode = s.mode := by simp [countWait]

@[simp] theorem mcStart_mode (s : State) (p : PortId) : (mcStart s p).mode = s.mode := by
  unfold mcStart; split
  · rfl
  · split
    · rfl
    · split <;> simp

@[simp] theorem mcRetry_mode (s : State) (w : McWait) : (mcRetry s w).mode = s.mode := by
  unfold mcRetry; split <;> simp

theorem execMulticastWrite_factory (port : PortId) (s : State) (h : s.mode = .factory) :
    KeepsFactory (execMulticastWrite port s) := by
  simp [execMulticastWrite, h]

theorem execAtomicAdmitTimeout_factory (port : PortId) (s : State) (h : s.mode = .factory) :
    KeepsFactory (execAtomicAdmitTimeout port s) := by
  unfold execAtomicAdmitTimeout; simp only [keepsFactory_next]
  split
  · simp [h]
  · split <;> simp [h]

@[simp] theorem unpark_mode (s : State) (g k id : Nat) : (unpark s g k id).mode = s.mode := by simp [unpark]

@[simp] theorem loseParked_mode (s : State) (g : Nat) (m : McastRec) (x : Parked) :
    (loseParked s g m x).mode = s.mode := by
  simp [loseParked]

@[simp] theorem redeliver_mode (s : State) (g k : Nat) (m : McastRec) (x : Parked) :
    (redeliver s g k m x).mode = s.mode := by
  unfold redeliver; split <;> simp

theorem execParkRedelivery_factory (g : GroupId) (dest : Fin 64) (readError : Bool) (s : State)
    (h : s.mode = .factory) : KeepsFactory (execParkRedelivery g dest readError s) := by
  unfold execParkRedelivery; simp only [keepsFactory_next]; split <;> simp [h]

/-! ### The mode through `Sched.lean` -/

@[simp] theorem checkStarve_mode (s : State) (p : Nat) : (checkStarve s p).mode = s.mode := by simp [checkStarve]

@[simp] theorem debit_mode (s : State) (p c : Nat) (o : Owner) (b : Nat) : (debit s p c o b).mode = s.mode := by
  simp [debit]

theorem execShaperRefill_factory (s : State) (h : s.mode = .factory) : KeepsFactory (execShaperRefill s) := by
  simp [execShaperRefill, h]

theorem execThresholdTick_factory (s : State) (h : s.mode = .factory) : KeepsFactory (execThresholdTick s) := by
  simp [execThresholdTick, h]

@[simp] theorem colour_mode (s : State) (k b : Nat) : (colour s k b).2.mode = s.mode := by
  unfold colour; dsimp only; repeat' split
  all_goals simp

@[simp] theorem recolour_mode (s : State) (x : Staged) : (recolour s x).mode = s.mode := by
  unfold recolour; split
  · rfl
  · rename_i k _
    have hk := colour_mode s k (tlpBytes x.tlp)
    split <;> simp_all

theorem execPolicerTick_factory (s : State) (h : s.mode = .factory) : KeepsFactory (execPolicerTick s) := by
  simp [execPolicerTick, h]

@[simp] theorem gateBoundary_mode (s : State) (p : Nat) : (gateBoundary s p).mode = s.mode := by
  unfold gateBoundary; split <;> simp

theorem execGateBoundary_factory (port : PortId) (s : State) (h : s.mode = .factory) :
    KeepsFactory (execGateBoundary port s) := by
  simp [execGateBoundary, h]

@[simp] theorem gateSwitch_mode (s : State) (p : Nat) : (gateSwitch s p).mode = s.mode := by
  unfold gateSwitch; split <;> simp

theorem execGateListSwitch_factory (port : PortId) (s : State) (h : s.mode = .factory) :
    KeepsFactory (execGateListSwitch port s) := by
  simp [execGateListSwitch, h]

@[simp] theorem raiseMax_mode (s : State) (off n : Nat) : (raiseMax s off n).mode = s.mode := by simp [raiseMax]

@[simp] theorem monitorOne_mode (s : State) (p : Nat) (m : MonEntry) : (monitorOne s p m).mode = s.mode := by
  simp [monitorOne]

theorem execMonitorSample_factory (port : PortId) (s : State) (h : s.mode = .factory) :
    KeepsFactory (execMonitorSample port s) := by
  simp [execMonitorSample, h]

@[simp] theorem decideCut_mode (s : State) (p : Nat) : (decideCut s p).mode = s.mode := by simp [decideCut]

@[simp] theorem countRefusedOne_mode (s : State) (p id : Nat) : (countRefusedOne s p id).mode = s.mode := by
  simp [countRefusedOne]

@[simp] theorem countRefused_mode (s : State) (nc : BitVec 3) (p c : Nat) : (countRefused s nc p c).mode = s.mode := by
  simp [countRefused]

@[simp] theorem countRefusals_mode (s : State) (nc : BitVec 3) (p : Nat) : (countRefusals s nc p).mode = s.mode := by
  simp [countRefusals]

@[simp] theorem allocWaiting_mode (s : State) : (allocWaiting s).mode = s.mode := by
  refine foldl_mode _ _ _ (fun a d => ?_)
  dsimp only; split
  · rename_i b hb
    split at hb
    · cases hb
    · exact trackDesc_mode _ _ _ hb
  · split <;> simp

@[simp] theorem eccSeen_mode (s : State) (o : Owner) (p : Nat) (banks : List Nat) (ecc : Option (Nat × Bool))
    (dest : Option (Nat × Nat)) : (eccSeen s o p banks ecc dest).mode = s.mode := by
  unfold eccSeen; split <;> simp

@[simp] theorem countSent_mode (s : State) (d : Desc) : (countSent s d).1.mode = s.mode := by
  unfold countSent; dsimp only; repeat' split
  all_goals simp

@[simp] theorem noteTx_mode (s : State) (d : Desc) : (noteTx s d).mode = s.mode := rfl

@[simp] theorem startTx_mode (s : State) (d : Desc) : (startTx s d).mode = s.mode := by
  unfold startTx; split <;> simp

@[simp] theorem sendWhole_mode (s : State) (d : Desc) : (sendWhole s d).mode = s.mode := by simp [sendWhole]

@[simp] theorem discardUnsent_mode (s : State) (d : Desc) (lost : Bool) : (discardUnsent s d lost).mode = s.mode := by
  simp [discardUnsent]

@[simp] theorem startDesc_mode (s : State) (d : Desc) (ecc : Option (Nat × Bool)) :
    (startDesc s d ecc).mode = s.mode := by
  simp [startDesc]

@[simp] theorem gatesNow_mode (s : State) (p : Nat) : (gatesNow s p).mode = s.mode := by simp [gatesNow]

@[simp] theorem selectOn_mode (s : State) (p : Nat) (nc : BitVec 3) (ecc : Option (Nat × Bool)) :
    (selectOn s p nc ecc).mode = s.mode := by
  unfold selectOn; dsimp only; split
  · simp
  · split
    · simp
    · split <;> simp

theorem execEgressSelection_factory (port : PortId) (m : Meets) (s : State) (h : s.mode = .factory) :
    KeepsFactory (execEgressSelection port m s) := by
  simp [execEgressSelection, h]

@[simp] theorem releaseSlot_mode (s : State) (p id : Nat) : (releaseSlot s p id).mode = s.mode := by simp [releaseSlot]

theorem execStallRel_factory (port : PortId) (s : State) (h : s.mode = .factory) :
    KeepsFactory (execStallRel port s) := by
  unfold execStallRel; simp only [keepsFactory_next]; split <;> simp [h]

@[simp] theorem holdFlits_mode (s : State) (p : Nat) : (holdFlits s p).mode = s.mode := by
  rw [holdFlits, State.emit_mode, State.bump_mode]

theorem execFabricStallStomp_factory (x : PortFor) (s : State) (h : s.mode = .factory) :
    KeepsFactory (execFabricStallStomp x s) := by
  unfold execFabricStallStomp; simp only [keepsFactory_next]; split <;> simp [h]

@[simp] theorem overrun_mode (s : State) (p : Nat) : (overrun s p).mode = s.mode := by simp [overrun]

@[simp] theorem lateBy_mode (s : State) (p n : Nat) : (lateBy s p n).mode = s.mode := by
  unfold lateBy; split <;> simp

@[simp] theorem closeStaged_mode (s : State) (id : Nat) (r : CloseReason) : (closeStaged s id r).mode = s.mode := by
  simp [closeStaged]

@[simp] theorem endStall_mode (s : State) (p : Nat) (d : Desc) (n : Nat) : (endStall s p d n).mode = s.mode := by
  simp [endStall]

@[simp] theorem endHold_mode (s : State) (p : Nat) (d : Desc) : (endHold s p d).mode = s.mode := by simp [endHold]

@[simp] theorem closeDesc_mode (s : State) (d : Desc) (r : CloseReason) (n : Nat) :
    (closeDesc s d r n).mode = s.mode := by
  unfold closeDesc; dsimp only; split
  · simp
  · simp only [mode_ite, cutShort_mode, discardUnsent_mode, ite_self]
    split <;> simp

@[simp] theorem closeParked_mode (s : State) (id : Nat) (good : Bool) : (closeParked s id good).mode = s.mode := rfl

@[simp] theorem closeWaits_mode (s : State) (id : Nat) (good : Bool) : (closeWaits s id good).mode = s.mode := by
  simp [closeWaits]

@[simp] theorem closeAll_mode (s : State) (id : Nat) (r : CloseReason) (stallNs : Nat) :
    (closeAll s id r stallNs).mode = s.mode := by
  simp [closeAll]

theorem execDescriptorClose_factory (id : Nat) (c : Closing) (s : State) (h : s.mode = .factory) :
    KeepsFactory (execDescriptorClose id c s) := by
  unfold execDescriptorClose; simp only [keepsFactory_next]; split <;> simp [h]

/-! ### The mode through `Route.lean` -/

@[simp] theorem noGroupDrop_mode (s : State) (o : Owner) (p : Nat) : (noGroupDrop s o p).mode = s.mode := by
  simp [noGroupDrop]

@[simp] theorem wrongTenantDrop_mode (s : State) (g : Nat) (o : Owner) (p : Nat) :
    (wrongTenantDrop s g o p).mode = s.mode := by
  simp [wrongTenantDrop]

/-! ### The mode through `Crucible.lean` -/

@[simp] theorem windowReject_mode (s : State) (t o cause : Nat) (hdr : Option Tlp) :
    (windowReject s t o cause hdr).mode = s.mode := by
  simp [windowReject]

@[simp] theorem denyAccess_mode (s : State) (t o : Nat) (k : TlpKind) (priv exe : Bool) (rid : W16) (hdr : Option Tlp)
    (r : Access) : (denyAccess s t o k priv exe rid hdr r).mode = s.mode := by
  unfold denyAccess; split <;> simp

@[simp] theorem countPoison_mode (s : State) (k : Nat) : (countPoison s k).mode = s.mode := by simp [countPoison]

@[simp] theorem writeLine_mode (s : State) (x : Nat) (l : List (Option Byte)) : (writeLine s x l).mode = s.mode := by
  simp [writeLine]

@[simp] theorem writeLines_mode (s : State) (x : Nat) (l : List (Option Byte)) (k : Nat) :
    (writeLines s x l k).mode = s.mode := by
  induction k generalizing s x l with
  | zero => rfl
  | succ k ih => unfold writeLines; split <;> simp [ih]

@[simp] theorem poolWrite_mode (s : State) (c a : Nat) (l : List (Option Byte)) :
    (poolWrite s c a l).mode = s.mode := by
  simp [poolWrite]

@[simp] theorem poolRead_mode (s : State) (c a n : Nat) (err : Option LineError) :
    (poolRead s c a n err).1.mode = s.mode := by
  simp only [poolRead]
  rw [foldl_mode _ _ _ (by simp)]
  split <;> simp

@[simp] theorem cruAnswer_mode (s : State) (src : Src) (t : Nat) (c : Tlp) : (cruAnswer s src t c).mode = s.mode := by
  simp [cruAnswer]

@[simp] theorem serveOk_mode (s : State) (t : Nat) (src : Src) (q : Tlp) (err : Option LineError) (c a : Nat) :
    (serveOk s t src q err c a).mode = s.mode := by
  unfold serveOk; split <;> simp

@[simp] theorem serveWindow_mode (s : State) (t o : Nat) (src : Src) (trusted : Bool) (q : Tlp)
    (err : Option LineError) : (serveWindow s t o src trusted q err).mode = s.mode := by
  unfold serveWindow; dsimp only; split
  · simp
  · split <;> simp

theorem execPoolWindowAccess_factory (t : TenantId) (a : WinAccess) (s : State) (h : s.mode = .factory) :
    KeepsFactory (execPoolWindowAccess t a s) := by
  simp [execPoolWindowAccess, h]

@[simp] theorem modJob_mode (s : State) (t e : Nat) (f : Job → Job) : (modJob s t e f).mode = s.mode := rfl

@[simp] theorem failJob_mode (s : State) (t e st : Nat) : (failJob s t e st).mode = s.mode := rfl

@[simp] theorem rejectVfBar_mode (s : State) (src p t : Nat) (trusted : Bool) (q : Tlp) (off : Nat) :
    (rejectVfBar s src p t trusted q off).mode = s.mode := by
  unfold rejectVfBar; split
  · exact rejectAt_mode _ _ _ _ _ _ _ (fun _ => flowError_mode ..)
  · exact flowError_mode ..

@[simp] theorem hostRequest_mode (s : State) (t : Nat) (q : Tlp) : (hostRequest s t q).1.mode = s.mode := by
  unfold hostRequest; split <;> simp

@[simp] theorem issueOne_mode (s : State) (t : Nat) (j : Job) : (issueOne s t j).mode = s.mode := by simp [issueOne]

@[simp] theorem issueReads_mode (s : State) (t k : Nat) : (issueReads s t k).mode = s.mode := by
  induction k generalizing s with
  | zero => rfl
  | succ k ih =>
    unfold issueReads; dsimp only; split
    · rfl
    · split <;> simp [ih]

theorem execEngineDescriptorStart_factory (t : TenantId) (s : State) (h : s.mode = .factory) :
    KeepsFactory (execEngineDescriptorStart t s) := by
  simp [execEngineDescriptorStart, h]

@[simp] theorem writeStatus_mode (s : State) (t e st : Nat) : (writeStatus s t e st).mode = s.mode := by
  simp [writeStatus]

@[simp] theorem engineRead_mode (s : State) (t o n : Nat) (err : Option LineError) :
    (engineRead s t o n err).1.mode = s.mode := by
  unfold engineRead; split <;> simp

@[simp] theorem engineWrite_mode (s : State) (t o : Nat) (data : List Byte) :
    (engineWrite s t o data).1.mode = s.mode := by
  unfold engineWrite; split <;> simp

@[simp] theorem hostWrites_mode (s : State) (t a : Nat) (data : List Byte) (k : Nat) :
    (hostWrites s t a data k).1.mode = s.mode := by
  induction k generalizing s a data with
  | zero => rfl
  | succ k ih =>
    unfold hostWrites; split
    · rfl
    · dsimp only; split <;> simp [ih]

@[simp] theorem copyChunks_mode (s : State) (t : Nat) (toHost : Bool) (err : Option LineError) (a b left k : Nat) :
    (copyChunks s t toHost err a b left k).1.mode = s.mode := by
  induction k generalizing s a b left with
  | zero => rfl
  | succ k ih =>
    unfold copyChunks; split
    · rfl
    · dsimp only; split
      · simp
      · split <;> split <;> simp [ih]

@[simp] theorem finishJob_mode (s : State) (t : Nat) (j : Job) (err : Option LineError) :
    (finishJob s t j err).1.mode = s.mode := by
  unfold finishJob; dsimp only; repeat' split
  all_goals simp

theorem execEngineDescriptorDone_factory (t : TenantId) (err : Option LineError) (s : State) (h : s.mode = .factory) :
    KeepsFactory (execEngineDescriptorDone t err s) := by
  unfold execEngineDescriptorDone; simp only [keepsFactory_next]; split
  · exact h
  · split
    · exact h
    · next j _ _ =>
      have hj := finishJob_mode s t j err
      split <;> simp_all

@[simp] theorem landData_mode (s : State) (t o : Nat) (data : List Byte) (k : Nat) :
    (landData s t o data k).1.mode = s.mode := by
  induction k generalizing s o data with
  | zero => rfl
  | succ k ih =>
    unfold landData; split
    · rfl
    · dsimp only; split <;> simp [ih]

@[simp] theorem engineCpl_mode (s : State) (t : Nat) (c : Tlp) : (engineCpl s t c).mode = s.mode := by
  unfold engineCpl; split
  · rfl
  · simp

@[simp] theorem deliverTo_mode (s : State) (l tag u : Nat) : (deliverTo s l tag u).mode = s.mode := by simp [deliverTo]

theorem execNotify_factory (t : TenantId) (s : State) (h : s.mode = .factory) : KeepsFactory (execNotify t s) := by
  unfold execNotify; simp only [keepsFactory_next]; repeat' split
  all_goals simp [h]

@[simp] theorem popNtfy_mode (s : State) (t : Nat) : (popNtfy s t).1.mode = s.mode := by
  unfold popNtfy; split <;> simp

@[simp] theorem abortJobs_mode (s : State) (t : Nat) : (abortJobs s t).mode = s.mode := by simp [abortJobs]

@[simp] theorem clearBme_mode (s : State) (t : Nat) : (clearBme s t).mode = s.mode := by simp [clearBme]

theorem execVfBmeClear_factory (t : TenantId) (s : State) (h : s.mode = .factory) :
    KeepsFactory (execVfBmeClear t s) := by
  simp [execVfBmeClear, h]

@[simp] theorem setBme_mode (s : State) (t : Nat) : (setBme s t).mode = s.mode := by simp [setBme]

theorem execVfBmeSet_factory (t : TenantId) (s : State) (h : s.mode = .factory) : KeepsFactory (execVfBmeSet t s) := by
  simp [execVfBmeSet, h]

@[simp] theorem startFlr_mode (s : State) (t : Nat) : (startFlr s t).mode = s.mode := by simp [startFlr]

theorem execVfFlr_factory (t : TenantId) (s : State) (h : s.mode = .factory) : KeepsFactory (execVfFlr t s) := by
  simp [execVfFlr, h]

theorem execVfFlrComplete_factory (t : TenantId) (s : State) (h : s.mode = .factory) :
    KeepsFactory (execVfFlrComplete t s) := by
  unfold execVfFlrComplete; simp only [keepsFactory_next]; split <;> simp [h]

@[simp] theorem loseSpill_mode (s : State) : (loseSpill s).mode = s.mode := by
  unfold loseSpill
  refine foldl_mode _ _ _ (fun a x => ?_)
  split <;> simp

@[simp] theorem loseChannel_factory (s : State) (c cause : Nat) (h : s.mode = .factory) :
    (loseChannel s c cause).mode = .factory := by
  simp [loseChannel, h]

theorem execChannelBringup_factory (c : ChanId) (probe : ChannelProbe) (s : State) (h : s.mode = .factory) :
    KeepsFactory (execChannelBringup c probe s) := by
  unfold execChannelBringup; simp only [keepsFactory_next]; split <;> simp [h]

theorem execSelfRefreshEntry_factory (c : ChanId) (s : State) (h : s.mode = .factory) :
    KeepsFactory (execSelfRefreshEntry c s) := by
  simp [execSelfRefreshEntry, h]

theorem execLotFillDone_factory (lot : Fin 8192) (s : State) (h : s.mode = .factory) :
    KeepsFactory (execLotFillDone lot s) := by
  simp [execLotFillDone, h]

theorem execPatrolBurst_factory (c : ChanId) (errors : List LineError) (s : State) (h : s.mode = .factory) :
    KeepsFactory (execPatrolBurst c errors s) := by
  simp [execPatrolBurst, h]

theorem execDdrAlert_factory (c : ChanId) (retries : Nat) (cleared : Bool) (s : State) (h : s.mode = .factory) :
    KeepsFactory (execDdrAlert c retries cleared s) := by
  simp [execDdrAlert, h]

theorem execChannelLost_factory (c : ChanId) (byAlert : Bool) (s : State) (h : s.mode = .factory) :
    KeepsFactory (execChannelLost c byAlert s) := by
  simp [execChannelLost, h]

theorem execVfNtfypopRead_factory (t : TenantId) (be : BitVec 4) (s : State) (h : s.mode = .factory) :
    KeepsFactory (execVfNtfypopRead t be s) := by
  simp [execVfNtfypopRead, h]

theorem execVfSqtailWrite_factory (t : TenantId) (tail : BitVec 6) (s : State) (h : s.mode = .factory) :
    KeepsFactory (execVfSqtailWrite t tail s) := by
  simp [execVfSqtailWrite, h]

/-! ### The mode through `Mbx.lean` -/

@[simp] theorem sendMf_mode (s : State) (v : Nat) : (sendMf s v).mode = s.mode := by simp [sendMf]

@[simp] theorem mfInterrupt_mode (s : State) (v : Nat) : (mfInterrupt s v).mode = s.mode := by simp [mfInterrupt]

@[simp] theorem flushMf_mode (s : State) : (flushMf s).mode = s.mode := by simp [flushMf]

@[simp] theorem respondTo_mode (s : State) (path : Path) (seq : Byte) (status : Nat) (payload : List Byte) :
    (respondTo s path seq status payload).mode = s.mode := by
  unfold respondTo; split <;> simp

@[simp] theorem touchMbx_mode (s : State) : (touchMbx s).mode = s.mode := rfl

@[simp] theorem releaseMbx_mode (s : State) : (releaseMbx s).mode = s.mode := rfl

@[simp] theorem loadCmd_mode (s : State) (p : Path) (seq : Byte) (code : Nat) (payload : List Byte) :
    (loadCmd s p seq code payload).mode = s.mode :=
  rfl

@[simp] theorem claim_mode (s : State) (p : Path) : (claim s p).1.mode = s.mode := by
  unfold claim; split <;> simp

theorem execMbxClaimRead_factory (path : Path) (s : State) (h : s.mode = .factory) :
    KeepsFactory (execMbxClaimRead path s) := by
  simp [execMbxClaimRead, h]

theorem execMbxRelease_factory (path : Path) (s : State) (h : s.mode = .factory) :
    KeepsFactory (execMbxRelease path s) := by
  simp [execMbxRelease, h]

theorem execMbxIdleRelease_factory (s : State) (h : s.mode = .factory) : KeepsFactory (execMbxIdleRelease s) := by
  simp [execMbxIdleRelease, h]

/-- The commands whose row of Table 3.8 admits Factory. -/
theorem legalModes_factory {code : Nat} {modes : List Mode} (hm : legalModes code = some modes) (hf : Mode.factory ∈ modes) :
    code = 0x01 ∨ code = 0x02 ∨ code = 0x05 ∨ code = 0x07 ∨ code = 0x0D := by
  unfold legalModes at hm
  dsimp only at hm
  repeat' split at hm
  all_goals cases hm <;> simp at hf <;> omega

/-! ### The mode through `TimeBase.lean` -/

@[simp] theorem stepTo_mode (s : State) (ns : Int) : (stepTo s ns).mode = s.mode := by simp [stepTo]

@[simp] theorem servo_mode (s : State) (o : Int) (lim : Nat) : (servo s o lim).mode = s.mode := by simp [servo]

@[simp] theorem leaveHoldover_mode (s : State) : (leaveHoldover s).mode = s.mode := by simp [leaveHoldover]

@[simp] theorem enterHoldover_mode (s : State) : (enterHoldover s).mode = s.mode := by simp [enterHoldover]

@[simp] theorem setTimeDone_mode (s : State) (path : Path) (seq : Byte) : (setTimeDone s path seq).mode = s.mode := by
  simp [setTimeDone]

@[simp] theorem validEdge_mode (s : State) : (validEdge s).mode = s.mode := by
  unfold validEdge; dsimp only; repeat' split
  all_goals simp

@[simp] theorem badEdge_mode (s : State) : (badEdge s).mode = s.mode := by simp [badEdge]

@[simp] theorem syncReplicas_mode (s : State) : (syncReplicas s).mode = s.mode := rfl

theorem execReplicaSync_factory (s : State) (h : s.mode = .factory) : KeepsFactory (execReplicaSync s) := by
  simp [execReplicaSync, h]

@[simp] theorem latchTime_mode (s : State) : (latchTime s).mode = s.mode := rfl

theorem execTimNowloRead_factory (path : Path) (s : State) (h : s.mode = .factory) :
    KeepsFactory (execTimNowloRead path s) := by
  simp [execTimNowloRead, h]

theorem execPtmRequest_factory (port : PortId) (rxStamp : W64) (s : State) (h : s.mode = .factory) :
    KeepsFactory (execPtmRequest port rxStamp s) := by
  simp [execPtmRequest, h]

/-! ### The mode through `Fabric.lean` -/

@[simp] theorem treeFlood_mode (s : State) (from_ : Nat) (b : GopBody) : (treeFlood s from_ b).mode = s.mode := by
  simp [treeFlood]

@[simp] theorem countNoRoute_mode (s : State) (src : Nat) (o : Owner) (p : Nat) (dest : Option (Nat × Nat)) :
    (countNoRoute s src o p dest).mode = s.mode := by
  simp [countNoRoute]

@[simp] theorem moveDesc_mode (s : State) (d : Desc) (q : Nat) : (moveDesc s d q).mode = s.mode := by
  unfold moveDesc; split <;> simp

@[simp] theorem answerUr_mode (s : State) (d : Desc) : (answerUr s d).mode = s.mode := by
  unfold answerUr; split <;> simp

@[simp] theorem rerouteOne_mode (s : State) (d : Desc) : (rerouteOne s d).mode = s.mode := by
  unfold rerouteOne; dsimp only; repeat' split
  all_goals simp

@[simp] theorem reroute_mode (s : State) : (reroute s).mode = s.mode := by simp [reroute]

@[simp] theorem refuseLink_mode (s : State) (p c : Nat) (b : HelloBody) : (refuseLink s p c b).mode = s.mode := by
  simp [refuseLink]

@[simp] theorem acceptLink_mode (s : State) (p : Nat) (b : HelloBody) : (acceptLink s p b).mode = s.mode := by
  rw [acceptLink, State.modFab_mode, State.modFabLink_mode]

theorem execHello_factory (port : PortId) (body : HelloBody) (s : State) (h : s.mode = .factory) :
    KeepsFactory (execHello port body s) := by
  simp [execHello, h]

theorem execHelloSend_factory (port : PortId) (s : State) (h : s.mode = .factory) :
    KeepsFactory (execHelloSend port s) := by
  simp [execHelloSend, h]

theorem execJoinWindowEnd_factory (s : State) (h : s.mode = .factory) : KeepsFactory (execJoinWindowEnd s) := by
  unfold execJoinWindowEnd; simp only [keepsFactory_next]; split <;> simp [h]

theorem execHold_factory (port : PortId) (s : State) (h : s.mode = .factory) : KeepsFactory (execHold port s) := by
  simp [execHold, h]

theorem execChipidClash_factory (port : PortId) (s : State) (h : s.mode = .factory) :
    KeepsFactory (execChipidClash port s) := by
  simp [execChipidClash, h]

theorem execChipidClashRetry_factory (port : PortId) (s : State) (h : s.mode = .factory) :
    KeepsFactory (execChipidClashRetry port s) := by
  unfold execChipidClashRetry; simp only [keepsFactory_next]; split <;> simp [h]

@[simp] theorem dropPartial_mode (s : State) (p : Nat) (r : CloseReason) : (dropPartial s p r).mode = s.mode := by
  simp [dropPartial]

@[simp] theorem fabricDown_factory (s : State) (p : Nat) (h : s.mode = .factory) :
    (fabricDown s p).mode = .factory := by
  simp [fabricDown, h]

theorem execFabricLinkDown_factory (port : PortId) (s : State) (h : s.mode = .factory) :
    KeepsFactory (execFabricLinkDown port s) := by
  simp [execFabricLinkDown, h]

@[simp] theorem forwardEack_mode (s : State) (f : Farug) (epoch : Bool) (count : Nat) :
    (forwardEack s f epoch count).mode = s.mode := by
  unfold forwardEack; split <;> simp

@[simp] theorem sendEack_mode (s : State) (c : Nat) : (sendEack s c).mode = s.mode := by simp [sendEack]

@[simp] theorem openFlip_mode (s : State) (x : Flip) : (openFlip s x).mode = s.mode := rfl

@[simp] theorem flipNow_factory (s : State) (h : s.mode = .factory) : (flipNow s).mode = .factory := by
  simp [flipNow, h]

theorem execEpochFlip_factory (s : State) (h : s.mode = .factory) : KeepsFactory (execEpochFlip s) := by
  unfold execEpochFlip; simp only [keepsFactory_next]; split <;> simp [h]

@[simp] theorem endDrain_mode (s : State) (c : Nat) : (endDrain s c).mode = s.mode := rfl

@[simp] theorem takeEack_mode (s : State) (src : Nat) (epoch : Bool) (count : Nat) :
    (takeEack s src epoch count).mode = s.mode := by
  unfold takeEack; split <;> simp

theorem execEack_factory (x : FabricIn) (epoch : Bool) (count : Nat) (s : State) (h : s.mode = .factory) :
    KeepsFactory (execEack x epoch count s) := by
  simp [execEack, h]

theorem execEackSend_factory (s : State) (h : s.mode = .factory) : KeepsFactory (execEackSend s) := by
  unfold execEackSend; simp only [keepsFactory_next]; split <;> simp [h]

theorem execDrainTimeout_factory (chip : ChipId) (s : State) (h : s.mode = .factory) :
    KeepsFactory (execDrainTimeout chip s) := by
  unfold execDrainTimeout; simp only [keepsFactory_next]; split <;> simp [h]

theorem execSync_factory (port : PortId) (tx rx : W64) (s : State) (h : s.mode = .factory) :
    KeepsFactory (execSync port tx rx s) := by
  simp [execSync, h]

theorem execSyncSend_factory (s : State) (h : s.mode = .factory) : KeepsFactory (execSyncSend s) := by
  simp [execSyncSend, h]

theorem execDelayMeasure_factory (s : State) (h : s.mode = .factory) : KeepsFactory (execDelayMeasure s) := by
  simp [execDelayMeasure, h]

theorem execDelayReq_factory (port : PortId) (m : DelayMsg) (s : State) (h : s.mode = .factory) :
    KeepsFactory (execDelayReq port m s) := by
  unfold execDelayReq; simp only [keepsFactory_next]
  split
  · simp [h]
  · split <;> simp [h]

theorem execFollowerHoldover_factory (s : State) (h : s.mode = .factory) : KeepsFactory (execFollowerHoldover s) := by
  simp [execFollowerHoldover, h]

@[simp] theorem checkBarrier_mode (s : State) (id : Nat) : (checkBarrier s id).mode = s.mode := by simp [checkBarrier]

@[simp] theorem checkBarriers_mode (s : State) : (checkBarriers s).mode = s.mode := by simp [checkBarriers]

@[simp] theorem enterBarrier_mode (s : State) (id : Nat) (chips : BitVec 16) :
    (enterBarrier s id chips).mode = s.mode := by
  simp [enterBarrier]

@[simp] theorem leaveBarrier_mode (s : State) (id c : Nat) : (leaveBarrier s id c).mode = s.mode := rfl

@[simp] theorem hearPresence_mode (s : State) (b : BitVec 16) : (hearPresence s b).mode = s.mode := rfl

@[simp] theorem loseChip_mode (s : State) (c : Nat) : (loseChip s c).mode = s.mode := by simp [loseChip]

@[simp] theorem endRound_mode (s : State) : (endRound s).mode = s.mode := by simp [endRound]

theorem execPresence_factory (port : PortId) (dir : TreeDir) (bitmap : BitVec 16) (s : State) (h : s.mode = .factory) :
    KeepsFactory (execPresence port dir bitmap s) := by
  unfold execPresence; simp only [keepsFactory_next]
  split
  · simp [h]
  · split <;> simp [h]

theorem execPresenceSend_factory (s : State) (h : s.mode = .factory) : KeepsFactory (execPresenceSend s) := by
  simp [execPresenceSend, h]

@[simp] theorem commitEpoch_mode (s : State) (p : Prepare) : (commitEpoch s p).mode = s.mode := by
  unfold commitEpoch; dsimp only; split <;> simp

@[simp] theorem refuseEpoch_mode (s : State) (p : Prepare) (status : Nat) : (refuseEpoch s p status).mode = s.mode := by
  unfold refuseEpoch; split <;> simp

@[simp] theorem judgeAnswers_mode (s : State) (p : Prepare) : (judgeAnswers s p).mode = s.mode := by simp [judgeAnswers]

@[simp] theorem judgePrepare_mode (s : State) : (judgePrepare s).mode = s.mode := by
  unfold judgePrepare; split <;> simp

@[simp] theorem takeReply_mode (s : State) (c : Nat) (part draining differs : Bool) :
    (takeReply s c part draining differs).mode = s.mode := by
  unfold takeReply; split <;> simp

theorem execRouteEpochPrepareTimeout_factory (s : State) (h : s.mode = .factory) :
    KeepsFactory (execRouteEpochPrepareTimeout s) := by
  unfold execRouteEpochPrepareTimeout; simp only [keepsFactory_next]; split <;> simp [h]

@[simp] theorem takeBroadcast_mode (s : State) (d : W64) (src : Nat) : (takeBroadcast s d src).mode = s.mode := by
  simp [takeBroadcast]

@[simp] theorem takeReset_mode (s : State) : (takeReset s).mode = s.mode := by simp [takeReset]

@[simp] theorem takeGop_mode (s : State) (b : GopBody) : (takeGop s b).mode = s.mode := by
  unfold takeGop; split <;> simp

theorem execGop_factory (port : PortId) (dir : TreeDir) (body : GopBody) (s : State) (h : s.mode = .factory) :
    KeepsFactory (execGop port dir body s) := by
  simp [execGop, h]

@[simp] theorem gopWrite_mode (s : State) (id op : Nat) : (gopWrite s id op).mode = s.mode := State.setReg_mode ..

@[simp] theorem startBarrier_mode (s : State) (id : Nat) : (startBarrier s id).mode = s.mode := by simp [startBarrier]

theorem execFabGopBarrier_factory (path : Path) (barrierId : Byte) (s : State) (h : s.mode = .factory) :
    KeepsFactory (execFabGopBarrier path barrierId s) := by
  simp [execFabGopBarrier, h]

@[simp] theorem startBroadcast_mode (s : State) : (startBroadcast s).mode = s.mode := by simp [startBroadcast]

theorem execFabGopBroadcast_factory (path : Path) (s : State) (h : s.mode = .factory) :
    KeepsFactory (execFabGopBroadcast path s) := by
  simp [execFabGopBroadcast, h]

@[simp] theorem cancelBarrier_mode (s : State) : (cancelBarrier s).mode = s.mode := by
  unfold cancelBarrier; split <;> simp

theorem execFabGopCancel_factory (path : Path) (s : State) (h : s.mode = .factory) :
    KeepsFactory (execFabGopCancel path s) := by
  simp [execFabGopCancel, h]

@[simp] theorem startFabricReset_mode (s : State) : (startFabricReset s).mode = s.mode := by simp [startFabricReset]

theorem execFabGopFabricReset_factory (path : Path) (confirm : Byte) (s : State) (h : s.mode = .factory) :
    KeepsFactory (execFabGopFabricReset path confirm s) := by
  simp [execFabGopFabricReset, h]

theorem execFault_factory (port : PortId) (origin : ChipId) (level : Nat) (msg : Msg) (s : State)
    (h : s.mode = .factory) : KeepsFactory (execFault port origin level msg s) := by
  simp [execFault, h]

@[simp] theorem ringChange_mode (s : State) (st : RingIn) : (ringChange s st).mode = s.mode := by
  unfold ringChange; dsimp only; repeat' split
  all_goals simp

theorem execRingInputChange_factory (st : RingIn) (s : State) (h : s.mode = .factory) :
    KeepsFactory (execRingInputChange st s) := by
  simp [execRingInputChange, h]

theorem execRingArm_factory (s : State) (h : s.mode = .factory) : KeepsFactory (execRingArm s) := by
  simp [execRingArm, h]

/-! ### The mode through `Links.lean` -/

@[simp] theorem modLanesOf_mode (s : State) (p : Nat) (f : Lane → Lane) : (modLanesOf s p f).mode = s.mode := by
  simp [modLanesOf]

@[simp] theorem setWidthShort_mode (s : State) (p : Nat) : (setWidthShort s p).mode = s.mode := by simp [setWidthShort]

@[simp] theorem setSpeedShort_mode (s : State) (p : Nat) : (setSpeedShort s p).mode = s.mode := by simp [setSpeedShort]

@[simp] theorem judgeShort_mode (s : State) (p old : Nat) : (judgeShort s p old).mode = s.mode := by simp [judgeShort]

@[simp] theorem checkOverrun_mode (s : State) (p : Nat) (l : Link) : (checkOverrun s p l).mode = s.mode := by
  unfold checkOverrun; split <;> simp

@[simp] theorem applyRate_mode (s : State) (p rate width active : Nat) :
    (applyRate s p rate width active).mode = s.mode := by
  simp [applyRate]

@[simp] theorem goRecovery_mode (s : State) (p : Nat) : (goRecovery s p).mode = s.mode := by simp [goRecovery]

@[simp] theorem linkErr_mode (s : State) (p : Nat) (e : LinkErr) : (linkErr s p e).mode = s.mode := by
  unfold linkErr; split <;> simp

theorem execRateOrWidthChange_factory (port : PortId) (rate width active : Nat) (byL0p : Bool) (s : State)
    (h : s.mode = .factory) : KeepsFactory (execRateOrWidthChange port rate width active byL0p s) := by
  simp [execRateOrWidthChange, h]

@[simp] theorem recordEyes_mode (s : State) (p : Nat) (eyes : List Eye) : (recordEyes s p eyes).mode = s.mode := by
  simp [recordEyes]

@[simp] theorem failRate_mode (s : State) (p old : Nat) : (failRate s p old).mode = s.mode := by simp [failRate]

theorem execRateEqComplete_factory (port : PortId) (rate : Nat) (eyes : List Eye) (s : State) (h : s.mode = .factory) :
    KeepsFactory (execRateEqComplete port rate eyes s) := by
  simp [execRateEqComplete, h]

@[simp] theorem holdDown_mode (s : State) (p : Nat) (st : Ltssm) : (holdDown s p st).mode = s.mode := by simp [holdDown]

@[simp] theorem linkUp_mode (s : State) (p width retimers : Nat) (reversed : Bool) (peerRate : Nat)
    (peerFlit peerBypass tag10 : Bool) (peerChip : Nat) :
    (linkUp s p width retimers reversed peerRate peerFlit peerBypass tag10 peerChip).mode = s.mode := by
  unfold linkUp; dsimp only; split <;> simp

theorem execLinkDlUp_factory (port : PortId) (width retimers : Nat) (reversed : Bool) (peerRate : Nat)
    (peerFlit peerBypass tag10 : Bool) (peerChip : ChipId) (s : State) (h : s.mode = .factory) :
    KeepsFactory (execLinkDlUp port width retimers reversed peerRate peerFlit peerBypass tag10 peerChip s) := by
  simp [execLinkDlUp, h]

theorem execTagCapabilityRead_factory (port : PortId) (tag10 tag14 : Bool) (s : State) (h : s.mode = .factory) :
    KeepsFactory (execTagCapabilityRead port tag10 tag14 s) := by
  simp [execTagCapabilityRead, h]

@[simp] theorem sendHotReset_mode (s : State) (p : Nat) : (sendHotReset s p).mode = s.mode := rfl

@[simp] theorem resetVh_mode (s : State) (vn : Nat) : (resetVh s vn).mode = s.mode := by
  unfold resetVh; split <;> simp

@[simp] theorem surpriseDown_mode (s : State) (p : Nat) : (surpriseDown s p).mode = s.mode := by simp [surpriseDown]

@[simp] theorem portDown_mode (s : State) (p : Nat) : (portDown s p).mode = s.mode := by
  unfold portDown; dsimp only; repeat' split
  all_goals simp

@[simp] theorem checkClock_mode (s : State) (i : Nat) : (checkClock s i).mode = s.mode := by simp [checkClock]

@[simp] theorem dlDown_factory (s : State) (p : Nat) (h : s.mode = .factory) : (dlDown s p).mode = .factory := by
  simp [dlDown, h]

theorem execLinkDlDown_factory (port : PortId) (s : State) (h : s.mode = .factory) :
    KeepsFactory (execLinkDlDown port s) := by
  simp [execLinkDlDown, h]

@[simp] theorem enterRecovery_factory (s : State) (p : Nat) (goes : RecoveryTo) (h : s.mode = .factory) :
    (enterRecovery s p goes).mode = .factory := by
  unfold enterRecovery; split <;> simp [h]

theorem execRecovery_factory (r : LinkRecovery) (s : State) (h : s.mode = .factory) :
    KeepsFactory (execRecovery r s) := by
  simp [execRecovery, h]

theorem execAlignmentHunt_factory (i : StationId) (j : LaneId) (blocks : List HuntBlock) (s : State)
    (h : s.mode = .factory) : KeepsFactory (execAlignmentHunt i j blocks s) := by
  unfold execAlignmentHunt; simp only [keepsFactory_next]; repeat' split
  all_goals simp [h]

@[simp] theorem signalEvent_mode (s : State) (p j b : Nat) (idle : Bool) :
    (signalEvent s p j b idle).mode = s.mode := by
  simp [signalEvent]

theorem execAlignLost_factory (i : StationId) (x : LaneBad) (s : State) (h : s.mode = .factory) :
    KeepsFactory (execAlignLost i x s) := by
  unfold execAlignLost; simp only [keepsFactory_next]; split <;> simp [h]

theorem execLos_factory (i : StationId) (x : LaneLevel) (s : State) (h : s.mode = .factory) :
    KeepsFactory (execLos i x s) := by
  unfold execLos; simp only [keepsFactory_next]
  split
  · simp [h]
  · split <;> simp [h]

theorem execLockLost_factory (i : StationId) (x : LaneLock) (s : State) (h : s.mode = .factory) :
    KeepsFactory (execLockLost i x s) := by
  unfold execLockLost; simp only [keepsFactory_next]
  split
  · simp [h]
  · split <;> simp [h]

theorem execLosDeassert_factory (i : StationId) (x : LaneMv) (s : State) (h : s.mode = .factory) :
    KeepsFactory (execLosDeassert i x s) := by
  simp [execLosDeassert, h]

theorem execCdrLock_factory (i : StationId) (j : LaneId) (s : State) (h : s.mode = .factory) :
    KeepsFactory (execCdrLock i j s) := by
  simp [execCdrLock, h]

@[simp] theorem quadDown_factory (s : State) (p : Nat) (h : s.mode = .factory) : (quadDown s p).mode = .factory := by
  simp [quadDown, h]

theorem execQuadPll_factory (i : StationId) (x : QuadRead) (s : State) (h : s.mode = .factory) :
    KeepsFactory (execQuadPll i x s) := by
  unfold execQuadPll; simp only [keepsFactory_next]; split
  · exact h
  · exact foldl_factory _ _ _ (fun a p ha => by simp [ha]) h

@[simp] theorem restartPort_mode (s : State) (p : Nat) : (restartPort s p).mode = s.mode := by simp [restartPort]

@[simp] theorem relock_mode (s : State) (i q : Nat) : (relock s i q).mode = s.mode := by simp [relock]

theorem execQuadPllRelock_factory (i : StationId) (q : QuadId) (s : State) (h : s.mode = .factory) :
    KeepsFactory (execQuadPllRelock i q s) := by
  simp [execQuadPllRelock, h]

theorem execQuadFail_factory (i : StationId) (q : QuadId) (s : State) (h : s.mode = .factory) :
    KeepsFactory (execQuadFail i q s) := by
  simp [execQuadFail, h]

theorem execQuadRelockRetry_factory (i : StationId) (q : QuadId) (relocked : Bool) (s : State) (h : s.mode = .factory) :
    KeepsFactory (execQuadRelockRetry i q relocked s) := by
  simp [execQuadRelockRetry, h]

@[simp] theorem coreResetTx_mode (s : State) (p : Nat) : (coreResetTx s p).mode = s.mode := by
  unfold coreResetTx; split
  · simp
  · split <;> simp

theorem execLaneGroupReset_factory (i : StationId) (q : Option QuadId) (s : State) (h : s.mode = .factory) :
    KeepsFactory (execLaneGroupReset i q s) := by
  unfold execLaneGroupReset; simp only [keepsFactory_next]; split <;> simp [h]

@[simp] theorem measureEye_mode (s : State) (p i j : Nat) (e : Eye) : (measureEye s p i j e).mode = s.mode := by
  simp [measureEye]

@[simp] theorem burnishLimit_mode (s : State) (p : Nat) : (burnishLimit s p).mode = s.mode := by simp [burnishLimit]

@[simp] theorem burnishMove_mode (s : State) (p i j : Nat) (base up down : Eye) :
    (burnishMove s p i j base up down).mode = s.mode := by
  simp [burnishMove]

theorem execBurnishStep_factory (i : StationId) (j : LaneId) (base up down : Eye) (s : State) (h : s.mode = .factory) :
    KeepsFactory (execBurnishStep i j base up down s) := by
  unfold execBurnishStep; simp only [keepsFactory_next]; split <;> simp [h]

theorem execLaneMarginingCommand_factory (i : StationId) (j : LaneId) (lastStepNs : Nat) (s : State)
    (h : s.mode = .factory) : KeepsFactory (execLaneMarginingCommand i j lastStepNs s) := by
  unfold execLaneMarginingCommand; simp only [keepsFactory_next]; split <;> simp [h]

theorem execAspmL1Entry_factory (e : PortFor) (byPartner : Bool) (s : State) (h : s.mode = .factory) :
    KeepsFactory (execAspmL1Entry e byPartner s) := by
  simp [execAspmL1Entry, h]

theorem execStationClockWake_factory (i : StationId) (s : State) (h : s.mode = .factory) :
    KeepsFactory (execStationClockWake i s) := by
  simp [execStationClockWake, h]

theorem execL0pNarrow_factory (x : PortUse) (width : Nat) (s : State) (h : s.mode = .factory) :
    KeepsFactory (execL0pNarrow x width s) := by
  simp [execL0pNarrow, h]

theorem execL0pWiden_factory (x : PortUse) (s : State) (h : s.mode = .factory) : KeepsFactory (execL0pWiden x s) := by
  simp [execL0pWiden, h]

@[simp] theorem setLinkDisable_mode (s : State) (p : Nat) (on : Bool) : (setLinkDisable s p on).mode = s.mode := by
  simp [setLinkDisable]

theorem execLinkDisable_factory (port : PortId) (writer : Writer) (disable : Bool) (s : State) (h : s.mode = .factory) :
    KeepsFactory (execLinkDisable port writer disable s) := by
  simp [execLinkDisable, h]

@[simp] theorem retrain_mode (s : State) (p : Nat) : (retrain s p).mode = s.mode := by simp [retrain]

theorem execRetrainLink_factory (port : PortId) (writer : Writer) (s : State) (h : s.mode = .factory) :
    KeepsFactory (execRetrainLink port writer s) := by
  simp [execRetrainLink, h]

@[simp] theorem setTargetSpeed_mode (s : State) (p speed : Nat) : (setTargetSpeed s p speed).mode = s.mode := by
  simp [setTargetSpeed]

theorem execTargetLinkSpeedWrite_factory (port : PortId) (writer : Writer) (speed : Nat) (s : State)
    (h : s.mode = .factory) : KeepsFactory (execTargetLinkSpeedWrite port writer speed s) := by
  simp [execTargetLinkSpeedWrite, h]

theorem execHotReset_factory (port : PortId) (writer : Writer) (s : State) (h : s.mode = .factory) :
    KeepsFactory (execHotReset port writer s) := by
  simp [execHotReset, h]

/-! ### The mode through `Slots.lean` -/

@[simp] theorem emitDown_mode (s : State) (f : D2dFrame) : (emitDown s f).mode = s.mode := rfl

@[simp] theorem sendHead_mode (s : State) : (sendHead s).mode = s.mode := by
  unfold sendHead; split <;> simp

@[simp] theorem sendD2d_mode (s : State) (f : D2dFrame) : (sendD2d s f).mode = s.mode := by simp [sendD2d]

@[simp] theorem sendQuench_mode (s : State) : (sendQuench s).mode = s.mode := by simp [sendQuench]

@[simp] theorem sendCmd_mode (s : State) (n : Nat) (c : SlotCmd) (value : Nat) :
    (sendCmd s n c value).mode = s.mode := by
  simp [sendCmd]

@[simp] theorem sendCfg_mode (s : State) (n field value : Nat) : (sendCfg s n field value).mode = s.mode := by
  simp [sendCfg]

@[simp] theorem slotInfo_mode (s : State) (n bit : Nat) : (slotInfo s n bit).mode = s.mode := by simp [slotInfo]

@[simp] theorem writeLife_mode (s : State) (n : Nat) (ok : Bool) : (writeLife s n ok).mode = s.mode := by
  simp [writeLife]

@[simp] theorem checkLimits_mode (s : State) (n : Nat) : (checkLimits s n).mode = s.mode := by simp [checkLimits]

@[simp] theorem emitUp_mode (s : State) (f : D2dFrame) : (emitUp s f).mode = s.mode := rfl

@[simp] theorem modPdSlot_mode (s : State) (n : Nat) (f : Slot → Slot) : (modPdSlot s n f).mode = s.mode := by
  simp [modPdSlot]

@[simp] theorem alarm_mode (s : State) (n kind value : Nat) : (alarm s n kind value).mode = s.mode := by simp [alarm]

@[simp] theorem latchRetry_mode (s : State) (n l kind detail : Nat) : (latchRetry s n l kind detail).mode = s.mode := by
  simp [latchRetry]

@[simp] theorem latchFet_mode (s : State) (n l : Nat) : (latchFet s n l).mode = s.mode := by simp [latchFet]

@[simp] theorem orderOn_mode (s : State) (n f : Nat) : (orderOn s n f).mode = s.mode := by simp [orderOn]

@[simp] theorem orderOff_mode (s : State) (n : Nat) : (orderOff s n).mode = s.mode := by simp [orderOff]

@[simp] theorem orderClear_mode (s : State) (n : Nat) : (orderClear s n).mode = s.mode := by simp [orderClear]

@[simp] theorem pinOff_mode (s : State) (n : Nat) (pinB : Bool) : (pinOff s n pinB).mode = s.mode := by simp [pinOff]

@[simp] theorem pinOn_mode (s : State) (n : Nat) (pinB : Bool) : (pinOn s n pinB).mode = s.mode := by simp [pinOn]

theorem execPresencePinChange_factory (n : SlotId) (pinB asserted : Bool) (heldNs : Nat) (s : State)
    (h : s.mode = .factory) : KeepsFactory (execPresencePinChange n pinB asserted heldNs s) := by
  simp [execPresencePinChange, h]

theorem execSeated_factory (n : SlotId) (s : State) (h : s.mode = .factory) : KeepsFactory (execSeated n s) := by
  simp [execSeated, h]

@[simp] theorem containSlot_mode (s : State) (n : Nat) : (containSlot s n).mode = s.mode := by
  unfold containSlot; split <;> simp

@[simp] theorem commandedCut_mode (s : State) (n : Nat) : (commandedCut s n).mode = s.mode := by simp [commandedCut]

@[simp] theorem powerOffLife_mode (s : State) (n : Nat) : (powerOffLife s n).mode = s.mode := by simp [powerOffLife]

@[simp] theorem latchSeen_mode (s : State) (n : Nat) : (latchSeen s n).mode = s.mode := by simp [latchSeen]

@[simp] theorem seatIn_mode (s : State) (n : Nat) : (seatIn s n).mode = s.mode := by simp [seatIn]

@[simp] theorem askClear_mode (s : State) (n : Nat) : (askClear s n).mode = s.mode := by simp [askClear]

@[simp] theorem removal_mode (s : State) (n : Nat) : (removal s n).mode = s.mode := by simp [removal]

@[simp] theorem absentIn_mode (s : State) (n : Nat) : (absentIn s n).mode = s.mode := by
  unfold absentIn; dsimp only; split <;> simp

@[simp] theorem presentIn_mode (s : State) (n : Nat) : (presentIn s n).mode = s.mode := by
  unfold presentIn; split
  · split <;> simp
  · simp

@[simp] theorem locIn_mode (s : State) (n a b : Nat) : (locIn s n a b).mode = s.mode := by simp [locIn]

@[simp] theorem perstIn_mode (s : State) (n : Nat) : (perstIn s n).mode = s.mode := by
  unfold perstIn; split <;> simp

@[simp] theorem statIn_mode (s : State) (n v : Nat) : (statIn s n v).mode = s.mode := by simp [statIn]

theorem execRemoved_factory (n : SlotId) (s : State) (h : s.mode = .factory) : KeepsFactory (execRemoved n s) := by
  unfold execRemoved; simp only [keepsFactory_next]; split <;> simp [h]

@[simp] theorem takeLife_mode (s : State) (n : Nat) (b : List Byte) : (takeLife s n b).mode = s.mode := by
  unfold takeLife; split <;> simp

@[simp] theorem identBad_mode (s : State) (n result : Nat) : (identBad s n result).mode = s.mode := rfl

@[simp] theorem identClass_mode (s : State) (n : Nat) (c : CartRec) : (identClass s n c).mode = s.mode := by
  simp [identClass]

@[simp] theorem identify_mode (s : State) (n : Nat) (c : CartRec) (r : StoreRead) :
    (identify s n c r).mode = s.mode := by
  simp [identify]

theorem execIdentify_factory (n : SlotId) (r : StoreRead) (s : State) (h : s.mode = .factory) :
    KeepsFactory (execIdentify n r s) := by
  unfold execIdentify; simp only [keepsFactory_next]; split <;> simp [h]

theorem execTinningStart_factory (n : SlotId) (feedA feedB : FeedRead) (s : State) (h : s.mode = .factory) :
    KeepsFactory (execTinningStart n feedA feedB s) := by
  simp [execTinningStart, h]

theorem execPowerGood_factory (o : SlotOutput) (s : State) (h : s.mode = .factory) :
    KeepsFactory (execPowerGood o s) := by
  simp [execPowerGood, h]

theorem execRampTimeout_factory (n : SlotId) (s : State) (h : s.mode = .factory) :
    KeepsFactory (execRampTimeout n s) := by
  simp [execRampTimeout, h]

theorem execRampLimit_factory (o : SlotLimit) (s : State) (h : s.mode = .factory) :
    KeepsFactory (execRampLimit o s) := by
  simp [execRampLimit, h]

theorem execShortDuringRamp_factory (o : SlotOutput) (s : State) (h : s.mode = .factory) :
    KeepsFactory (execShortDuringRamp o s) := by
  simp [execShortDuringRamp, h]

theorem execBreaker_factory (o : SlotLimit) (s : State) (h : s.mode = .factory) : KeepsFactory (execBreaker o s) := by
  simp [execBreaker, h]

theorem execSevere_factory (o : SlotSense) (s : State) (h : s.mode = .factory) : KeepsFactory (execSevere o s) := by
  simp [execSevere, h]

theorem execPerstDelayEnd_factory (n : SlotId) (s : State) (h : s.mode = .factory) :
    KeepsFactory (execPerstDelayEnd n s) := by
  unfold execPerstDelayEnd; simp only [keepsFactory_next]; split <;> simp [h]

theorem execFeedWarnChange_factory (n : SlotId) (active : FeedRead) (s : State) (h : s.mode = .factory) :
    KeepsFactory (execFeedWarnChange n active s) := by
  simp [execFeedWarnChange, h]

theorem execWarnEnd_factory (n : SlotId) (s : State) (h : s.mode = .factory) : KeepsFactory (execWarnEnd n s) := by
  simp [execWarnEnd, h]

@[simp] theorem startSwap_mode (s : State) (n f : Nat) : (startSwap s n f).mode = s.mode := by simp [startSwap]

theorem execFeedSwap_factory (o : SlotFeeds) (s : State) (h : s.mode = .factory) : KeepsFactory (execFeedSwap o s) := by
  simp [execFeedSwap, h]

theorem execGateStuck_factory (o : SlotGate) (s : State) (h : s.mode = .factory) :
    KeepsFactory (execGateStuck o s) := by
  simp [execGateStuck, h]

theorem execSwapGapEnd_factory (n : SlotId) (s : State) (h : s.mode = .factory) :
    KeepsFactory (execSwapGapEnd n s) := by
  simp [execSwapGapEnd, h]

theorem execFeedReturn_factory (o : SlotFeedA) (s : State) (h : s.mode = .factory) :
    KeepsFactory (execFeedReturn o s) := by
  simp [execFeedReturn, h]

theorem execBothBad_factory (o : SlotFeeds) (s : State) (h : s.mode = .factory) : KeepsFactory (execBothBad o s) := by
  simp [execBothBad, h]

@[simp] theorem sample_mode (s : State) (n ch code : Nat) : (sample s n ch code).mode = s.mode := by simp [sample]

theorem execFetFail_factory (o : SlotAbove) (feedA feedB : BitVec 12) (s : State) (h : s.mode = .factory) :
    KeepsFactory (execFetFail o feedA feedB s) := by
  simp [execFetFail, h]

theorem execRetryTimerEnd_factory (n : SlotId) (s : State) (h : s.mode = .factory) :
    KeepsFactory (execRetryTimerEnd n s) := by
  unfold execRetryTimerEnd; simp only [keepsFactory_next]; split <;> simp [h]

theorem execFaultCountReset_factory (n : SlotId) (s : State) (h : s.mode = .factory) :
    KeepsFactory (execFaultCountReset n s) := by
  simp [execFaultCountReset, h]

theorem execPatinaHour_factory (n : SlotId) (writeOk : Bool) (s : State) (h : s.mode = .factory) :
    KeepsFactory (execPatinaHour n writeOk s) := by
  simp [execPatinaHour, h]

theorem execEnergyIntegrate_factory (n : SlotId) (feeds : FeedCodes) (out : OutCodes) (s : State)
    (h : s.mode = .factory) : KeepsFactory (execEnergyIntegrate n feeds out s) := by
  simp [execEnergyIntegrate, h]

theorem execHallmarkPass_factory (x : SlotAuth) (s : State) (h : s.mode = .factory) :
    KeepsFactory (execHallmarkPass x s) := by
  unfold execHallmarkPass; simp only [keepsFactory_next]; split <;> simp [h]

@[simp] theorem cutAndForget_mode (s : State) (n : Nat) : (cutAndForget s n).mode = s.mode := by simp [cutAndForget]

theorem execHallmarkFail_factory (n : SlotId) (result : Fin 16) (s : State) (h : s.mode = .factory) :
    KeepsFactory (execHallmarkFail n result s) := by
  unfold execHallmarkFail; simp only [keepsFactory_next]; split <;> simp [h]

@[simp] theorem safeSlot_mode (s : State) (n : Nat) : (safeSlot s n).mode = s.mode := by simp [safeSlot]

@[simp] theorem safeSlots_mode (s : State) : (safeSlots s).mode = s.mode := by simp [safeSlots]

@[simp] theorem quenchSlots_mode (s : State) : (quenchSlots s).mode = s.mode := by simp [quenchSlots]

theorem execD2dLost_factory (side : Side) (s : State) (h : s.mode = .factory) : KeepsFactory (execD2dLost side s) := by
  unfold execD2dLost; simp only [keepsFactory_next]; split <;> simp [h]

@[simp] theorem resendQuench_mode (s : State) : (resendQuench s).mode = s.mode := by
  unfold resendQuench; split <;> simp

@[simp] theorem resendHead_mode (s : State) : (resendHead s).mode = s.mode := by
  unfold resendHead; split <;> simp

theorem execD2dResend_factory (s : State) (h : s.mode = .factory) : KeepsFactory (execD2dResend s) := by
  simp [execD2dResend, h]

theorem pdApply_mode (s : State) (f : D2dFrame) (g : State → State) (h : (g s).mode = s.mode) :
    (pdApply s f g).mode = s.mode := by
  unfold pdApply; dsimp only; split <;> simp [h]

@[simp] theorem pdQuench_mode (s : State) (f : D2dFrame) : (pdQuench s f).mode = s.mode := by simp [pdQuench]

@[simp] theorem cmdIn_mode (s : State) (f : D2dFrame) : (cmdIn s f).mode = s.mode := by
  unfold cmdIn; split <;> simp

@[simp] theorem cfgField_mode (s : State) (f : D2dFrame) : (cfgField s f).mode = s.mode := by simp [cfgField]

@[simp] theorem atPowerDie_mode (s : State) (f : D2dFrame) : (atPowerDie s f).mode = s.mode := by
  unfold atPowerDie; split
  · split
    · exact pdApply_mode _ _ _ (by simp)
    · rfl
  · split
    · exact pdApply_mode _ _ _ (by simp)
    · rfl
  · simp
  · rfl

@[simp] theorem sampleIn_mode (s : State) (f : D2dFrame) : (sampleIn s f).mode = s.mode := rfl

@[simp] theorem alarmIn_mode (s : State) (f : D2dFrame) : (alarmIn s f).mode = s.mode := by simp [alarmIn]

@[simp] theorem ackIn_mode (s : State) (seq : Nat) : (ackIn s seq).mode = s.mode := by
  unfold ackIn; dsimp only; split <;> simp

@[simp] theorem atSwitchDie_mode (s : State) (f : D2dFrame) : (atSwitchDie s f).mode = s.mode := by
  unfold atSwitchDie; split <;> simp

theorem execD2dFrame_factory (side : Side) (f : D2dFrame) (s : State) (h : s.mode = .factory) :
    KeepsFactory (execD2dFrame side f s) := by
  unfold execD2dFrame; simp only [keepsFactory_next]
  split
  · simp [h]
  · split <;> simp [h]

/-! ### The mode through `Cupel.lean` -/

@[simp] theorem putEntry_mode (s : State) (i : Nat) (e : FltEntry) : (putEntry s i e).mode = s.mode := rfl

@[simp] theorem writeLog_mode (s : State) (w : List Nat) : (writeLog s w).mode = s.mode := by simp [writeLog]

@[simp] theorem logEvent_mode (s : State) (k : FltClass) (level : Nat) (w : List Nat) :
    (logEvent s k level w).mode = s.mode := by
  simp [logEvent]

@[simp] theorem setRes_mode (s : State) (i result coverage test lane us : Nat) :
    (setRes s i result coverage test lane us).mode = s.mode :=
  State.setReg_mode ..

@[simp] theorem quenchPorts_mode (s : State) : (quenchPorts s).mode = s.mode := by simp [quenchPorts]

@[simp] theorem quenchTimes_mode (s : State) : (quenchTimes s).mode = s.mode := by simp [quenchTimes]

@[simp] theorem quenchMode_factory (s : State) (essential : Bool) (h : s.mode = .factory) :
    (quenchMode s essential).mode = .factory := by
  simp [quenchMode, h]

@[simp] theorem quench_factory (s : State) (m : Msg) (w : List Nat) (h : s.mode = .factory) :
    (quench s m w).mode = .factory := by
  simp [quench, h]

@[simp] theorem reactStation_factory (s : State) (m : Msg) (h : s.mode = .factory) :
    (reactStation s m).mode = .factory := by
  simp [reactStation, h]

@[simp] theorem reactS3_factory (s : State) (m : Msg) (h : s.mode = .factory) : (reactS3 s m).mode = .factory := by
  unfold reactS3; split
  · split <;> simp [h]
  · exact reactStation_factory s m h
  · dsimp only; split <;> simp [h]
  · split
    · exact foldl_factory _ _ _ (fun a c ha => loseChannel_factory a c _ ha) h
    · exact reactStation_factory s m h
  · exact h

@[simp] theorem reactAer_mode (s : State) (m : Msg) (level : Nat) : (reactAer s m level).mode = s.mode := by
  simp [reactAer]

@[simp] theorem tellFabric_mode (s : State) (m : Msg) (level : Nat) : (tellFabric s m level).mode = s.mode := by
  simp [tellFabric]

@[simp] theorem ringAfter_mode (marked was : Bool) (s : State) : (ringAfter marked was s).mode = s.mode := by
  simp [ringAfter]

@[simp] theorem react_factory (s : State) (m : Msg) (level : Nat) (w : List Nat) (h : s.mode = .factory) :
    (react s m level w).mode = .factory := by
  unfold react; dsimp only
  generalize hu : (if level = 3 then _ else _ : State) = u
  have huf : u.mode = .factory := by subst hu; split <;> simp [h]
  split
  · rw [ringAfter_mode]; exact quench_factory _ m w huf
  · exact huf

@[simp] theorem updatePins_mode (s : State) : (updatePins s).mode = s.mode := by
  unfold updatePins; split <;> simp

@[simp] theorem s4Interrupt_mode (s : State) (before : Nat) : (s4Interrupt s before).mode = s.mode := by
  simp [s4Interrupt]

@[simp] theorem accept_factory (s : State) (m : Msg) (inj : Bool) (h : s.mode = .factory) :
    (accept s m inj).mode = .factory := by
  unfold accept; dsimp only; split
  · simp [h]
  · split
    · rw [updatePins_mode]; exact react_factory _ _ _ _ (by simp [h])
    · rw [updatePins_mode]; exact react_factory _ _ _ _ (by simp [h])

@[simp] theorem raiseFor_factory (s : State) (src kind : Nat) (inj : Bool) (h : s.mode = .factory) :
    (raiseFor s src kind inj).mode = .factory := accept_factory _ _ _ h

theorem execCupelMessage_factory (s : State) (h : s.mode = .factory) : KeepsFactory (execCupelMessage s) := by
  unfold execCupelMessage; simp only [keepsFactory_next]
  split
  · simp [h]
  · split <;> simp [h]

@[simp] theorem endEntry_mode (s : State) (i : Nat) (e : FltEntry) : (endEntry s i e).mode = s.mode := by
  simp [endEntry]

@[simp] theorem endKind_mode (s : State) (src kind : Nat) : (endKind s src kind).mode = s.mode := by
  unfold endKind; split <;> simp

@[simp] theorem setRail_mode (s : State) (r : Nat) (v : RailSt) : (setRail s r v).mode = s.mode := rfl

@[simp] theorem railFault_factory (s : State) (r : Nat) (v : RailSt) (inj : Bool) (h : s.mode = .factory) :
    (railFault s r v inj).mode = .factory := by
  unfold railFault; dsimp only
  generalize ht : (if v = .alarm then _ else s : State) = t
  have htf : t.mode = .factory := by subst ht; split <;> exact h
  split
  · exact htf
  · split <;> exact raiseFor_factory _ _ _ _ (by simp [htf])

theorem execRailAlarm_factory (r : RailId) (s : State) (h : s.mode = .factory) : KeepsFactory (execRailAlarm r s) := by
  simp [execRailAlarm, h]

theorem execRailEqual_factory (r : RailId) (s : State) (h : s.mode = .factory) : KeepsFactory (execRailEqual r s) := by
  simp [execRailEqual, h]

@[simp] theorem conditionEnd_mode (s : State) (i : Nat) (e : FltEntry) : (conditionEnd s i e).mode = s.mode := by
  simp [conditionEnd]

theorem execFaultConditionEnd_factory (entry : Fin 1024) (s : State) (h : s.mode = .factory) :
    KeepsFactory (execFaultConditionEnd entry s) := by
  unfold execFaultConditionEnd; simp only [keepsFactory_next]; split <;> simp [h]

theorem execMsgOvf_factory (r : RailId) (s : State) (h : s.mode = .factory) : KeepsFactory (execMsgOvf r s) := by
  simp [execMsgOvf, h]

theorem execLogLimitMs_factory (s : State) (h : s.mode = .factory) : KeepsFactory (execLogLimitMs s) := by
  simp [execLogLimitMs, h]

theorem execAliveToggle_factory (patternOk : Bool) (s : State) (h : s.mode = .factory) :
    KeepsFactory (execAliveToggle patternOk s) := by
  simp [execAliveToggle, h]

@[simp] theorem raiseHot_mode (s : State) (bit kind base n : Nat) : (raiseHot s bit kind base n).mode = s.mode := by
  simp [raiseHot]

@[simp] theorem rearmHot_mode (s : State) (bit kind : Nat) (degrees : Int) :
    (rearmHot s bit kind degrees).mode = s.mode := by
  simp [rearmHot]

theorem execTemperatureRead_factory (quarterDegrees : List Int) (s : State) (h : s.mode = .factory) :
    KeepsFactory (execTemperatureRead quarterDegrees s) := by
  simp [execTemperatureRead, h]

theorem execHkWatchdog_factory (s : State) (h : s.mode = .factory) : KeepsFactory (execHkWatchdog s) := by
  simp [execHkWatchdog, h]

/-! ### The mode through `Ingot.lean` -/

theorem execIngotSlotFetch_factory (img : FlashSlot) (s : State) (h : s.mode = .factory) :
    KeepsFactory (execIngotSlotFetch img s) := by
  simp [execIngotSlotFetch, h]

@[simp] theorem avsWrite_mode (s : State) (v : Nat) : (avsWrite s v).mode = s.mode := rfl

theorem execIngotApply_factory (hwError : Option Nat) (s : State) (h : s.mode = .factory) :
    KeepsFactory (execIngotApply hwError s) := by
  unfold execIngotApply; simp only [keepsFactory_next]; split <;> simp [h]

/-! ### The mode through `Assay.lean` -/

@[simp] theorem assayFail_mode (s : State) (i : Nat) : (assayFail s i).mode = s.mode := by simp [assayFail]

@[simp] theorem stationFail_factory (s : State) (i : Nat) (h : s.mode = .factory) :
    (stationFail s i).mode = .factory := by
  simp [stationFail, h]

theorem execAssayBlockDone_factory (b : AssayBlock) (o : AssayOutcome) (s : State) (h : s.mode = .factory) :
    KeepsFactory (execAssayBlockDone b o s) := by
  simp [execAssayBlockDone, h]

theorem execAssayStationPairStart_factory (s : State) (h : s.mode = .factory) :
    KeepsFactory (execAssayStationPairStart s) := by
  simp [execAssayStationPairStart, h]

theorem execInternalInitDone_factory (s : State) (h : s.mode = .factory) : KeepsFactory (execInternalInitDone s) := by
  unfold execInternalInitDone; simp only [keepsFactory_next]; split <;> simp [h]

theorem execAssayEnd_factory (s : State) (h : s.mode = .factory) : KeepsFactory (execAssayEnd s) := by
  simp [execAssayEnd, h]

theorem execAssayStationHang_factory (s : State) (h : s.mode = .factory) : KeepsFactory (execAssayStationHang s) := by
  unfold execAssayStationHang; simp only [keepsFactory_next]; split <;> simp [h]

theorem execAvsTick_factory (slacks : List Nat) (s : State) (h : s.mode = .factory) :
    KeepsFactory (execAvsTick slacks s) := by
  simp [execAvsTick, h]

theorem execAvsRetry_factory (acked : Bool) (s : State) (h : s.mode = .factory) :
    KeepsFactory (execAvsRetry acked s) := by
  simp [execAvsRetry, h]

/-! ### The mode through `RegRead.lean` -/

@[simp] theorem afterRead_mode (s : State) (p : Path) (off : Nat) : (afterRead s p off).mode = s.mode := by
  simp [afterRead]

@[simp] theorem touchOn_mode (s : State) (p : Path) (off : Nat) : (touchOn s p off).mode = s.mode := by simp [touchOn]

@[simp] theorem readReg_mode (s : State) (p : Path) (off : Nat) (be : BitVec 4) :
    (readReg s p off be).1.mode = s.mode := by
  unfold readReg; split
  · simp
  · split <;> simp

@[simp] theorem readRegs_mode (s : State) (p : Path) (off : Nat) (be : Nat → BitVec 4) (k : Nat) :
    (readRegs s p off be k).1.mode = s.mode := by
  induction k with
  | zero => rfl
  | succ k ih => unfold readRegs; simp [ih]

/-! ### The mode through `Command.lean` -/

@[simp] theorem cmdGetState_mode (s : State) (path : Path) (seq : Byte) : (cmdGetState s path seq).mode = s.mode := by
  simp [cmdGetState]

@[simp] theorem cmdAckFault_mode (s : State) (path : Path) (seq : Byte) (op level entry : Nat) :
    (cmdAckFault s path seq op level entry).mode = s.mode := by
  simp [cmdAckFault]

@[simp] theorem slotResponse_mode (s : State) (path : Path) (seq : Byte) (n result : Nat) :
    (slotResponse s path seq n result).mode = s.mode := by
  simp [slotResponse]

@[simp] theorem setWant_mode (s : State) (n : Nat) (forced : Bool) : (setWant s n forced).mode = s.mode := by
  simp [setWant]

@[simp] theorem clearWant_mode (s : State) (n : Nat) : (clearWant s n).mode = s.mode := rfl

@[simp] theorem offDrain_mode (s : State) (n : Nat) : (offDrain s n).mode = s.mode := by
  unfold offDrain; split <;> simp

@[simp] theorem clearLatch_mode (s : State) (n : Nat) : (clearLatch s n).mode = s.mode := by simp [clearLatch]

@[simp] theorem cmdSlotPower_mode (s : State) (path : Path) (seq : Byte) (n op : Nat) :
    (cmdSlotPower s path seq n op).mode = s.mode := by
  simp [cmdSlotPower]

@[simp] theorem cmdSetTime_mode (s : State) (path : Path) (seq : Byte) (seconds : Nat) (atPps : Bool) :
    (cmdSetTime s path seq seconds atPps).mode = s.mode := by
  simp [cmdSetTime]

@[simp] theorem groupAdmin_mode (s : State) (g op d : Nat) : (groupAdmin s g op d).mode = s.mode := by simp [groupAdmin]

@[simp] theorem cmdInject_factory (s : State) (path : Path) (seq : Byte) (b : List Byte) (h : s.mode = .factory) :
    (cmdInject s path seq b).mode = .factory := by
  unfold cmdInject; dsimp only; split
  · rw [respondTo_mode]; exact accept_factory _ _ _ h
  · rw [respondTo_mode]; split
    · exact h
    · exact railFault_factory _ _ _ _ h

theorem execEvictComplete_factory (t : TenantId) (s : State) (h : s.mode = .factory) :
    KeepsFactory (execEvictComplete t s) := by
  unfold execEvictComplete; simp only [keepsFactory_next]
  split
  · simp [h]
  · split <;> simp [h]

theorem execEvictTimeout_factory (s : State) (h : s.mode = .factory) : KeepsFactory (execEvictTimeout s) := by
  unfold execEvictTimeout; simp only [keepsFactory_next]; split <;> simp [h]

theorem execSetTimeTimeout_factory (s : State) (h : s.mode = .factory) : KeepsFactory (execSetTimeTimeout s) := by
  unfold execSetTimeTimeout; simp only [keepsFactory_next]; split <;> simp [h]

theorem execSnapshotTake_factory (s : State) (h : s.mode = .factory) : KeepsFactory (execSnapshotTake s) := by
  have hr : s.inRunModes = false := by simp [State.inRunModes, h]
  unfold execSnapshotTake; simp only [keepsFactory_next]; split <;> simp [hr, h]

theorem execPpsEdge_factory (s : State) (h : s.mode = .factory) : KeepsFactory (execPpsEdge s) := by
  simp [execPpsEdge, h]

theorem execHoldover_factory (s : State) (h : s.mode = .factory) : KeepsFactory (execHoldover s) := by
  simp [execHoldover, h]

/-! ### The mode through `Security.lean` -/

@[simp] theorem burnAll_mode (s : State) : (burnAll s).mode = s.mode := by simp [burnAll]

theorem execLifecycleBurn_factory (s : State) (h : s.mode = .factory) : KeepsFactory (execLifecycleBurn s) := by
  simp [execLifecycleBurn, h]

@[simp] theorem authFail_mode (s : State) (path : Path) (seq : Byte) : (authFail s path seq).mode = s.mode := by
  simp [authFail]

@[simp] theorem dropChallenge_mode (s : State) : (dropChallenge s).mode = s.mode := rfl

theorem execUnlockHoldEnd_factory (s : State) (h : s.mode = .factory) : KeepsFactory (execUnlockHoldEnd s) := by
  unfold execUnlockHoldEnd; simp only [keepsFactory_next]; split <;> simp [h]

theorem execMaintBufferScrub_factory (s : State) (h : s.mode = .factory) : KeepsFactory (execMaintBufferScrub s) := by
  simp [execMaintBufferScrub, h]

@[simp] theorem scrubParked_mode (s : State) : (scrubParked s).mode = s.mode := rfl

theorem execScrubDone_factory (s : State) (h : s.mode = .factory) : KeepsFactory (execScrubDone s) := by
  simp [execScrubDone, h]

theorem execSpdmRequest_factory (port : PortId) (req : SpdmReq) (s : State) (h : s.mode = .factory) :
    KeepsFactory (execSpdmRequest port req s) := by
  simp [execSpdmRequest, h]

/-! ### The mode through `Mailbox.lean` -/

theorem conflicts_of_not_legal {s : State} {code : Nat} {b : List Byte} {modes : List Mode} (hm : s.mode ∉ modes)
    (hc : code ≠ 0x0C) : conflicts s code b modes = true := by
  unfold conflicts
  split <;> simp_all

theorem conflicts_enterMaint_factory {s : State} (b : List Byte) (modes : List Mode) (h : s.mode = .factory) :
    conflicts s 0x0C b modes = true := by
  simp [conflicts, State.inRunModes, h]

/-- A command that Factory does not refuse is one whose row admits it. -/
theorem legal_in_factory {s : State} {code : Nat} {b : List Byte} {modes : List Mode} (h : s.mode = .factory)
    (hm : legalModes code = some modes) (hc : ¬ conflicts s code b modes = true) :
    code = 0x01 ∨ code = 0x02 ∨ code = 0x05 ∨ code = 0x07 ∨ code = 0x0D := by
  have hne : code ≠ 0x0C := by
    rintro rfl
    exact hc (conflicts_enterMaint_factory b modes h)
  have hmem : s.mode ∈ modes := Classical.byContradiction fun hn => hc (conflicts_of_not_legal hn hne)
  exact legalModes_factory hm (h ▸ hmem)

theorem carryOut_factory (s : State) (path : Path) (seq : Byte) (code : Nat) (b : List Byte) (run : RuntimeAssay)
    (h : s.mode = .factory) (hc : code = 0x01 ∨ code = 0x02 ∨ code = 0x05 ∨ code = 0x07 ∨ code = 0x0D) :
    (carryOut s path seq code b run).mode = .factory := by
  obtain rfl | rfl | rfl | rfl | rfl := hc
  · exact (cmdGetState_mode s path seq).trans h
  · exact (cmdAckFault_mode s path seq ..).trans h
  · exact (cmdSlotPower_mode s path seq ..).trans h
  · exact (cmdSetTime_mode s path seq ..).trans h
  · exact cmdInject_factory s path seq b h

@[simp] theorem failAuth_mode (s : State) (path : Path) (seq : Byte) (code : Nat) :
    (failAuth s path seq code).mode = s.mode := by
  simp [failAuth]

@[simp] theorem runCode_factory (s : State) (path : Path) (seq : Byte) (code : Nat) (b : List Byte) (sig : Sig)
    (run : RuntimeAssay)
    (h : s.mode = .factory) : (runCode s path seq code b sig run).mode = .factory := by
  unfold runCode; split
  · simp [h]
  · next modes hm =>
    by_cases hc : conflicts s code b modes = true
    · simp only [hc, if_true, mode_ite, respondTo_mode, reportConflict_mode, h, ite_self]
    · have ho := carryOut_factory s path seq code b run h (legal_in_factory h hm hc)
      simp only [hc, mode_ite, respondTo_mode, failAuth_mode, ho, h, ite_self]
      simp

@[simp] theorem issueWith_factory (s : State) (path : Path) (seq : Byte) (code : Nat) (b : List Byte) (sig : Sig)
    (run : RuntimeAssay)
    (h : s.mode = .factory) : (issueWith s path seq code b sig run).mode = .factory := by
  unfold issueWith; split
  · exact runCode_factory _ path seq code b sig run (by simp [h])
  · exact h

@[simp] theorem issue_factory (s : State) (path : Path) (seq : Byte) (code : Nat) (b : List Byte) (h : s.mode = .factory) :
    (issue s path seq code b).mode = .factory := issueWith_factory _ _ _ _ _ _ _ h

theorem keepsFactory_issueWith (s : State) (path : Path) (seq : Byte) (code : Nat) (b : List Byte) (sig : Sig)
    (run : RuntimeAssay) (h : s.mode = .factory) : KeepsFactory (.next (issueWith s path seq code b sig run)) :=
  keepsFactory_next.2 (issueWith_factory _ _ _ _ _ _ _ h)

theorem keepsFactory_issue (s : State) (path : Path) (seq : Byte) (code : Nat) (b : List Byte) (h : s.mode = .factory) :
    KeepsFactory (.next (issue s path seq code b)) :=
  keepsFactory_next.2 (issue_factory _ _ _ _ _ h)

/-! ### The mode through `RegWrite.lean` -/

@[simp] theorem writePlain_mode (s : State) (off : Nat) (be : BitVec 4) (v : W32) :
    (writePlain s off be v).mode = s.mode := by
  simp [writePlain]

@[simp] theorem writeGop_mode (s : State) (be : BitVec 4) (v : W32) : (writeGop s be v).mode = s.mode := by
  simp [writeGop]

@[simp] theorem goCmd_factory (s : State) (p : Path) (h : s.mode = .factory) : (goCmd s p).mode = .factory :=
  runCode_factory _ _ _ _ _ _ _ h

@[simp] theorem writeMbx_factory (s : State) (p : Path) (x : Nat) (be : BitVec 4) (v : W32) (h : s.mode = .factory) :
    (writeMbx s p x be v).mode = .factory := by
  have hg : (goCmd (touchMbx s) p).mode = .factory := goCmd_factory _ p h
  unfold writeMbx; dsimp only
  simp only [mode_ite, flushMf_mode, State.setReg_mode, touchMbx_mode, releaseMbx_mode, State.modMbx_mode, hg, h, ite_self]

@[simp] theorem writeReg_factory (s : State) (p : Path) (off : Nat) (be : BitVec 4) (v : W32) (h : s.mode = .factory) :
    (writeReg s p off be v).mode = .factory := by
  unfold writeReg; split
  · exact writeMbx_factory _ _ _ _ _ h
  · simp [h]

@[simp] theorem writeRegs_factory (s : State) (p : Path) (off : Nat) (be : Nat → BitVec 4) (i : Nat) (l : List W32)
    (h : s.mode = .factory) : (writeRegs s p off be i l).mode = .factory := by
  induction l generalizing s i with
  | nil => exact h
  | cons v r ih => exact ih _ _ (writeReg_factory s p _ _ v h)

@[simp] theorem writeMcx_mode (s : State) (vn r : Nat) (be : BitVec 4) (v : W32) :
    (writeMcx s vn r be v).mode = s.mode := by
  unfold writeMcx; dsimp only; split <;> simp

@[simp] theorem setVfBars_mode (s : State) (vn base size : Nat) (two : Bool) :
    (setVfBars s vn base size two).mode = s.mode := by
  simp [setVfBars]

@[simp] theorem writeVfBar_mode (s : State) (vn : Nat) (two high : Bool) (be : BitVec 4) (v : W32) :
    (writeVfBar s vn two high be v).mode = s.mode := by
  unfold writeVfBar; dsimp only; split <;> simp

@[simp] theorem writeMc_mode (s : State) (vn r : Nat) (be : BitVec 4) (v : W32) :
    (writeMc s vn r be v).mode = s.mode := by
  unfold writeMc; split <;> simp

@[simp] theorem writeFn_mode (s : State) (vn r : Nat) (be : BitVec 4) (v : W32) :
    (writeFn s vn r be v).mode = s.mode := by
  unfold writeFn; split <;> simp

@[simp] theorem writeVh_mode (s : State) (vn r : Nat) (be : BitVec 4) (v : W32) :
    (writeVh s vn r be v).mode = s.mode := by
  simp [writeVh]

@[simp] theorem writeRing_mode (s : State) (t i : Nat) (be : BitVec 4) (v : W32) :
    (writeRing s t i be v).mode = s.mode := by
  simp [writeRing]

@[simp] theorem writeVf_mode (s : State) (t off : Nat) (be : BitVec 4) (v : W32) :
    (writeVf s t off be v).mode = s.mode := by
  simp [writeVf]

@[simp] theorem writeBridgeReg_mode (s : State) (x : PortChip) (r : Nat) (be : BitVec 4) (v : W32) :
    (writeBridgeReg s x r be v).mode = s.mode := by
  unfold writeBridgeReg; split
  · split <;> simp
  · simp

theorem execRegisterWrite_factory (target : RegTarget) (be : BitVec 4) (value : W32) (s : State)
    (h : s.mode = .factory) : KeepsFactory (execRegisterWrite target be value s) := by
  unfold execRegisterWrite; simp only [keepsFactory_next]; split <;> simp [h]

@[simp] theorem mcReceive_mode (s : State) (x : PortChip) (vn : Nat) (bits : W64) :
    (mcReceive s x vn bits).mode = s.mode := by
  unfold mcReceive
  refine foldl_mode _ _ _ (fun a x => ?_)
  split <;> simp

theorem execMcReceiveWrite_factory (a : ChipPort) (bits : W64) (s : State) (h : s.mode = .factory) :
    KeepsFactory (execMcReceiveWrite a bits s) := by
  unfold execMcReceiveWrite; simp only [keepsFactory_next]; split <;> simp [h]

theorem execDpcSoftwareTrigger_factory (port : PortId) (s : State) (h : s.mode = .factory) :
    KeepsFactory (execDpcSoftwareTrigger port s) := by
  simp [execDpcSoftwareTrigger, h]

theorem execDpcTriggerStatusClear_factory (port : PortId) (s : State) (h : s.mode = .factory) :
    KeepsFactory (execDpcTriggerStatusClear port s) := by
  simp [execDpcTriggerStatusClear, h]

theorem execI3cWrite_factory (off : Nat) (bytes : List Byte) (s : State) (h : s.mode = .factory) :
    KeepsFactory (execI3cWrite off bytes s) := by
  simp [execI3cWrite, h]

theorem execI3cReadSetup_factory (off : Nat) (count : Nat) (s : State) (h : s.mode = .factory) :
    KeepsFactory (execI3cReadSetup off count s) := by
  simp [execI3cReadSetup, h]

theorem execI3cPrivateRead_factory (s : State) (h : s.mode = .factory) : KeepsFactory (execI3cPrivateRead s) := by
  unfold execI3cPrivateRead; simp only [keepsFactory_next]
  split
  · simp [h]
  · split <;> simp [h]

theorem execI3cAddressAssign_factory (addr : BitVec 7) (s : State) (h : s.mode = .factory) :
    KeepsFactory (execI3cAddressAssign addr s) := by
  simp [execI3cAddressAssign, h]

/-! ### The mode through `CfgSpace.lean` -/

@[simp] theorem afterCfgRead_mode (s : State) (f : CfgFn) (r : Nat) (be : BitVec 4) :
    (afterCfgRead s f r be).mode = s.mode := by
  unfold afterCfgRead; split <;> simp

@[simp] theorem readCfg_mode (s : State) (p : Nat) (t : Tlp) : (readCfg s p t).1.mode = s.mode := by
  unfold readCfg; split <;> simp

/-! ### The mode through `Debug.lean` -/

@[simp] theorem debugNone_mode (s : State) (write : Bool) (n : Nat) : (debugNone s write n).mode = s.mode := by
  simp [debugNone]

@[simp] theorem debugRefuse_mode (s : State) (g : Nat) (write : Bool) (a n bad cause region : Nat) :
    (debugRefuse s g write a n bad cause region).mode = s.mode := by
  simp only [debugRefuse, debugNone_mode, State.setEvt_mode, State.bump_mode]
  exact rejectAt_mode _ _ _ _ _ _ _ (fun _ => report_mode ..)

@[simp] theorem debugRegs_factory (s : State) (write : Bool) (a n : Nat) (data : List Byte) (h : s.mode = .factory) :
    (debugRegs s write a n data).mode = .factory := by
  have hw : ∀ p : Path, (writeRegs s p a (fun _ => 15) 0 (wordsFrom (n / 4) data)).mode = .factory :=
    fun p => writeRegs_factory _ _ _ _ _ _ h
  unfold debugRegs; dsimp only
  simp only [mode_ite, debugNone_mode, report_mode, State.emit_mode, readRegs_mode, hw, h, ite_self]

@[simp] theorem debugAccess_factory (s : State) (g : Nat) (write : Bool) (a n : Nat) (data : List Byte) (h : s.mode = .factory) :
    (debugAccess s g write a n data).mode = .factory := by
  unfold debugAccess; split
  · exact debugRegs_factory _ _ _ _ _ h
  · simp [h]

theorem execDebugMasterAccess_factory (via : DebugVia) (gate : Fin 4) (write : Bool) (addr : Nat) (len : Nat)
    (data : List Byte) (s : State) (h : s.mode = .factory) :
    KeepsFactory (execDebugMasterAccess via gate write addr len data s) := by
  unfold execDebugMasterAccess; simp only [keepsFactory_next]
  split
  · simp [h]
  · split <;> simp [h]

theorem execJtagKeyProvision_factory (slot : Fin 4) (key : Nat) (s : State) (h : s.mode = .factory) :
    KeepsFactory (execJtagKeyProvision slot key s) := by
  simp [execJtagKeyProvision, h]

theorem execJtagFieldReturn_factory (s : State) (h : s.mode = .factory) : KeepsFactory (execJtagFieldReturn s) := by
  simp [execJtagFieldReturn, h]

/-! ### The mode through `Reset.lean` -/

@[simp] theorem resetPowerDie_mode (s : State) : (resetPowerDie s).mode = s.mode := rfl

@[simp] theorem debounceAll_mode (s : State) : (debounceAll s).mode = s.mode := by simp [debounceAll]

@[simp] theorem leaveReset_factory (s : State) (h : s.mode = .factory) : (leaveReset s).mode = .factory := by
  simp [leaveReset, h]

theorem execPerstNDeassert_factory (s : State) (h : s.mode = .factory) : KeepsFactory (execPerstNDeassert s) := by
  simp [execPerstNDeassert, h]

theorem execSlotWarnCutTimer_factory (n : SlotId) (s : State) (h : s.mode = .factory) :
    KeepsFactory (execSlotWarnCutTimer n s) := by
  simp [execSlotWarnCutTimer, h]

theorem execSlotPowerDieReset_factory (mv durNs : Nat) (s : State) (h : s.mode = .factory) :
    KeepsFactory (execSlotPowerDieReset mv durNs s) := by
  simp [execSlotPowerDieReset, h]

theorem execVccPdResetRelease_factory (mv : Nat) (s : State) (h : s.mode = .factory) :
    KeepsFactory (execVccPdResetRelease mv s) := by
  simp [execVccPdResetRelease, h]

/-! ### The mode through `Serve.lean` -/

@[simp] theorem readVf_mode (s : State) (t off : Nat) (be : BitVec 4) : (readVf s t off be).1.mode = s.mode := by
  unfold readVf; dsimp only; repeat' split
  all_goals simp

@[simp] theorem readVfs_mode (s : State) (t off : Nat) (be : Nat → BitVec 4) (k : Nat) :
    (readVfs s t off be k).1.mode = s.mode := by
  induction k with
  | zero => rfl
  | succ k ih => unfold readVfs; simp [ih]

@[simp] theorem writeVfs_mode (s : State) (t off : Nat) (be : Nat → BitVec 4) (i : Nat) (l : List W32) :
    (writeVfs s t off be i l).mode = s.mode := by
  induction l generalizing s i with
  | nil => rfl
  | cons w r ih => exact (ih _ _).trans (writeVf_mode s t _ _ w)

@[simp] theorem cruUr_mode (s : State) (o : Owner) (src : Src) (q : Tlp) : (cruUr s o src q).mode = s.mode := by
  simp [cruUr]

@[simp] theorem serveVfBar0_mode (s : State) (t off : Nat) (src : Src) (q : Tlp) :
    (serveVfBar0 s t off src q).mode = s.mode := by
  unfold serveVfBar0; dsimp only
  split
  · simp
  · split
    · simp
    · rw [foldl_mode _ _ _ (by simp), readVfs_mode]

@[simp] theorem deliverCru_mode (s : State) (o : Owner) (src : Src) (trusted : Bool) (q : Tlp) :
    (deliverCru s o src trusted q).mode = s.mode := by
  unfold deliverCru; split
  · simp
  · split <;> simp

@[simp] theorem hkAnswer_mode (s : State) (src : Src) (o : Owner) (c : Tlp) : (hkAnswer s src o c).mode = s.mode := by
  simp [hkAnswer]

@[simp] theorem mfRefuse_mode (s : State) (o : Owner) (src : Src) (q : Tlp) : (mfRefuse s o src q).mode = s.mode := by
  simp [mfRefuse]

@[simp] theorem serveMf0_factory (s : State) (o : Owner) (off : Nat) (src : Src) (q : Tlp) (h : s.mode = .factory) :
    (serveMf0 s o off src q).mode = .factory := by
  unfold serveMf0; dsimp only
  split <;> simp [h]

@[simp] theorem putHk_mode (s : State) (off : Nat) (q : Tlp) : (putHk s off q).mode = s.mode := rfl

@[simp] theorem serveMf2_mode (s : State) (o : Owner) (off : Nat) (src : Src) (q : Tlp) :
    (serveMf2 s o off src q).mode = s.mode := by
  unfold serveMf2; split <;> simp

@[simp] theorem deliverHk_factory (s : State) (o : Owner) (src : Src) (q : Tlp) (h : s.mode = .factory) :
    (deliverHk s o src q).mode = .factory := by
  unfold deliverHk; split
  · exact h
  · split
    · exact serveMf0_factory _ _ _ _ _ h
    · simp [h]
    · exact h

/-! ### The mode through `Ingest.lean` -/

@[simp] theorem refuseNp_mode (s : State) (p : Nat) (src : Src) (o : Owner) (t : Tlp) (st : CplStatus) :
    (refuseNp s p src o t st).mode = s.mode := by
  simp [refuseNp]

@[simp] theorem urReject_mode (s : State) (p : Nat) (src : Src) (o : Owner) (t : Tlp) (kind bit : Nat)
    (d : Option PortChip) : (urReject s p src o t kind bit d).mode = s.mode := by
  simp [urReject]

@[simp] theorem gateRefuse_mode (s : State) (p : Nat) (src : Src) (o : Owner) (t : Tlp) (d : Option PortChip)
    (x : Denied) (matched : Bool) (c bad n : Nat) : (gateRefuse s p src o t d x matched c bad n).mode = s.mode := by
  simp [gateRefuse]

@[simp] theorem stageIn_mode (s : State) (e : Entering) (t : Tlp) (d : Dest) : (stageIn s e t d).mode = s.mode := rfl

@[simp] theorem noRouteIn_mode (s : State) (e : Entering) (t : Tlp) (f : Farug) :
    (noRouteIn s e t f).mode = s.mode := by
  simp [noRouteIn]

@[simp] theorem toContained_mode (s : State) (e : Entering) (t : Tlp) (q : Nat) :
    (toContained s e t q).mode = s.mode := by
  simp [toContained]

@[simp] theorem toDraining_mode (s : State) (e : Entering) (t : Tlp) (q : Nat) :
    (toDraining s e t q).mode = s.mode := by
  simp [toDraining]

@[simp] theorem toLocal_mode (s : State) (e : Entering) (t : Tlp) (q : Nat) : (toLocal s e t q).mode = s.mode := by
  simp [toLocal]

@[simp] theorem toDest_mode (s : State) (e : Entering) (t : Tlp) (d : Dest) : (toDest s e t d).mode = s.mode := by
  unfold toDest; dsimp only; repeat' split
  all_goals simp

@[simp] theorem cfgAnswer_mode (s : State) (p : Nat) (src : Src) (o : Owner) (t : Tlp) :
    (cfgAnswer s p src o t).mode = s.mode := by
  simp [cfgAnswer]

@[simp] theorem carryVerdict_mode (s : State) (e : Entering) (t : Tlp) (v : Verdict) :
    (carryVerdict s e t v).mode = s.mode := by
  unfold carryVerdict; split <;> simp

@[simp] theorem dropRed_mode (s : State) (p : Nat) (src : Src) (o : Owner) (t : Tlp) :
    (dropRed s p src o t).mode = s.mode := by
  unfold dropRed; dsimp only; split <;> simp

@[simp] theorem routeIn_mode (s : State) (p : PortId) (o : Owner) (trusted : Bool) (t : Tlp) :
    (routeIn s p o trusted t).mode = s.mode := by
  unfold routeIn; dsimp only; split
  · simp
  · next k r _ =>
    have hk := colour_mode s k (tlpBytes t)
    split <;> simp_all

@[simp] theorem classMiss_mode (s : State) (p : Nat) (t : Tlp) : (classMiss s p t).mode = s.mode := by simp [classMiss]

@[simp] theorem hearErrMsg_mode (s : State) (p : Nat) (o : Owner) (t : Tlp) : (hearErrMsg s p o t).mode = s.mode := by
  simp [hearErrMsg]

@[simp] theorem pmeOff_mode (s : State) (p : Nat) : (pmeOff s p).mode = s.mode := by simp [pmeOff]

@[simp] theorem classifyIn_mode (s : State) (p : PortId) (t : Tlp) : (classifyIn s p t).mode = s.mode := by
  unfold classifyIn; split <;> simp

@[simp] theorem earlyIn_mode (s : State) (p : Nat) (t : Tlp) : (earlyIn s p t).mode = s.mode := by simp [earlyIn]

@[simp] theorem safeIn_mode (s : State) (p : PortId) (t : Tlp) : (safeIn s p t).mode = s.mode := by
  unfold safeIn; split
  · simp
  · split <;> simp

@[simp] theorem quarantinedIn_mode (s : State) (p : PortId) (t : Tlp) : (quarantinedIn s p t).mode = s.mode := by
  unfold quarantinedIn; split <;> simp

@[simp] theorem requestIn_mode (s : State) (p : PortId) (t : Tlp) : (requestIn s p t).mode = s.mode := by
  simp [requestIn]

theorem execRequestReceived_factory (port : PortId) (tlp : Tlp) (s : State) (h : s.mode = .factory) :
    KeepsFactory (execRequestReceived port tlp s) := by
  simp [execRequestReceived, h]

theorem execErrorMessageReceived_factory (port : PortId) (tlp : Tlp) (s : State) (h : s.mode = .factory) :
    KeepsFactory (execErrorMessageReceived port tlp s) := by
  simp [execErrorMessageReceived, h]

@[simp] theorem refuseStaged_mode (s : State) (x : Staged) (q : Option Nat) : (refuseStaged s x q).mode = s.mode := by
  unfold refuseStaged; dsimp only; split <;> simp

@[simp] theorem queueStaged_mode (s : State) (x : Staged) (e : Nat) (f : Option Farug) :
    (queueStaged s x e f).mode = s.mode := by
  simp [queueStaged]

@[simp] theorem deliverStaged_factory (s : State) (x : Staged) (ecc : Option (Nat × Bool)) (h : s.mode = .factory) :
    (deliverStaged s x ecc).mode = .factory := by
  unfold deliverStaged; split
  · exact h
  · dsimp only; split
    · simp [h]
    · split
      · simp [h]
      · exact deliverHk_factory _ _ _ _ (by simp [h])

@[simp] theorem admitOne_factory (s : State) (ecc : Option (Nat × Bool)) (x : Staged) (h : s.mode = .factory) :
    (admitOne s ecc x).mode = .factory := by
  unfold admitOne; split
  · exact h
  · split
    · simp [h]
    · split
      · exact h
      · simp [h]
      · split <;> simp [h]
      · split
        · exact deliverStaged_factory s x ecc h
        · simp [h]

@[simp] theorem admitFirst_factory (s : State) (ecc : Option (Nat × Bool)) (l : List Staged) (h : s.mode = .factory) :
    (admitFirst s ecc l).mode = .factory := by
  induction l generalizing s with
  | nil => exact h
  | cons x r ih =>
    unfold admitFirst; dsimp only; split
    · exact ih _ (admitOne_factory s ecc x h)
    · exact admitOne_factory s ecc x h

theorem execAdmit_factory (a : Admission) (s : State) (h : s.mode = .factory) : KeepsFactory (execAdmit a s) := by
  simp [execAdmit, h]

/-! ### The mode through `Complete.lean` -/

@[simp] theorem lateCpl_mode (s : State) (p : Nat) (o : Owner) (dest : Option (Nat × Nat)) :
    (lateCpl s p o dest).mode = s.mode := by
  simp [lateCpl]

@[simp] theorem unexpectedCpl_mode (s : State) (p : Nat) : (unexpectedCpl s p).mode = s.mode := by simp [unexpectedCpl]

@[simp] theorem forwardCpl_mode (s : State) (p : PortId) (e : Trk) (c : Tlp) : (forwardCpl s p e c).mode = s.mode := by
  simp [forwardCpl]

@[simp] theorem untrackedCpl_mode (s : State) (p : PortId) (c : Tlp) : (untrackedCpl s p c).mode = s.mode := by
  unfold untrackedCpl; repeat' split
  all_goals simp

@[simp] theorem cplIn_mode (s : State) (p : PortId) (c : Tlp) : (cplIn s p c).mode = s.mode := by
  unfold cplIn; split
  · split <;> simp
  · split
    · simp
    · split <;> simp

theorem execCompletionReceived_factory (port : PortId) (tlp : Tlp) (s : State) (h : s.mode = .factory) :
    KeepsFactory (execCompletionReceived port tlp s) := by
  simp [execCompletionReceived, h]

@[simp] theorem timeOut_mode (s : State) (e : Trk) : (timeOut s e).mode = s.mode := by simp [timeOut]

theorem execCompletionTimeout_factory (s : State) (h : s.mode = .factory) : KeepsFactory (execCompletionTimeout s) := by
  simp [execCompletionTimeout, h]

theorem execTagQuarantineEnd_factory (s : State) (h : s.mode = .factory) : KeepsFactory (execTagQuarantineEnd s) := by
  simp [execTagQuarantineEnd, h]

theorem execIdeQuarantineEnd_factory (s : State) (h : s.mode = .factory) : KeepsFactory (execIdeQuarantineEnd s) := by
  simp [execIdeQuarantineEnd, h]

theorem execContainmentComplete_factory (port : PortId) (s : State) (h : s.mode = .factory) :
    KeepsFactory (execContainmentComplete port s) := by
  simp [execContainmentComplete, h]

theorem execOrderlyDrainEnd_factory (port : PortId) (s : State) (h : s.mode = .factory) :
    KeepsFactory (execOrderlyDrainEnd port s) := by
  unfold execOrderlyDrainEnd; simp only [keepsFactory_next]; repeat' split
  all_goals simp [h]

@[simp] theorem misdelivered_mode (s : State) (p : Nat) : (misdelivered s p).mode = s.mode := by simp [misdelivered]

@[simp] theorem transit_mode (s : State) (p : PortId) (f : Farug) (t : Tlp) : (transit s p f t).mode = s.mode := by
  unfold transit; dsimp only; repeat' split
  all_goals simp

@[simp] theorem countArrival_mode (s : State) (f : Farug) : (countArrival s f).mode = s.mode := rfl

@[simp] theorem missFar_mode (s : State) (q : Nat) (t : Tlp) : (missFar s q t).mode = s.mode := by
  unfold missFar; split
  · rfl
  · split <;> simp

@[simp] theorem arrive_mode (s : State) (p : PortId) (f : Farug) (t : Tlp) : (arrive s p f t).mode = s.mode := by
  unfold arrive; dsimp only; repeat' split
  all_goals simp

theorem execFabricTlpReceived_factory (port : PortId) (f : Farug) (tlp : Tlp) (s : State) (h : s.mode = .factory) :
    KeepsFactory (execFabricTlpReceived port f tlp s) := by
  simp [execFabricTlpReceived, h]

/-! ### Every command in Factory -/

theorem execPerstNAssert_ignored (ns : Nat) {s : State} (h : s.mode = .factory) :
    ∃ t, execPerstNAssert ns s = .next t ∧ t = { s with perstN := t.perstN } := by
  by_cases hn : ns < 1000
  · exact ⟨s, by simp [execPerstNAssert, hn], rfl⟩
  · exact ⟨{ s with perstN := false }, by simp [execPerstNAssert, hn, h], rfl⟩

theorem execFabricResetStart_ignored {s : State} (h : s.mode = .factory) : execFabricResetStart s = .next s := by
  unfold execFabricResetStart
  split <;> simp [h]


/-- Factory outlives every command but the two that take power-good away. -/
theorem exec_factory (c : Instr) (s : State) (h : s.mode = .factory) (hg : ∀ ns, c ≠ .powerGoodLost ns)
    (hr : ∀ ns, c ≠ .powerOnReset ns) : KeepsFactory (exec c s) := by
  cases c with
  | powerOnReset ns => exact absurd rfl (hr ns)
  | powerGoodLost ns => exact absurd rfl (hg ns)
  | perstNAssert ns =>
    obtain ⟨t, ht, he⟩ := execPerstNAssert_ignored ns h
    exact ⟨t, ht, by rw [he]; exact h⟩
  | perstNDeassert => exact execPerstNDeassert_factory s h
  | slotWarnCutTimer n => exact execSlotWarnCutTimer_factory n s h
  | slotPowerDieReset mv durNs => exact execSlotPowerDieReset_factory mv durNs s h
  | ingotSlotFetch img => exact execIngotSlotFetch_factory img s h
  | ingotApply hwError => exact execIngotApply_factory hwError s h
  | assayBlockDone b o => exact execAssayBlockDone_factory b o s h
  | assayStationPairStart => exact execAssayStationPairStart_factory s h
  | internalInitDone => exact execInternalInitDone_factory s h
  | assayEnd => exact execAssayEnd_factory s h
  | lifecycleBurn => exact execLifecycleBurn_factory s h
  | mbxClaimRead path => exact execMbxClaimRead_factory path s h
  | mbxRelease path => exact execMbxRelease_factory path s h
  | mbxIdleRelease => exact execMbxIdleRelease_factory s h
  | getState _ _ => exact keepsFactory_issue _ _ _ _ _ h
  | ackFaultEntry _ _ _ => exact keepsFactory_issue _ _ _ _ _ h
  | ackFaultUpToLevel _ _ _ => exact keepsFactory_issue _ _ _ _ _ h
  | ackFaultAll _ _ => exact keepsFactory_issue _ _ _ _ _ h
  | releaseContain _ _ _ => exact keepsFactory_issue _ _ _ _ _ h
  | amend _ _ _ _ _ => exact keepsFactory_issue _ _ _ _ _ h
  | amendPart _ _ _ _ _ => exact keepsFactory_issue _ _ _ _ _ h
  | slotPowerRead _ _ _ => exact keepsFactory_issue _ _ _ _ _ h
  | slotPowerOn _ _ _ => exact keepsFactory_issue _ _ _ _ _ h
  | slotPowerForceOn _ _ _ => exact keepsFactory_issue _ _ _ _ _ h
  | slotPowerOff _ _ _ => exact keepsFactory_issue _ _ _ _ _ h
  | slotPowerOffDrain _ _ _ => exact keepsFactory_issue _ _ _ _ _ h
  | slotPowerClearLatch _ _ _ => exact keepsFactory_issue _ _ _ _ _ h
  | assayStation _ _ _ _ => exact keepsFactory_issueWith _ _ _ _ _ _ _ h
  | assayStationHang => exact execAssayStationHang_factory s h
  | setTime _ _ _ _ => exact keepsFactory_issue _ _ _ _ _ h
  | setTimeTimeout => exact execSetTimeTimeout_factory s h
  | snapshotAt _ _ _ _ => exact keepsFactory_issue _ _ _ _ _ h
  | snapshotTake => exact execSnapshotTake_factory s h
  | routeEpoch _ _ _ _ => exact keepsFactory_issue _ _ _ _ _ h
  | routeEpochPrepareTimeout => exact execRouteEpochPrepareTimeout_factory s h
  | epochFlip => exact execEpochFlip_factory s h
  | drainTimeout chip => exact execDrainTimeout_factory chip s h
  | unlockChallenge _ _ _ => exact keepsFactory_issue _ _ _ _ _ h
  | unlockResponse _ _ _ _ => exact keepsFactory_issueWith _ _ _ _ _ _ _ h
  | unlockHoldEnd => exact execUnlockHoldEnd_factory s h
  | enterMaintTarget0 _ _ => exact keepsFactory_issue _ _ _ _ _ h
  | maintBufferScrub => exact execMaintBufferScrub_factory s h
  | scrubDone => exact execScrubDone_factory s h
  | enterMaintTarget1 _ _ => exact keepsFactory_issue _ _ _ _ _ h
  | injectMessage _ _ _ => exact keepsFactory_issue _ _ _ _ _ h
  | injectRailAlarm _ _ _ _ => exact keepsFactory_issue _ _ _ _ _ h
  | injectRailEqual _ _ _ _ => exact keepsFactory_issue _ _ _ _ _ h
  | injectD2dBreak _ _ _ => exact keepsFactory_issue _ _ _ _ _ h
  | evictTenant _ _ _ => exact keepsFactory_issue _ _ _ _ _ h
  | evictComplete t => exact execEvictComplete_factory t s h
  | evictTimeout => exact execEvictTimeout_factory s h
  | groupAdminRead _ _ _ _ => exact keepsFactory_issue _ _ _ _ _ h
  | groupAdminAdd _ _ _ _ => exact keepsFactory_issue _ _ _ _ _ h
  | groupAdminRemove _ _ _ _ => exact keepsFactory_issue _ _ _ _ _ h
  | resume _ _ => exact keepsFactory_issue _ _ _ _ _ h
  | passwordUnlock _ _ _ => exact keepsFactory_issue _ _ _ _ _ h
  | registerWrite target be value => exact execRegisterWrite_factory target be value s h
  | timNowloRead path => exact execTimNowloRead_factory path s h
  | vfNtfypopRead t be => exact execVfNtfypopRead_factory t be s h
  | vfSqtailWrite t tail => exact execVfSqtailWrite_factory t tail s h
  | fabGopBarrier path barrierId => exact execFabGopBarrier_factory path barrierId s h
  | fabGopBroadcast path => exact execFabGopBroadcast_factory path s h
  | fabGopCancel path => exact execFabGopCancel_factory path s h
  | fabGopFabricReset path confirm => exact execFabGopFabricReset_factory path confirm s h
  | mcReceiveWrite x bits => exact execMcReceiveWrite_factory x bits s h
  | linkDisable port writer disable => exact execLinkDisable_factory port writer disable s h
  | retrainLink port writer => exact execRetrainLink_factory port writer s h
  | targetLinkSpeedWrite port writer speed => exact execTargetLinkSpeedWrite_factory port writer speed s h
  | dpcSoftwareTrigger port => exact execDpcSoftwareTrigger_factory port s h
  | dpcTriggerStatusClear port => exact execDpcTriggerStatusClear_factory port s h
  | vfBmeClear t => exact execVfBmeClear_factory t s h
  | vfBmeSet t => exact execVfBmeSet_factory t s h
  | vfFlr t => exact execVfFlr_factory t s h
  | vfFlrComplete t => exact execVfFlrComplete_factory t s h
  | laneMarginingCommand st j lastStepNs => exact execLaneMarginingCommand_factory st j lastStepNs s h
  | i3cWrite off bytes => exact execI3cWrite_factory off bytes s h
  | i3cReadSetup off count => exact execI3cReadSetup_factory off count s h
  | i3cPrivateRead => exact execI3cPrivateRead_factory s h
  | i3cAddressAssign addr => exact execI3cAddressAssign_factory addr s h
  | debugMasterAccess via gate write addr len data => exact execDebugMasterAccess_factory via gate write addr len data s h
  | jtagKeyProvision slot key => exact execJtagKeyProvision_factory slot key s h
  | jtagFieldReturn => exact execJtagFieldReturn_factory s h
  | spdmRequest port req => exact execSpdmRequest_factory port req s h
  | requestReceived port tlp => exact execRequestReceived_factory port tlp s h
  | poolWindowAccess t a => exact execPoolWindowAccess_factory t a s h
  | multicastWrite port => exact execMulticastWrite_factory port s h
  | atomicAdmitTimeout port => exact execAtomicAdmitTimeout_factory port s h
  | parkRedelivery g dest readError => exact execParkRedelivery_factory g dest readError s h
  | deliveryReportWrite => exact execDeliveryReportWrite_factory s h
  | sampleWrite writerFull => exact execSampleWrite_factory writerFull s h
  | completionReceived port tlp => exact execCompletionReceived_factory port tlp s h
  | errorMessageReceived port tlp => exact execErrorMessageReceived_factory port tlp s h
  | ptmRequest port rxStamp => exact execPtmRequest_factory port rxStamp s h
  | admitTlp a => exact execAdmit_factory a s h
  | policerTick => exact execPolicerTick_factory s h
  | descriptorClose id c => exact execDescriptorClose_factory id c s h
  | egressSelection port m => exact execEgressSelection_factory port m s h
  | stallRel port => exact execStallRel_factory port s h
  | fabricStallStomp x => exact execFabricStallStomp_factory x s h
  | thresholdTick => exact execThresholdTick_factory s h
  | shaperRefill => exact execShaperRefill_factory s h
  | gateBoundary port => exact execGateBoundary_factory port s h
  | gateListSwitch port => exact execGateListSwitch_factory port s h
  | monitorSample port => exact execMonitorSample_factory port s h
  | completionTimeout => exact execCompletionTimeout_factory s h
  | tagQuarantineEnd => exact execTagQuarantineEnd_factory s h
  | ideQuarantineEnd => exact execIdeQuarantineEnd_factory s h
  | containmentComplete port => exact execContainmentComplete_factory port s h
  | orderlyDrainEnd port => exact execOrderlyDrainEnd_factory port s h
  | linkDlUp port width retimers reversed peerRate peerFlit peerBypass tag10 peerChip =>
    exact execLinkDlUp_factory port width retimers reversed peerRate peerFlit peerBypass tag10 peerChip s h
  | linkDlDown port => exact execLinkDlDown_factory port s h
  | tagCapabilityRead port tag10 tag14 => exact execTagCapabilityRead_factory port tag10 tag14 s h
  | rateEqComplete port rate eyes => exact execRateEqComplete_factory port rate eyes s h
  | alignmentHunt st j blocks => exact execAlignmentHunt_factory st j blocks s h
  | alignLost st x => exact execAlignLost_factory st x s h
  | los st x => exact execLos_factory st x s h
  | lockLost st x => exact execLockLost_factory st x s h
  | quadPll st x => exact execQuadPll_factory st x s h
  | quadPllRelock st q => exact execQuadPllRelock_factory st q s h
  | quadFail st q => exact execQuadFail_factory st q s h
  | quadRelockRetry st q relocked => exact execQuadRelockRetry_factory st q relocked s h
  | laneGroupReset st q => exact execLaneGroupReset_factory st q s h
  | burnishStep st j base up down => exact execBurnishStep_factory st j base up down s h
  | aspmL1Entry e byPartner => exact execAspmL1Entry_factory e byPartner s h
  | stationClockWake st => exact execStationClockWake_factory st s h
  | l0pNarrow x width => exact execL0pNarrow_factory x width s h
  | l0pWiden x => exact execL0pWiden_factory x s h
  | fabricTlpReceived port f tlp => exact execFabricTlpReceived_factory port f tlp s h
  | chipidClash port => exact execChipidClash_factory port s h
  | hello port body => exact execHello_factory port body s h
  | helloSend port => exact execHelloSend_factory port s h
  | joinWindowEnd => exact execJoinWindowEnd_factory s h
  | hold port => exact execHold_factory port s h
  | eack x epoch count => exact execEack_factory x epoch count s h
  | eackSend => exact execEackSend_factory s h
  | sync port tx rx => exact execSync_factory port tx rx s h
  | syncSend => exact execSyncSend_factory s h
  | delayMeasure => exact execDelayMeasure_factory s h
  | delayReq port m => exact execDelayReq_factory port m s h
  | followerHoldover => exact execFollowerHoldover_factory s h
  | presence port dir bitmap => exact execPresence_factory port dir bitmap s h
  | presenceSend => exact execPresenceSend_factory s h
  | gop port dir body => exact execGop_factory port dir body s h
  | fabricResetStart => exact ⟨s, execFabricResetStart_ignored h, h⟩
  | fault port origin level msg => exact execFault_factory port origin level msg s h
  | fabricLinkDown port => exact execFabricLinkDown_factory port s h
  | ringInputChange st => exact execRingInputChange_factory st s h
  | ringArm => exact execRingArm_factory s h
  | ppsEdge => exact execPpsEdge_factory s h
  | holdover => exact execHoldover_factory s h
  | replicaSync => exact execReplicaSync_factory s h
  | cupelMessage => exact execCupelMessage_factory s h
  | railAlarm r => exact execRailAlarm_factory r s h
  | railEqual r => exact execRailEqual_factory r s h
  | faultConditionEnd entry => exact execFaultConditionEnd_factory entry s h
  | msgOvf r => exact execMsgOvf_factory r s h
  | aliveToggle patternOk => exact execAliveToggle_factory patternOk s h
  | temperatureRead quarterDegrees => exact execTemperatureRead_factory quarterDegrees s h
  | hkWatchdog => exact execHkWatchdog_factory s h
  | avsTick slacks => exact execAvsTick_factory slacks s h
  | avsRetry acked => exact execAvsRetry_factory acked s h
  | d2dFrame side f => exact execD2dFrame_factory side f s h
  | d2dResend => exact execD2dResend_factory s h
  | d2dLost side => exact execD2dLost_factory side s h
  | presencePinChange n pinB asserted heldNs => exact execPresencePinChange_factory n pinB asserted heldNs s h
  | seated n => exact execSeated_factory n s h
  | removed n => exact execRemoved_factory n s h
  | identify n r => exact execIdentify_factory n r s h
  | tinningStart n feedA feedB => exact execTinningStart_factory n feedA feedB s h
  | powerGood o => exact execPowerGood_factory o s h
  | rampTimeout n => exact execRampTimeout_factory n s h
  | rampLimit o => exact execRampLimit_factory o s h
  | shortDuringRamp o => exact execShortDuringRamp_factory o s h
  | breaker o => exact execBreaker_factory o s h
  | severe o => exact execSevere_factory o s h
  | perstDelayEnd n => exact execPerstDelayEnd_factory n s h
  | feedWarnChange n active => exact execFeedWarnChange_factory n active s h
  | warnEnd n => exact execWarnEnd_factory n s h
  | feedSwap o => exact execFeedSwap_factory o s h
  | gateStuck o => exact execGateStuck_factory o s h
  | swapGapEnd n => exact execSwapGapEnd_factory n s h
  | feedReturn o => exact execFeedReturn_factory o s h
  | bothBad o => exact execBothBad_factory o s h
  | fetFail o feedA feedB => exact execFetFail_factory o feedA feedB s h
  | retryTimerEnd n => exact execRetryTimerEnd_factory n s h
  | faultCountReset n => exact execFaultCountReset_factory n s h
  | patinaHour n writeOk => exact execPatinaHour_factory n writeOk s h
  | energyIntegrate n feeds out => exact execEnergyIntegrate_factory n feeds out s h
  | hallmarkPass x => exact execHallmarkPass_factory x s h
  | hallmarkFail n result => exact execHallmarkFail_factory n result s h
  | channelBringup c probe => exact execChannelBringup_factory c probe s h
  | selfRefreshEntry c => exact execSelfRefreshEntry_factory c s h
  | lotFillDone lot => exact execLotFillDone_factory lot s h
  | engineDescriptorStart t => exact execEngineDescriptorStart_factory t s h
  | engineDescriptorDone t err => exact execEngineDescriptorDone_factory t err s h
  | notify t => exact execNotify_factory t s h
  | patrolBurst c errors => exact execPatrolBurst_factory c errors s h
  | ddrAlert c retries cleared => exact execDdrAlert_factory c retries cleared s h
  | channelLost c byAlert => exact execChannelLost_factory c byAlert s h
  | logLimitMs => exact execLogLimitMs_factory s h
  | recovery r => exact execRecovery_factory r s h
  | rateOrWidthChange port rate width active byL0p => exact execRateOrWidthChange_factory port rate width active byL0p s h
  | losDeassert st x => exact execLosDeassert_factory st x s h
  | cdrLock st j => exact execCdrLock_factory st j s h
  | chipidClashRetry port => exact execChipidClashRetry_factory port s h
  | vccPdResetRelease mv => exact execVccPdResetRelease_factory mv s h
  | hotReset port writer => exact execHotReset_factory port writer s h

theorem KeepsFactory.mode_eq {o : Host.Outcome State Fault Refusal} {t : State} (h : KeepsFactory o) (ht : o = .next t) :
    t.mode = .factory := by
  obtain ⟨u, hu, hf⟩ := h
  cases hu.symm.trans ht
  exact hf

@[simp] theorem powerOn_mode (s : State) (good : Bool) : (powerOn s good).mode = .reset := rfl

theorem execPowerGoodLost_reset {ns : Nat} {s t : State} (ht : execPowerGoodLost ns s = .next t) (h : s.mode = .factory)
    (hn : t.mode ≠ .factory) : t.mode = .reset := by
  unfold execPowerGoodLost at ht
  cases ht
  split
  · simp_all
  · exact powerOn_mode s false

theorem execPowerOnReset_reset {ns : Nat} {s t : State} (ht : execPowerOnReset ns s = .next t) (h : s.mode = .factory)
    (hn : t.mode ≠ .factory) : t.mode = .reset := by
  unfold execPowerOnReset at ht
  cases ht
  split
  · simp_all
  · exact powerOn_mode s true

/-- Settles O4: every function that a command calls either leaves the mode alone or leaves Factory alone, and only the two commands that
take power-good away reset the device from there. -/
theorem onlyLossOfPowerGoodEndsFactory : Obligations.OnlyLossOfPowerGoodEndsFactory := by
  refine ⟨fun s ns h => execPerstNAssert_ignored ns h, fun s h => execFabricResetStart_ignored h, fun s ns _ hns => ?_, ?_⟩
  · exact ⟨powerOn s false, by simp [exec, execPowerGoodLost, Nat.not_lt.2 hns], powerOn_mode s false⟩
  · intro c s t ht h hn
    by_cases hg : ∃ ns, c = .powerGoodLost ns
    · obtain ⟨ns, rfl⟩ := hg
      exact ⟨execPowerGoodLost_reset ht h hn, .inl ⟨ns, rfl⟩⟩
    by_cases hr : ∃ ns, c = .powerOnReset ns
    · obtain ⟨ns, rfl⟩ := hr
      exact ⟨execPowerOnReset_reset ht h hn, .inr ⟨ns, rfl⟩⟩
    · have hk := exec_factory c s h (fun ns hc => hg ⟨ns, hc⟩) (fun ns hc => hr ⟨ns, hc⟩)
      exact absurd (hk.mode_eq ht) hn

end Sys2Proof.Machine
end

section
/-! What leaves the security state alone, and what leaves the unlock level alone or raises it (R391). A function of the model of which no
branch writes `State.sec` has a lemma `f_sec`; one that writes it has a lemma `f_level` or `le_level_f` on the level, and a command that
never lowers the level a lemma `f_levelHolds`. They stand in the order of the model's files. -/

namespace Sys2Proof.Machine

/-- A step of a fold that leaves the security state as it was. -/
def KeepsSec {α : Type} (f : State → α → State) : Prop := ∀ a x, (f a x).sec = a.sec

@[simp] theorem keepsSec_iff {α : Type} (f : State → α → State) : KeepsSec f ↔ ∀ a x, (f a x).sec = a.sec := Iff.rfl

@[simp] theorem foldl_sec {α : Type} (f : State → α → State) (l : List α) (s : State) (h : KeepsSec f) :
    (l.foldl f s).sec = s.sec := by
  induction l generalizing s with
  | nil => rfl
  | cons x r ih => rw [List.foldl_cons, ih, h]

@[simp] theorem sec_ite (c : Prop) [Decidable c] (a b : State) : (if c then a else b).sec = if c then a.sec else b.sec :=
  apply_ite State.sec c a b

/-- The outcome of a command leaves the unlock level at or above that of `s`. -/
def LevelHolds (s : State) (o : Host.Outcome State Fault Refusal) : Prop := ∀ t, o = .next t → s.sec.level ≤ t.sec.level

@[simp] theorem levelHolds_next {s t : State} : LevelHolds s (.next t) ↔ s.sec.level ≤ t.sec.level :=
  ⟨fun h => h t rfl, fun h u hu => by cases hu; exact h⟩

/-! ### The security state through `Ops.lean` -/

@[simp] theorem signalRail_sec (s : State) (q kind : Nat) : (signalRail s q kind).sec = s.sec := rfl

@[simp] theorem sendMsg_sec (s : State) (q : Nat) (m : Msg) : (sendMsg s q m).sec = s.sec := by simp [sendMsg]

@[simp] theorem report_sec (s : State) (src inst kind : Nat) (owner : Option Owner) (port : Nat) (detail : Option Nat)
    (dest : Option (Nat × Nat)) : (report s src inst kind owner port detail dest).sec = s.sec := by simp [report]

@[simp] theorem reportPort_sec (s : State) (p kind : Nat) (owner : Option Owner) (detail : Option Nat) (dest : Option (Nat × Nat)) :
    (reportPort s p kind owner detail dest).sec = s.sec := by simp [reportPort]

@[simp] theorem reportConflict_sec (s : State) (code : Nat) (seq : Byte) (path : Path) :
    (reportConflict s code seq path).sec = s.sec := by simp [reportConflict]

/-! ### The security state through `Buffer.lean` -/

@[simp] theorem setThresholds_sec (s : State) : (setThresholds s).sec = s.sec := rfl

@[simp] theorem clearBuffer_sec (s : State) : (clearBuffer s).sec = s.sec := rfl

@[simp] theorem takeCells_sec (s : State) (o c e n : Nat) : (takeCells s o c e n).sec = s.sec := rfl

@[simp] theorem freeCells_sec (s : State) (o c e n : Nat) : (freeCells s o c e n).sec = s.sec := rfl

@[simp] theorem takeBanks_sec (s : State) (n : Nat) : (takeBanks s n).sec = s.sec := rfl

@[simp] theorem freeBanks_sec (s : State) (l : List Nat) : (freeBanks s l).sec = s.sec := rfl

@[simp] theorem unstage_sec (s : State) (id : Nat) : (unstage s id).sec = s.sec := rfl

@[simp] theorem modStaged_sec (s : State) (id : Nat) (f : Staged → Staged) : (modStaged s id f).sec = s.sec := rfl

@[simp] theorem modDesc_sec (s : State) (id : Nat) (f : Desc → Desc) : (modDesc s id f).sec = s.sec := rfl

@[simp] theorem mcUnref_sec (s : State) (e : Nat) : (mcUnref s e).sec = s.sec := by simp [mcUnref]

@[simp] theorem unpend_sec (s : State) (g d n : Nat) : (unpend s g d n).sec = s.sec := rfl

@[simp] theorem enqueue_sec (s : State) (d : Desc) : (enqueue s d).sec = s.sec := by simp [enqueue]

@[simp] theorem leaveRing_sec (s : State) (p c : Nat) : (leaveRing s p c).sec = s.sec := by simp [leaveRing]

@[simp] theorem noteEnded_sec (s : State) (isOpen : Bool) (id origin ingress : Nat) :
    (noteEnded s isOpen id origin ingress).sec = s.sec := by simp [noteEnded]

@[simp] theorem removeDesc_sec (s : State) (d : Desc) : (removeDesc s d).sec = s.sec := by
  unfold removeDesc; split <;> simp

/-! ### The security state through `Tracker.lean` -/

@[simp] theorem countFabLoss_sec (s : State) (o : Owner) (n : Nat) : (countFabLoss s o n).sec = s.sec := rfl

@[simp] theorem present_sec (s : State) (b : Nat) (from_ : Src) (o : Owner) (d : Dest) (t : Tlp) :
    (present s b from_ o d t).sec = s.sec := rfl

@[simp] theorem sendMsix_sec (s : State) (b port : Nat) (o : Owner) (vn : Nat) (rid : W16) (lo hi data : W32) :
    (sendMsix s b port o vn rid lo hi data).sec = s.sec := by
  unfold sendMsix; split <;> simp

@[simp] theorem answer_sec (s : State) (b at_ : Nat) (src : Src) (o : Owner) (t : Tlp) :
    (answer s b at_ src o t).sec = s.sec := by
  unfold answer; split <;> simp

@[simp] theorem answerStatus_sec (s : State) (b at_ : Nat) (src : Src) (o : Owner) (t : Tlp) (st : CplStatus) :
    (answerStatus s b at_ src o t st).sec = s.sec := by simp [answerStatus]

theorem trackDesc_sec (s t : State) (d : Desc) (h : trackDesc s d = some t) : t.sec = s.sec := by
  simp only [trackDesc] at h
  repeat' split at h
  all_goals simp at h
  all_goals subst h; simp

@[simp] theorem freeTrk_sec (s : State) (id : Nat) : (freeTrk s id).sec = s.sec := rfl

@[simp] theorem modTrk_sec (s : State) (id : Nat) (f : Trk → Trk) : (modTrk s id f).sec = s.sec := rfl

@[simp] theorem ideqAdd_sec (s : State) (k : IdeKey) : (ideqAdd s k).sec = s.sec := by simp [ideqAdd]

@[simp] theorem retire_sec (s : State) (e : Trk) (st : CplStatus) : (retire s e st).sec = s.sec := by simp [retire]

@[simp] theorem lateDiscard_sec (s : State) (p : Nat) (d : Desc) : (lateDiscard s p d).sec = s.sec := by simp [lateDiscard]

@[simp] theorem endTrk_sec (s : State) (d : Desc) (lost : Bool) : (endTrk s d lost).sec = s.sec := by
  unfold endTrk; split
  · rfl
  · split
    · split <;> simp
    · simp

@[simp] theorem cutShort_sec (s : State) (p : Nat) (d : Desc) (lost : Bool) : (cutShort s p d lost).sec = s.sec := by
  simp [cutShort]

/-! ### The security state through `Contain.lean` -/

@[simp] theorem dropReport_sec (s : State) (g : Nat) : (dropReport s g).sec = s.sec := by simp [dropReport]

@[simp] theorem missCopies_sec (s : State) (g seq time cause : Nat) (missed : W64) :
    (missCopies s g seq time cause missed).sec = s.sec := by
  unfold missCopies; dsimp only; repeat' split
  all_goals simp

@[simp] theorem missDesc_sec (s : State) (d : Desc) (cause : Nat) : (missDesc s d cause).sec = s.sec := by
  unfold missDesc; split <;> simp

@[simp] theorem dropParked_sec (s : State) (g k cause : Nat) : (dropParked s g k cause).sec = s.sec := by simp [dropParked]

@[simp] theorem dropParkedTo_sec (s : State) (p : Nat) : (dropParkedTo s p).sec = s.sec := by
  unfold dropParkedTo
  refine foldl_sec _ _ _ (fun a x => ?_)
  split <;> simp

@[simp] theorem dropReportsOf_sec (s : State) (p : Nat) : (dropReportsOf s p).sec = s.sec := by simp [dropReportsOf]

@[simp] theorem fabDiscard_sec (s : State) (p : Nat) : (fabDiscard s p).sec = s.sec := by
  simp only [fabDiscard]
  rw [foldl_sec _ _ _ (by simp), State.bump_sec, State.bump_sec, foldl_sec]
  intro a d
  dsimp only; split <;> simp

@[simp] theorem countCtnDrop_sec (s : State) (p : Nat) (o : Owner) : (countCtnDrop s p o).sec = s.sec := by
  rw [countCtnDrop, State.bump_sec, State.bump_sec]

@[simp] theorem linkToDisabled_sec (s : State) (p cause : Nat) : (linkToDisabled s p cause).sec = s.sec := by
  simp [linkToDisabled]

@[simp] theorem stopTx_sec (s : State) (p : Nat) : (stopTx s p).sec = s.sec := by
  unfold stopTx; dsimp only; split <;> simp

@[simp] theorem dropTx_sec (s : State) (p : Nat) : (dropTx s p).sec = s.sec := by
  unfold dropTx; dsimp only; split <;> simp

@[simp] theorem dropStaging_sec (s : State) (p : Nat) : (dropStaging s p).sec = s.sec := by simp [dropStaging]

@[simp] theorem contain_sec (s : State) (p cause : Nat) : (contain s p cause).sec = s.sec := by simp [contain]

@[simp] theorem dropQueued_sec (s : State) (p : Nat) (d : Desc) : (dropQueued s p d).sec = s.sec := by
  unfold dropQueued; split
  · split <;> simp
  · simp

@[simp] theorem containFinish_sec (s : State) (p : Nat) : (containFinish s p).sec = s.sec := by simp [containFinish]

@[simp] theorem beginTraining_sec (s : State) (p : Nat) : (beginTraining s p).sec = s.sec := by simp [beginTraining]

@[simp] theorem releasePort_sec (s : State) (p : Nat) : (releasePort s p).sec = s.sec := by simp [releasePort]

@[simp] theorem countQblock_sec (s : State) (p : Nat) (o : Option Owner) : (countQblock s p o).sec = s.sec := by
  unfold countQblock; split <;> simp

@[simp] theorem setMode_sec (s : State) (m : Mode) (cause : Nat) : (setMode s m cause).sec = s.sec := rfl

@[simp] theorem degrade_sec (s : State) : (degrade s).sec = s.sec := by simp [degrade]

@[simp] theorem recoverMode_sec (s : State) : (recoverMode s).sec = s.sec := by simp [recoverMode]

@[simp] theorem stationUnusable_sec (s : State) (i : Nat) : (stationUnusable s i).sec = s.sec := by simp [stationUnusable]

/-! ### The security state through `Errors.lean` -/

@[simp] theorem sendErrMsg_sec (s : State) (x : PortChip) (code : Byte) : (sendErrMsg s x code).sec = s.sec := by
  unfold sendErrMsg; split <;> simp

@[simp] theorem logCorrectable_sec (s : State) (x : PortChip) (bit : Nat) : (logCorrectable s x bit).sec = s.sec := by
  simp [logCorrectable]

@[simp] theorem dpcContain_sec (s : State) (p cause : Nat) (reason : BitVec 2) : (dpcContain s p cause reason).sec = s.sec := by
  simp [dpcContain]

@[simp] theorem dpcTrigger_sec (s : State) (x : PortChip) (bit : Nat) : (dpcTrigger s x bit).sec = s.sec := by simp [dpcTrigger]

@[simp] theorem logHdr_sec (s : State) (x : PortChip) (bit : Nat) (hdr : Option (List Nat)) :
    (logHdr s x bit hdr).sec = s.sec := by
  unfold logHdr; split <;> simp

@[simp] theorem logUncorrectable_sec (s : State) (x : PortChip) (bit : Nat) (hdr : Option (List Nat)) :
    (logUncorrectable s x bit hdr).sec = s.sec := by simp [logUncorrectable]

@[simp] theorem noteKex_sec (s : State) (x : PortChip) (level kind o : Nat) : (noteKex s x level kind o).sec = s.sec := rfl

@[simp] theorem logHere_sec (s : State) (x : PortChip) (unc flow : Bool) (bit kind o : Nat) (hdr : Option (List Nat)) :
    (logHere s x unc flow bit kind o hdr).sec = s.sec := by simp [logHere]

@[simp] theorem logAt_sec (s : State) (x : PortChip) (unc flow : Bool) (bit kind o : Nat) (t : Option Tlp) :
    (logAt s x unc flow bit kind o t).sec = s.sec := by simp [logAt]

@[simp] theorem linkError_sec (s : State) (p : Nat) (unc : Bool) (bit : Nat) (hdr : Option Tlp) :
    (linkError s p unc bit hdr).sec = s.sec := by
  unfold linkError; dsimp only; split <;> simp

@[simp] theorem flowError_sec (s : State) (src kind bit : Nat) (o : Owner) (p : Nat) (d : Option PortChip) (hdr : Option Tlp)
    (detail : Option Nat) (inst : Nat) :
    (flowError s src kind bit o p d hdr detail inst).sec = s.sec := by
  unfold flowError; split <;> simp

@[simp] theorem internalError_sec (s : State) (level kind : Nat) (o : Owner) (p : Nat) (d : Option PortChip) :
    (internalError s level kind o p d).sec = s.sec := by
  unfold internalError; split <;> simp

@[simp] theorem remoteReport_sec (s : State) (t : Tlp) : (remoteReport s t).sec = s.sec := by simp [remoteReport]

/-! ### The security state through `Gates.lean` -/

@[simp] theorem writeFault_sec (s : State) (t : Nat) (e : List Nat) : (writeFault s t e).sec = s.sec := by simp [writeFault]

theorem rejectAt_sec (s : State) (src : Nat) (x : Denied) (cause bad region : Nat) (rep : State → State)
    (h : ∀ a, (rep a).sec = a.sec) : (rejectAt s src x cause bad region rep).sec = s.sec := by simp [rejectAt, h]

@[simp] theorem gateReject_sec (s : State) (src p t : Nat) (d : Option PortChip) (hdr : Option Tlp) (x : Denied) (matched : Bool)
    (cause bad region : Nat) :
    (gateReject s src p t d hdr x matched cause bad region).sec = s.sec := rejectAt_sec _ _ _ _ _ _ _ (fun _ => flowError_sec ..)

/-! ### The security state through `PoolErr.lean` -/

@[simp] theorem vfMessage_sec (s : State) (t k : Nat) : (vfMessage s t k).sec = s.sec := by
  unfold vfMessage; split <;> simp

@[simp] theorem sendVf_sec (s : State) (t k : Nat) : (sendVf s t k).sec = s.sec := by simp [sendVf]

@[simp] theorem flushMsix_sec (s : State) (t : Nat) : (flushMsix s t).sec = s.sec := by simp [flushMsix]

@[simp] theorem raiseVf_sec (s : State) (t b : Nat) : (raiseVf s t b).sec = s.sec := by simp [raiseVf]

@[simp] theorem countSecond_sec (s : State) (c : Nat) : (countSecond s c).sec = s.sec := State.modChan_sec ..

@[simp] theorem countUe_sec (s : State) (c line : Nat) (o : Option Nat) : (countUe s c line o).sec = s.sec := by
  simp only [countUe, report_sec]; split <;> simp

@[simp] theorem countCe_sec (s : State) (c : Nat) : (countCe s c).sec = s.sec := by simp [countCe]

@[simp] theorem poisonLine_sec (s : State) (c line : Nat) : (poisonLine s c line).sec = s.sec := by simp [poisonLine]

@[simp] theorem meetError_sec (s : State) (c : Nat) (e : LineError) : (meetError s c e).sec = s.sec := by
  unfold meetError; split <;> simp

@[simp] theorem touchChan_sec (s : State) (c : Nat) : (touchChan s c).sec = s.sec := rfl

/-! ### The security state through `Mcast.lean` -/

@[simp] theorem sampleTaps_sec (s : State) (p : Nat) (egress : Bool) (o : Owner) (t : Tlp) :
    (sampleTaps s p egress o t).sec = s.sec := by simp [sampleTaps]

@[simp] theorem writerWrite_sec (s : State) (v addr : Nat) (data : List Byte) : (writerWrite s v addr data).sec = s.sec := by
  unfold writerWrite; split <;> simp

@[simp] theorem writeSample_sec (s : State) (x : Sample) : (writeSample s x).sec = s.sec := by
  unfold writeSample; dsimp only; split <;> simp

theorem execSampleWrite_levelHolds (writerFull : Bool) (s : State) : LevelHolds s (execSampleWrite writerFull s) := by
  simp only [execSampleWrite, levelHolds_next]; split <;> simp

@[simp] theorem writeReport_sec (s : State) (r : Report) : (writeReport s r).sec = s.sec := by
  unfold writeReport; split <;> simp

theorem execDeliveryReportWrite_levelHolds (s : State) : LevelHolds s (execDeliveryReportWrite s) := by
  simp only [execDeliveryReportWrite, levelHolds_next]; split <;> simp

@[simp] theorem McRun.miss_sec (r : McRun) (k c : Nat) : (r.miss k c).st.sec = r.st.sec := rfl

@[simp] theorem queueCopy_sec (r : McRun) (x : Staged) (g : Nat) (m : McastRec) (k e n : Nat) :
    (queueCopy r x g m k e n).st.sec = r.st.sec := by
  unfold queueCopy; dsimp only; split <;> simp

@[simp] theorem touchSpill_sec (s : State) : (touchSpill s).sec = s.sec := by
  unfold touchSpill; split <;> simp

@[simp] theorem parkCopy_sec (r : McRun) (x : Staged) (g k n seq : Nat) : (parkCopy r x g k n seq).st.sec = r.st.sec := by
  simp [parkCopy]

@[simp] theorem enterFallback_sec (s : State) (g k t : Nat) : (enterFallback s g k t).sec = s.sec := by simp [enterFallback]

@[simp] theorem deliverOne_sec (x : Staged) (g : Nat) (m : McastRec) (n e seq : Nat) (r : McRun) (k : Nat) :
    (deliverOne x g m n e seq r k).st.sec = r.st.sec := by
  simp only [deliverOne]; repeat' split
  all_goals simp

@[simp] theorem missDead_sec (x : Staged) (m : McastRec) (r : McRun) (k : Nat) : (missDead x m r k).st.sec = r.st.sec := by
  simp only [missDead]; repeat' split
  all_goals simp

@[simp] theorem missGate_sec (x : Staged) (m : McastRec) (r : McRun) (k : Nat) : (missGate x m r k).st.sec = r.st.sec := by
  unfold missGate; split <;> simp

@[simp] theorem startCopies_sec (s : State) (x : Staged) (g : Nat) : (startCopies s x g).1.sec = s.sec := by simp [startCopies]

/-- A run over destinations leaves the security state as each of its steps does. -/
theorem foldl_st_sec (f : McRun → Nat → McRun) (h : ∀ r k, (f r k).st.sec = r.st.sec) (l : List Nat) (r : McRun) :
    (l.foldl f r).st.sec = r.st.sec := by
  induction l generalizing r with
  | nil => rfl
  | cons k l ih => rw [List.foldl_cons, ih, h]

@[simp] theorem deliverCopies_sec (s : State) (w : McWait) (m : McastRec) (timedOut : Bool) :
    (deliverCopies s w m timedOut).sec = s.sec := by
  simp only [deliverCopies, sec_ite, missCopies_sec, mcUnref_sec, noteEnded_sec, ite_self]
  split
  · rw [foldl_st_sec _ (by simp), report_sec, State.setEvt_sec, foldl_st_sec _ (by simp)]
  · rw [foldl_st_sec _ (by simp), foldl_st_sec _ (by simp), foldl_st_sec _ (by simp)]

@[simp] theorem countWait_sec (s : State) (x : Staged) : (countWait s x).sec = s.sec := by simp [countWait]

@[simp] theorem mcStart_sec (s : State) (p : PortId) : (mcStart s p).sec = s.sec := by
  unfold mcStart; split
  · rfl
  · split
    · rfl
    · split <;> simp

@[simp] theorem mcRetry_sec (s : State) (w : McWait) : (mcRetry s w).sec = s.sec := by
  unfold mcRetry; split <;> simp

theorem execMulticastWrite_levelHolds (port : PortId) (s : State) : LevelHolds s (execMulticastWrite port s) := by
  simp [execMulticastWrite]

theorem execAtomicAdmitTimeout_levelHolds (port : PortId) (s : State) : LevelHolds s (execAtomicAdmitTimeout port s) := by
  simp only [execAtomicAdmitTimeout, levelHolds_next]
  split
  · simp
  · split <;> simp

@[simp] theorem unpark_sec (s : State) (g k id : Nat) : (unpark s g k id).sec = s.sec := by simp [unpark]

@[simp] theorem loseParked_sec (s : State) (g : Nat) (m : McastRec) (x : Parked) : (loseParked s g m x).sec = s.sec := by
  simp [loseParked]

@[simp] theorem redeliver_sec (s : State) (g k : Nat) (m : McastRec) (x : Parked) : (redeliver s g k m x).sec = s.sec := by
  unfold redeliver; split <;> simp

theorem execParkRedelivery_levelHolds (g : GroupId) (dest : Fin 64) (readError : Bool) (s : State) :
    LevelHolds s (execParkRedelivery g dest readError s) := by
  simp only [execParkRedelivery, levelHolds_next]; split <;> simp

/-! ### The security state through `Sched.lean` -/

@[simp] theorem checkStarve_sec (s : State) (p : Nat) : (checkStarve s p).sec = s.sec := by simp [checkStarve]

@[simp] theorem debit_sec (s : State) (p c : Nat) (o : Owner) (b : Nat) : (debit s p c o b).sec = s.sec := by simp [debit]

theorem execShaperRefill_levelHolds (s : State) : LevelHolds s (execShaperRefill s) := by simp [execShaperRefill]

theorem execThresholdTick_levelHolds (s : State) : LevelHolds s (execThresholdTick s) := by simp [execThresholdTick]

@[simp] theorem colour_sec (s : State) (k b : Nat) : (colour s k b).2.sec = s.sec := by
  unfold colour; dsimp only; repeat' split
  all_goals simp

@[simp] theorem recolour_sec (s : State) (x : Staged) : (recolour s x).sec = s.sec := by
  unfold recolour; split
  · rfl
  · rename_i k _
    have hk := colour_sec s k (tlpBytes x.tlp)
    split <;> simp_all

theorem execPolicerTick_levelHolds (s : State) : LevelHolds s (execPolicerTick s) := by simp [execPolicerTick]

@[simp] theorem gateBoundary_sec (s : State) (p : Nat) : (gateBoundary s p).sec = s.sec := by
  unfold gateBoundary; split <;> simp

theorem execGateBoundary_levelHolds (port : PortId) (s : State) : LevelHolds s (execGateBoundary port s) := by simp [execGateBoundary]

@[simp] theorem gateSwitch_sec (s : State) (p : Nat) : (gateSwitch s p).sec = s.sec := by
  unfold gateSwitch; split <;> simp

theorem execGateListSwitch_levelHolds (port : PortId) (s : State) : LevelHolds s (execGateListSwitch port s) := by
  simp [execGateListSwitch]

@[simp] theorem raiseMax_sec (s : State) (off n : Nat) : (raiseMax s off n).sec = s.sec := by simp [raiseMax]

@[simp] theorem monitorOne_sec (s : State) (p : Nat) (m : MonEntry) : (monitorOne s p m).sec = s.sec := by simp [monitorOne]

theorem execMonitorSample_levelHolds (port : PortId) (s : State) : LevelHolds s (execMonitorSample port s) := by
  simp [execMonitorSample]

@[simp] theorem decideCut_sec (s : State) (p : Nat) : (decideCut s p).sec = s.sec := by simp [decideCut]

@[simp] theorem countRefusedOne_sec (s : State) (p id : Nat) : (countRefusedOne s p id).sec = s.sec := by simp [countRefusedOne]

@[simp] theorem countRefused_sec (s : State) (nc : BitVec 3) (p c : Nat) : (countRefused s nc p c).sec = s.sec := by
  simp [countRefused]

@[simp] theorem countRefusals_sec (s : State) (nc : BitVec 3) (p : Nat) : (countRefusals s nc p).sec = s.sec := by
  simp [countRefusals]

@[simp] theorem allocWaiting_sec (s : State) : (allocWaiting s).sec = s.sec := by
  refine foldl_sec _ _ _ (fun a d => ?_)
  dsimp only; split
  · rename_i b hb
    split at hb
    · cases hb
    · exact trackDesc_sec _ _ _ hb
  · split <;> simp

@[simp] theorem eccSeen_sec (s : State) (o : Owner) (p : Nat) (banks : List Nat) (ecc : Option (Nat × Bool)) (dest : Option (Nat × Nat)) :
    (eccSeen s o p banks ecc dest).sec = s.sec := by
  unfold eccSeen; split <;> simp

@[simp] theorem countSent_sec (s : State) (d : Desc) : (countSent s d).1.sec = s.sec := by
  unfold countSent; dsimp only; repeat' split
  all_goals simp

@[simp] theorem noteTx_sec (s : State) (d : Desc) : (noteTx s d).sec = s.sec := rfl

@[simp] theorem startTx_sec (s : State) (d : Desc) : (startTx s d).sec = s.sec := by
  unfold startTx; split <;> simp

@[simp] theorem sendWhole_sec (s : State) (d : Desc) : (sendWhole s d).sec = s.sec := by simp [sendWhole]

@[simp] theorem discardUnsent_sec (s : State) (d : Desc) (lost : Bool) : (discardUnsent s d lost).sec = s.sec := by
  simp [discardUnsent]

@[simp] theorem startDesc_sec (s : State) (d : Desc) (ecc : Option (Nat × Bool)) : (startDesc s d ecc).sec = s.sec := by
  simp [startDesc]

@[simp] theorem gatesNow_sec (s : State) (p : Nat) : (gatesNow s p).sec = s.sec := by simp [gatesNow]

@[simp] theorem selectOn_sec (s : State) (p : Nat) (nc : BitVec 3) (ecc : Option (Nat × Bool)) :
    (selectOn s p nc ecc).sec = s.sec := by
  unfold selectOn; dsimp only; split
  · simp
  · split
    · simp
    · split <;> simp

theorem execEgressSelection_levelHolds (port : PortId) (m : Meets) (s : State) : LevelHolds s (execEgressSelection port m s) := by
  simp [execEgressSelection]

@[simp] theorem releaseSlot_sec (s : State) (p id : Nat) : (releaseSlot s p id).sec = s.sec := by simp [releaseSlot]

theorem execStallRel_levelHolds (port : PortId) (s : State) : LevelHolds s (execStallRel port s) := by
  simp only [execStallRel, levelHolds_next]; split <;> simp

@[simp] theorem holdFlits_sec (s : State) (p : Nat) : (holdFlits s p).sec = s.sec := by
  rw [holdFlits, State.emit_sec, State.bump_sec]

theorem execFabricStallStomp_levelHolds (x : PortFor) (s : State) : LevelHolds s (execFabricStallStomp x s) := by
  simp only [execFabricStallStomp, levelHolds_next]; split <;> simp

@[simp] theorem overrun_sec (s : State) (p : Nat) : (overrun s p).sec = s.sec := by simp [overrun]

@[simp] theorem lateBy_sec (s : State) (p n : Nat) : (lateBy s p n).sec = s.sec := by
  unfold lateBy; split <;> simp

@[simp] theorem closeStaged_sec (s : State) (id : Nat) (r : CloseReason) : (closeStaged s id r).sec = s.sec := by
  simp [closeStaged]

@[simp] theorem endStall_sec (s : State) (p : Nat) (d : Desc) (n : Nat) : (endStall s p d n).sec = s.sec := by simp [endStall]

@[simp] theorem endHold_sec (s : State) (p : Nat) (d : Desc) : (endHold s p d).sec = s.sec := by simp [endHold]

@[simp] theorem closeDesc_sec (s : State) (d : Desc) (r : CloseReason) (n : Nat) : (closeDesc s d r n).sec = s.sec := by
  unfold closeDesc; dsimp only; repeat' split
  all_goals simp

@[simp] theorem closeParked_sec (s : State) (id : Nat) (good : Bool) : (closeParked s id good).sec = s.sec := rfl

@[simp] theorem closeWaits_sec (s : State) (id : Nat) (good : Bool) : (closeWaits s id good).sec = s.sec := by simp [closeWaits]

@[simp] theorem closeAll_sec (s : State) (id : Nat) (r : CloseReason) (stallNs : Nat) :
    (closeAll s id r stallNs).sec = s.sec := by simp [closeAll]

theorem execDescriptorClose_levelHolds (id : Nat) (c : Closing) (s : State) : LevelHolds s (execDescriptorClose id c s) := by
  simp only [execDescriptorClose, levelHolds_next]; split <;> simp

/-! ### The security state through `Route.lean` -/

@[simp] theorem noGroupDrop_sec (s : State) (o : Owner) (p : Nat) : (noGroupDrop s o p).sec = s.sec := by simp [noGroupDrop]

@[simp] theorem wrongTenantDrop_sec (s : State) (g : Nat) (o : Owner) (p : Nat) : (wrongTenantDrop s g o p).sec = s.sec := by
  simp [wrongTenantDrop]

/-! ### The security state through `Crucible.lean` -/

@[simp] theorem windowReject_sec (s : State) (t o cause : Nat) (hdr : Option Tlp) :
    (windowReject s t o cause hdr).sec = s.sec := by simp [windowReject]

@[simp] theorem denyAccess_sec (s : State) (t o : Nat) (k : TlpKind) (priv exe : Bool) (rid : W16) (hdr : Option Tlp) (r : Access) :
    (denyAccess s t o k priv exe rid hdr r).sec = s.sec := by
  unfold denyAccess; split <;> simp

@[simp] theorem countPoison_sec (s : State) (k : Nat) : (countPoison s k).sec = s.sec := by simp [countPoison]

@[simp] theorem writeLine_sec (s : State) (x : Nat) (l : List (Option Byte)) : (writeLine s x l).sec = s.sec := by
  simp [writeLine]

@[simp] theorem writeLines_sec (s : State) (x : Nat) (l : List (Option Byte)) (k : Nat) : (writeLines s x l k).sec = s.sec := by
  induction k generalizing s x l with
  | zero => rfl
  | succ k ih => unfold writeLines; split <;> simp [ih]

@[simp] theorem poolWrite_sec (s : State) (c a : Nat) (l : List (Option Byte)) : (poolWrite s c a l).sec = s.sec := by
  simp [poolWrite]

@[simp] theorem poolRead_sec (s : State) (c a n : Nat) (err : Option LineError) : (poolRead s c a n err).1.sec = s.sec := by
  simp only [poolRead]
  rw [foldl_sec _ _ _ (by simp)]
  split <;> simp

@[simp] theorem cruAnswer_sec (s : State) (src : Src) (t : Nat) (c : Tlp) : (cruAnswer s src t c).sec = s.sec := by
  simp [cruAnswer]

@[simp] theorem serveOk_sec (s : State) (t : Nat) (src : Src) (q : Tlp) (err : Option LineError) (c a : Nat) :
    (serveOk s t src q err c a).sec = s.sec := by
  unfold serveOk; split <;> simp

@[simp] theorem serveWindow_sec (s : State) (t o : Nat) (src : Src) (trusted : Bool) (q : Tlp) (err : Option LineError) :
    (serveWindow s t o src trusted q err).sec = s.sec := by
  unfold serveWindow; dsimp only; split
  · simp
  · split <;> simp

theorem execPoolWindowAccess_levelHolds (t : TenantId) (a : WinAccess) (s : State) : LevelHolds s (execPoolWindowAccess t a s) := by
  simp [execPoolWindowAccess]

@[simp] theorem modJob_sec (s : State) (t e : Nat) (f : Job → Job) : (modJob s t e f).sec = s.sec := rfl

@[simp] theorem failJob_sec (s : State) (t e st : Nat) : (failJob s t e st).sec = s.sec := rfl

@[simp] theorem rejectVfBar_sec (s : State) (src p t : Nat) (trusted : Bool) (q : Tlp) (off : Nat) :
    (rejectVfBar s src p t trusted q off).sec = s.sec := by
  unfold rejectVfBar; split
  · exact rejectAt_sec _ _ _ _ _ _ _ (fun _ => flowError_sec ..)
  · exact flowError_sec ..

@[simp] theorem hostRequest_sec (s : State) (t : Nat) (q : Tlp) : (hostRequest s t q).1.sec = s.sec := by
  unfold hostRequest; split <;> simp

@[simp] theorem issueOne_sec (s : State) (t : Nat) (j : Job) : (issueOne s t j).sec = s.sec := by simp [issueOne]

@[simp] theorem issueReads_sec (s : State) (t k : Nat) : (issueReads s t k).sec = s.sec := by
  induction k generalizing s with
  | zero => rfl
  | succ k ih =>
    unfold issueReads; dsimp only; split
    · rfl
    · split <;> simp [ih]

theorem execEngineDescriptorStart_levelHolds (t : TenantId) (s : State) : LevelHolds s (execEngineDescriptorStart t s) := by
  simp [execEngineDescriptorStart]

@[simp] theorem writeStatus_sec (s : State) (t e st : Nat) : (writeStatus s t e st).sec = s.sec := by simp [writeStatus]

@[simp] theorem engineRead_sec (s : State) (t o n : Nat) (err : Option LineError) : (engineRead s t o n err).1.sec = s.sec := by
  unfold engineRead; split <;> simp

@[simp] theorem engineWrite_sec (s : State) (t o : Nat) (data : List Byte) : (engineWrite s t o data).1.sec = s.sec := by
  unfold engineWrite; split <;> simp

@[simp] theorem hostWrites_sec (s : State) (t a : Nat) (data : List Byte) (k : Nat) :
    (hostWrites s t a data k).1.sec = s.sec := by
  induction k generalizing s a data with
  | zero => rfl
  | succ k ih =>
    unfold hostWrites; split
    · rfl
    · dsimp only; split <;> simp [ih]

@[simp] theorem copyChunks_sec (s : State) (t : Nat) (toHost : Bool) (err : Option LineError) (a b left k : Nat) :
    (copyChunks s t toHost err a b left k).1.sec = s.sec := by
  induction k generalizing s a b left with
  | zero => rfl
  | succ k ih =>
    unfold copyChunks; split
    · rfl
    · dsimp only; split
      · simp
      · split <;> split <;> simp [ih]

@[simp] theorem finishJob_sec (s : State) (t : Nat) (j : Job) (err : Option LineError) : (finishJob s t j err).1.sec = s.sec := by
  unfold finishJob; dsimp only; repeat' split
  all_goals simp

theorem execEngineDescriptorDone_levelHolds (t : TenantId) (err : Option LineError) (s : State) :
    LevelHolds s (execEngineDescriptorDone t err s) := by
  simp only [execEngineDescriptorDone, levelHolds_next]; split
  · exact Nat.le_refl _
  · split
    · exact Nat.le_refl _
    · next j _ _ =>
      have hj := finishJob_sec s t j err
      split <;> simp_all

@[simp] theorem landData_sec (s : State) (t o : Nat) (data : List Byte) (k : Nat) : (landData s t o data k).1.sec = s.sec := by
  induction k generalizing s o data with
  | zero => rfl
  | succ k ih =>
    unfold landData; split
    · rfl
    · dsimp only; split <;> simp [ih]

@[simp] theorem engineCpl_sec (s : State) (t : Nat) (c : Tlp) : (engineCpl s t c).sec = s.sec := by
  unfold engineCpl; split
  · rfl
  · simp

@[simp] theorem deliverTo_sec (s : State) (l tag u : Nat) : (deliverTo s l tag u).sec = s.sec := by simp [deliverTo]

theorem execNotify_levelHolds (t : TenantId) (s : State) : LevelHolds s (execNotify t s) := by
  simp only [execNotify, levelHolds_next]; repeat' split
  all_goals simp

@[simp] theorem popNtfy_sec (s : State) (t : Nat) : (popNtfy s t).1.sec = s.sec := by
  unfold popNtfy; split <;> simp

@[simp] theorem abortJobs_sec (s : State) (t : Nat) : (abortJobs s t).sec = s.sec := by simp [abortJobs]

@[simp] theorem clearBme_sec (s : State) (t : Nat) : (clearBme s t).sec = s.sec := by simp [clearBme]

theorem execVfBmeClear_levelHolds (t : TenantId) (s : State) : LevelHolds s (execVfBmeClear t s) := by simp [execVfBmeClear]

@[simp] theorem setBme_sec (s : State) (t : Nat) : (setBme s t).sec = s.sec := by simp [setBme]

theorem execVfBmeSet_levelHolds (t : TenantId) (s : State) : LevelHolds s (execVfBmeSet t s) := by simp [execVfBmeSet]

@[simp] theorem startFlr_sec (s : State) (t : Nat) : (startFlr s t).sec = s.sec := by simp [startFlr]

theorem execVfFlr_levelHolds (t : TenantId) (s : State) : LevelHolds s (execVfFlr t s) := by simp [execVfFlr]

theorem execVfFlrComplete_levelHolds (t : TenantId) (s : State) : LevelHolds s (execVfFlrComplete t s) := by
  simp only [execVfFlrComplete, levelHolds_next]; split <;> simp

@[simp] theorem loseSpill_sec (s : State) : (loseSpill s).sec = s.sec := by
  unfold loseSpill
  refine foldl_sec _ _ _ (fun a x => ?_)
  split <;> simp

@[simp] theorem loseChannel_sec (s : State) (c cause : Nat) : (loseChannel s c cause).sec = s.sec := by simp [loseChannel]

@[simp] theorem makeLots_sec (s : State) (c : Nat) : (makeLots s c).sec = s.sec := rfl

theorem execChannelBringup_levelHolds (c : ChanId) (probe : ChannelProbe) (s : State) : LevelHolds s (execChannelBringup c probe s) := by
  simp only [execChannelBringup, levelHolds_next]
  split
  · simp
  · split
    · simp
    · split <;> simp

theorem execSelfRefreshEntry_levelHolds (c : ChanId) (s : State) : LevelHolds s (execSelfRefreshEntry c s) := by
  simp [execSelfRefreshEntry]

theorem execLotFillDone_levelHolds (lot : Fin 8192) (s : State) : LevelHolds s (execLotFillDone lot s) := by simp [execLotFillDone]

theorem execPatrolBurst_levelHolds (c : ChanId) (errors : List LineError) (s : State) : LevelHolds s (execPatrolBurst c errors s) := by
  simp [execPatrolBurst]

theorem execDdrAlert_levelHolds (c : ChanId) (retries : Nat) (cleared : Bool) (s : State) :
    LevelHolds s (execDdrAlert c retries cleared s) := by simp [execDdrAlert]

theorem execChannelLost_levelHolds (c : ChanId) (byAlert : Bool) (s : State) : LevelHolds s (execChannelLost c byAlert s) := by
  simp [execChannelLost]

theorem execVfNtfypopRead_levelHolds (t : TenantId) (be : BitVec 4) (s : State) : LevelHolds s (execVfNtfypopRead t be s) := by
  simp [execVfNtfypopRead]

theorem execVfSqtailWrite_levelHolds (t : TenantId) (tail : BitVec 6) (s : State) : LevelHolds s (execVfSqtailWrite t tail s) := by
  simp [execVfSqtailWrite]

/-! ### The security state through `Mbx.lean` -/

@[simp] theorem sendMf_sec (s : State) (v : Nat) : (sendMf s v).sec = s.sec := by simp [sendMf]

@[simp] theorem mfInterrupt_sec (s : State) (v : Nat) : (mfInterrupt s v).sec = s.sec := by simp [mfInterrupt]

@[simp] theorem flushMf_sec (s : State) : (flushMf s).sec = s.sec := by simp [flushMf]

@[simp] theorem respondTo_sec (s : State) (path : Path) (seq : Byte) (status : Nat) (payload : List Byte) :
    (respondTo s path seq status payload).sec = s.sec := by
  unfold respondTo; split <;> simp

@[simp] theorem touchMbx_sec (s : State) : (touchMbx s).sec = s.sec := rfl

@[simp] theorem releaseMbx_sec (s : State) : (releaseMbx s).sec = s.sec := rfl

@[simp] theorem loadCmd_sec (s : State) (p : Path) (seq : Byte) (code : Nat) (payload : List Byte) :
    (loadCmd s p seq code payload).sec = s.sec := rfl

@[simp] theorem claim_sec (s : State) (p : Path) : (claim s p).1.sec = s.sec := by
  unfold claim; split <;> simp

theorem execMbxClaimRead_levelHolds (path : Path) (s : State) : LevelHolds s (execMbxClaimRead path s) := by simp [execMbxClaimRead]

theorem execMbxRelease_levelHolds (path : Path) (s : State) : LevelHolds s (execMbxRelease path s) := by simp [execMbxRelease]

theorem execMbxIdleRelease_levelHolds (s : State) : LevelHolds s (execMbxIdleRelease s) := by simp [execMbxIdleRelease]

/-! ### The security state through `TimeBase.lean` -/

@[simp] theorem stepTo_sec (s : State) (ns : Int) : (stepTo s ns).sec = s.sec := by simp [stepTo]

@[simp] theorem servo_sec (s : State) (o : Int) (lim : Nat) : (servo s o lim).sec = s.sec := by simp [servo]

@[simp] theorem leaveHoldover_sec (s : State) : (leaveHoldover s).sec = s.sec := by simp [leaveHoldover]

@[simp] theorem enterHoldover_sec (s : State) : (enterHoldover s).sec = s.sec := by simp [enterHoldover]

@[simp] theorem setTimeDone_sec (s : State) (path : Path) (seq : Byte) : (setTimeDone s path seq).sec = s.sec := by
  simp [setTimeDone]

@[simp] theorem validEdge_sec (s : State) : (validEdge s).sec = s.sec := by
  unfold validEdge; dsimp only; repeat' split
  all_goals simp

@[simp] theorem badEdge_sec (s : State) : (badEdge s).sec = s.sec := by simp [badEdge]

@[simp] theorem syncReplicas_sec (s : State) : (syncReplicas s).sec = s.sec := rfl

theorem execReplicaSync_levelHolds (s : State) : LevelHolds s (execReplicaSync s) := by simp [execReplicaSync]

@[simp] theorem latchTime_sec (s : State) : (latchTime s).sec = s.sec := rfl

theorem execTimNowloRead_levelHolds (path : Path) (s : State) : LevelHolds s (execTimNowloRead path s) := by simp [execTimNowloRead]

theorem execPtmRequest_levelHolds (port : PortId) (rxStamp : W64) (s : State) : LevelHolds s (execPtmRequest port rxStamp s) := by
  simp [execPtmRequest]

/-! ### The security state through `Fabric.lean` -/

@[simp] theorem treeFlood_sec (s : State) (from_ : Nat) (b : GopBody) : (treeFlood s from_ b).sec = s.sec := by simp [treeFlood]

@[simp] theorem countNoRoute_sec (s : State) (src : Nat) (o : Owner) (p : Nat) (dest : Option (Nat × Nat)) :
    (countNoRoute s src o p dest).sec = s.sec := by simp [countNoRoute]

@[simp] theorem moveDesc_sec (s : State) (d : Desc) (q : Nat) : (moveDesc s d q).sec = s.sec := by
  unfold moveDesc; split <;> simp

@[simp] theorem answerUr_sec (s : State) (d : Desc) : (answerUr s d).sec = s.sec := by
  unfold answerUr; split <;> simp

@[simp] theorem rerouteOne_sec (s : State) (d : Desc) : (rerouteOne s d).sec = s.sec := by
  unfold rerouteOne; dsimp only; repeat' split
  all_goals simp

@[simp] theorem reroute_sec (s : State) : (reroute s).sec = s.sec := by simp [reroute]

@[simp] theorem refuseLink_sec (s : State) (p c : Nat) (b : HelloBody) : (refuseLink s p c b).sec = s.sec := by simp [refuseLink]

@[simp] theorem acceptLink_sec (s : State) (p : Nat) (b : HelloBody) : (acceptLink s p b).sec = s.sec := by
  rw [acceptLink, State.modFab_sec, State.modFabLink_sec]

theorem execHello_levelHolds (port : PortId) (body : HelloBody) (s : State) : LevelHolds s (execHello port body s) := by
  simp [execHello]

theorem execHelloSend_levelHolds (port : PortId) (s : State) : LevelHolds s (execHelloSend port s) := by simp [execHelloSend]

theorem execJoinWindowEnd_levelHolds (s : State) : LevelHolds s (execJoinWindowEnd s) := by
  simp only [execJoinWindowEnd, levelHolds_next]; split <;> simp

theorem execHold_levelHolds (port : PortId) (s : State) : LevelHolds s (execHold port s) := by simp [execHold]

theorem execChipidClash_levelHolds (port : PortId) (s : State) : LevelHolds s (execChipidClash port s) := by simp [execChipidClash]

theorem execChipidClashRetry_levelHolds (port : PortId) (s : State) : LevelHolds s (execChipidClashRetry port s) := by
  simp only [execChipidClashRetry, levelHolds_next]; split <;> simp

@[simp] theorem dropPartial_sec (s : State) (p : Nat) (r : CloseReason) : (dropPartial s p r).sec = s.sec := by simp [dropPartial]

@[simp] theorem fabricDown_sec (s : State) (p : Nat) : (fabricDown s p).sec = s.sec := by simp [fabricDown]

theorem execFabricLinkDown_levelHolds (port : PortId) (s : State) : LevelHolds s (execFabricLinkDown port s) := by
  simp [execFabricLinkDown]

@[simp] theorem forwardEack_sec (s : State) (f : Farug) (epoch : Bool) (count : Nat) :
    (forwardEack s f epoch count).sec = s.sec := by
  unfold forwardEack; split <;> simp

@[simp] theorem sendEack_sec (s : State) (c : Nat) : (sendEack s c).sec = s.sec := by simp [sendEack]

@[simp] theorem openFlip_sec (s : State) (x : Flip) : (openFlip s x).sec = s.sec := rfl

@[simp] theorem flipNow_sec (s : State) : (flipNow s).sec = s.sec := by simp [flipNow]

theorem execEpochFlip_levelHolds (s : State) : LevelHolds s (execEpochFlip s) := by
  simp only [execEpochFlip, levelHolds_next]; split <;> simp

@[simp] theorem endDrain_sec (s : State) (c : Nat) : (endDrain s c).sec = s.sec := rfl

@[simp] theorem takeEack_sec (s : State) (src : Nat) (epoch : Bool) (count : Nat) : (takeEack s src epoch count).sec = s.sec := by
  unfold takeEack; split <;> simp

theorem execEack_levelHolds (x : FabricIn) (epoch : Bool) (count : Nat) (s : State) : LevelHolds s (execEack x epoch count s) := by
  simp [execEack]

theorem execEackSend_levelHolds (s : State) : LevelHolds s (execEackSend s) := by
  simp only [execEackSend, levelHolds_next]; split <;> simp

theorem execDrainTimeout_levelHolds (chip : ChipId) (s : State) : LevelHolds s (execDrainTimeout chip s) := by
  simp only [execDrainTimeout, levelHolds_next]; split <;> simp

theorem execSync_levelHolds (port : PortId) (tx rx : W64) (s : State) : LevelHolds s (execSync port tx rx s) := by simp [execSync]

theorem execSyncSend_levelHolds (s : State) : LevelHolds s (execSyncSend s) := by simp [execSyncSend]

theorem execDelayMeasure_levelHolds (s : State) : LevelHolds s (execDelayMeasure s) := by simp [execDelayMeasure]

theorem execDelayReq_levelHolds (port : PortId) (m : DelayMsg) (s : State) : LevelHolds s (execDelayReq port m s) := by
  simp only [execDelayReq, levelHolds_next]
  split
  · simp
  · split <;> simp

theorem execFollowerHoldover_levelHolds (s : State) : LevelHolds s (execFollowerHoldover s) := by simp [execFollowerHoldover]

@[simp] theorem checkBarrier_sec (s : State) (id : Nat) : (checkBarrier s id).sec = s.sec := by simp [checkBarrier]

@[simp] theorem checkBarriers_sec (s : State) : (checkBarriers s).sec = s.sec := by simp [checkBarriers]

@[simp] theorem enterBarrier_sec (s : State) (id : Nat) (chips : BitVec 16) : (enterBarrier s id chips).sec = s.sec := by
  simp [enterBarrier]

@[simp] theorem leaveBarrier_sec (s : State) (id c : Nat) : (leaveBarrier s id c).sec = s.sec := rfl

@[simp] theorem hearPresence_sec (s : State) (b : BitVec 16) : (hearPresence s b).sec = s.sec := rfl

@[simp] theorem loseChip_sec (s : State) (c : Nat) : (loseChip s c).sec = s.sec := by simp [loseChip]

@[simp] theorem endRound_sec (s : State) : (endRound s).sec = s.sec := by simp [endRound]

theorem execPresence_levelHolds (port : PortId) (dir : TreeDir) (bitmap : BitVec 16) (s : State) :
    LevelHolds s (execPresence port dir bitmap s) := by
  simp only [execPresence, levelHolds_next]
  split
  · simp
  · split <;> simp

theorem execPresenceSend_levelHolds (s : State) : LevelHolds s (execPresenceSend s) := by simp [execPresenceSend]

@[simp] theorem commitEpoch_sec (s : State) (p : Prepare) : (commitEpoch s p).sec = s.sec := by
  unfold commitEpoch; dsimp only; split <;> simp

@[simp] theorem refuseEpoch_sec (s : State) (p : Prepare) (status : Nat) : (refuseEpoch s p status).sec = s.sec := by
  unfold refuseEpoch; split <;> simp

@[simp] theorem judgeAnswers_sec (s : State) (p : Prepare) : (judgeAnswers s p).sec = s.sec := by simp [judgeAnswers]

@[simp] theorem judgePrepare_sec (s : State) : (judgePrepare s).sec = s.sec := by
  unfold judgePrepare; split <;> simp

@[simp] theorem takeReply_sec (s : State) (c : Nat) (part draining differs : Bool) :
    (takeReply s c part draining differs).sec = s.sec := by
  unfold takeReply; split <;> simp

theorem execRouteEpochPrepareTimeout_levelHolds (s : State) : LevelHolds s (execRouteEpochPrepareTimeout s) := by
  simp only [execRouteEpochPrepareTimeout, levelHolds_next]; split <;> simp

@[simp] theorem takeBroadcast_sec (s : State) (d : W64) (src : Nat) : (takeBroadcast s d src).sec = s.sec := by
  simp [takeBroadcast]

@[simp] theorem takeReset_sec (s : State) : (takeReset s).sec = s.sec := by simp [takeReset]

@[simp] theorem takeGop_sec (s : State) (b : GopBody) : (takeGop s b).sec = s.sec := by
  unfold takeGop; split <;> simp

theorem execGop_levelHolds (port : PortId) (dir : TreeDir) (body : GopBody) (s : State) : LevelHolds s (execGop port dir body s) := by
  simp [execGop]

@[simp] theorem gopWrite_sec (s : State) (id op : Nat) : (gopWrite s id op).sec = s.sec := State.setReg_sec ..

@[simp] theorem startBarrier_sec (s : State) (id : Nat) : (startBarrier s id).sec = s.sec := by simp [startBarrier]

theorem execFabGopBarrier_levelHolds (path : Path) (barrierId : Byte) (s : State) :
    LevelHolds s (execFabGopBarrier path barrierId s) := by simp [execFabGopBarrier]

@[simp] theorem startBroadcast_sec (s : State) : (startBroadcast s).sec = s.sec := by simp [startBroadcast]

theorem execFabGopBroadcast_levelHolds (path : Path) (s : State) : LevelHolds s (execFabGopBroadcast path s) := by
  simp [execFabGopBroadcast]

@[simp] theorem cancelBarrier_sec (s : State) : (cancelBarrier s).sec = s.sec := by
  unfold cancelBarrier; split <;> simp

theorem execFabGopCancel_levelHolds (path : Path) (s : State) : LevelHolds s (execFabGopCancel path s) := by simp [execFabGopCancel]

@[simp] theorem startFabricReset_sec (s : State) : (startFabricReset s).sec = s.sec := by simp [startFabricReset]

theorem execFabGopFabricReset_levelHolds (path : Path) (confirm : Byte) (s : State) :
    LevelHolds s (execFabGopFabricReset path confirm s) := by simp [execFabGopFabricReset]

theorem execFault_levelHolds (port : PortId) (origin : ChipId) (level : Nat) (msg : Msg) (s : State) :
    LevelHolds s (execFault port origin level msg s) := by simp [execFault]

@[simp] theorem ringChange_sec (s : State) (st : RingIn) : (ringChange s st).sec = s.sec := by
  unfold ringChange; dsimp only; repeat' split
  all_goals simp

theorem execRingInputChange_levelHolds (st : RingIn) (s : State) : LevelHolds s (execRingInputChange st s) := by
  simp [execRingInputChange]

theorem execRingArm_levelHolds (s : State) : LevelHolds s (execRingArm s) := by simp [execRingArm]

/-! ### The security state through `Links.lean` -/

@[simp] theorem modLanesOf_sec (s : State) (p : Nat) (f : Lane → Lane) : (modLanesOf s p f).sec = s.sec := by simp [modLanesOf]

@[simp] theorem setWidthShort_sec (s : State) (p : Nat) : (setWidthShort s p).sec = s.sec := by simp [setWidthShort]

@[simp] theorem setSpeedShort_sec (s : State) (p : Nat) : (setSpeedShort s p).sec = s.sec := by simp [setSpeedShort]

@[simp] theorem judgeShort_sec (s : State) (p old : Nat) : (judgeShort s p old).sec = s.sec := by simp [judgeShort]

@[simp] theorem checkOverrun_sec (s : State) (p : Nat) (l : Link) : (checkOverrun s p l).sec = s.sec := by
  unfold checkOverrun; split <;> simp

@[simp] theorem applyRate_sec (s : State) (p rate width active : Nat) : (applyRate s p rate width active).sec = s.sec := by
  simp [applyRate]

@[simp] theorem goRecovery_sec (s : State) (p : Nat) : (goRecovery s p).sec = s.sec := by simp [goRecovery]

@[simp] theorem linkErr_sec (s : State) (p : Nat) (e : LinkErr) : (linkErr s p e).sec = s.sec := by
  unfold linkErr; split <;> simp

theorem execRateOrWidthChange_levelHolds (port : PortId) (rate width active : Nat) (byL0p : Bool) (s : State) :
    LevelHolds s (execRateOrWidthChange port rate width active byL0p s) := by simp [execRateOrWidthChange]

@[simp] theorem recordEyes_sec (s : State) (p : Nat) (eyes : List Eye) : (recordEyes s p eyes).sec = s.sec := by simp [recordEyes]

@[simp] theorem failRate_sec (s : State) (p old : Nat) : (failRate s p old).sec = s.sec := by simp [failRate]

theorem execRateEqComplete_levelHolds (port : PortId) (rate : Nat) (eyes : List Eye) (s : State) :
    LevelHolds s (execRateEqComplete port rate eyes s) := by simp [execRateEqComplete]

@[simp] theorem holdDown_sec (s : State) (p : Nat) (st : Ltssm) : (holdDown s p st).sec = s.sec := by simp [holdDown]

@[simp] theorem linkUp_sec (s : State) (p width retimers : Nat) (reversed : Bool) (peerRate : Nat) (peerFlit peerBypass tag10 : Bool)
    (peerChip : Nat) :
    (linkUp s p width retimers reversed peerRate peerFlit peerBypass tag10 peerChip).sec = s.sec := by
  unfold linkUp; dsimp only; split <;> simp

theorem execLinkDlUp_levelHolds (port : PortId) (width retimers : Nat) (reversed : Bool) (peerRate : Nat) (peerFlit peerBypass tag10 : Bool)
    (peerChip : ChipId) (s : State) :
    LevelHolds s (execLinkDlUp port width retimers reversed peerRate peerFlit peerBypass tag10 peerChip s) := by
  simp [execLinkDlUp]

theorem execTagCapabilityRead_levelHolds (port : PortId) (tag10 tag14 : Bool) (s : State) :
    LevelHolds s (execTagCapabilityRead port tag10 tag14 s) := by simp [execTagCapabilityRead]

@[simp] theorem sendHotReset_sec (s : State) (p : Nat) : (sendHotReset s p).sec = s.sec := rfl

@[simp] theorem resetVh_sec (s : State) (vn : Nat) : (resetVh s vn).sec = s.sec := by
  unfold resetVh; split <;> simp

@[simp] theorem surpriseDown_sec (s : State) (p : Nat) : (surpriseDown s p).sec = s.sec := by simp [surpriseDown]

@[simp] theorem portDown_sec (s : State) (p : Nat) : (portDown s p).sec = s.sec := by
  unfold portDown; dsimp only; repeat' split
  all_goals simp

@[simp] theorem checkClock_sec (s : State) (i : Nat) : (checkClock s i).sec = s.sec := by simp [checkClock]

@[simp] theorem dlDown_sec (s : State) (p : Nat) : (dlDown s p).sec = s.sec := by simp [dlDown]

theorem execLinkDlDown_levelHolds (port : PortId) (s : State) : LevelHolds s (execLinkDlDown port s) := by simp [execLinkDlDown]

@[simp] theorem enterRecovery_sec (s : State) (p : Nat) (goes : RecoveryTo) : (enterRecovery s p goes).sec = s.sec := by
  unfold enterRecovery; split <;> simp

theorem execRecovery_levelHolds (r : LinkRecovery) (s : State) : LevelHolds s (execRecovery r s) := by simp [execRecovery]

theorem execAlignmentHunt_levelHolds (i : StationId) (j : LaneId) (blocks : List HuntBlock) (s : State) :
    LevelHolds s (execAlignmentHunt i j blocks s) := by
  simp only [execAlignmentHunt, levelHolds_next]; repeat' split
  all_goals simp

@[simp] theorem signalEvent_sec (s : State) (p j b : Nat) (idle : Bool) : (signalEvent s p j b idle).sec = s.sec := by
  simp [signalEvent]

theorem execAlignLost_levelHolds (i : StationId) (x : LaneBad) (s : State) : LevelHolds s (execAlignLost i x s) := by
  simp only [execAlignLost, levelHolds_next]; split <;> simp

theorem execLos_levelHolds (i : StationId) (x : LaneLevel) (s : State) : LevelHolds s (execLos i x s) := by
  simp only [execLos, levelHolds_next]
  split
  · simp
  · split <;> simp

theorem execLockLost_levelHolds (i : StationId) (x : LaneLock) (s : State) : LevelHolds s (execLockLost i x s) := by
  simp only [execLockLost, levelHolds_next]
  split
  · simp
  · split <;> simp

theorem execLosDeassert_levelHolds (i : StationId) (x : LaneMv) (s : State) : LevelHolds s (execLosDeassert i x s) := by
  simp [execLosDeassert]

theorem execCdrLock_levelHolds (i : StationId) (j : LaneId) (s : State) : LevelHolds s (execCdrLock i j s) := by simp [execCdrLock]

@[simp] theorem quadDown_sec (s : State) (p : Nat) : (quadDown s p).sec = s.sec := by simp [quadDown]

theorem execQuadPll_levelHolds (i : StationId) (x : QuadRead) (s : State) : LevelHolds s (execQuadPll i x s) := by simp [execQuadPll]

@[simp] theorem restartPort_sec (s : State) (p : Nat) : (restartPort s p).sec = s.sec := by simp [restartPort]

@[simp] theorem relock_sec (s : State) (i q : Nat) : (relock s i q).sec = s.sec := by simp [relock]

theorem execQuadPllRelock_levelHolds (i : StationId) (q : QuadId) (s : State) : LevelHolds s (execQuadPllRelock i q s) := by
  simp [execQuadPllRelock]

theorem execQuadFail_levelHolds (i : StationId) (q : QuadId) (s : State) : LevelHolds s (execQuadFail i q s) := by simp [execQuadFail]

theorem execQuadRelockRetry_levelHolds (i : StationId) (q : QuadId) (relocked : Bool) (s : State) :
    LevelHolds s (execQuadRelockRetry i q relocked s) := by simp [execQuadRelockRetry]

@[simp] theorem coreResetTx_sec (s : State) (p : Nat) : (coreResetTx s p).sec = s.sec := by
  unfold coreResetTx; split
  · simp
  · split <;> simp

theorem execLaneGroupReset_levelHolds (i : StationId) (q : Option QuadId) (s : State) : LevelHolds s (execLaneGroupReset i q s) := by
  simp only [execLaneGroupReset, levelHolds_next]; split <;> simp

@[simp] theorem measureEye_sec (s : State) (p i j : Nat) (e : Eye) : (measureEye s p i j e).sec = s.sec := by simp [measureEye]

@[simp] theorem burnishLimit_sec (s : State) (p : Nat) : (burnishLimit s p).sec = s.sec := by simp [burnishLimit]

@[simp] theorem burnishMove_sec (s : State) (p i j : Nat) (base up down : Eye) :
    (burnishMove s p i j base up down).sec = s.sec := by simp [burnishMove]

theorem execBurnishStep_levelHolds (i : StationId) (j : LaneId) (base up down : Eye) (s : State) :
    LevelHolds s (execBurnishStep i j base up down s) := by
  simp only [execBurnishStep, levelHolds_next]; split <;> simp

theorem execLaneMarginingCommand_levelHolds (i : StationId) (j : LaneId) (lastStepNs : Nat) (s : State) :
    LevelHolds s (execLaneMarginingCommand i j lastStepNs s) := by
  simp only [execLaneMarginingCommand, levelHolds_next]; split <;> simp

theorem execAspmL1Entry_levelHolds (e : PortFor) (byPartner : Bool) (s : State) : LevelHolds s (execAspmL1Entry e byPartner s) := by
  simp [execAspmL1Entry]

theorem execStationClockWake_levelHolds (i : StationId) (s : State) : LevelHolds s (execStationClockWake i s) := by
  simp [execStationClockWake]

theorem execL0pNarrow_levelHolds (x : PortUse) (width : Nat) (s : State) : LevelHolds s (execL0pNarrow x width s) := by
  simp [execL0pNarrow]

theorem execL0pWiden_levelHolds (x : PortUse) (s : State) : LevelHolds s (execL0pWiden x s) := by simp [execL0pWiden]

@[simp] theorem setLinkDisable_sec (s : State) (p : Nat) (on : Bool) : (setLinkDisable s p on).sec = s.sec := by
  simp [setLinkDisable]

theorem execLinkDisable_levelHolds (port : PortId) (writer : Writer) (disable : Bool) (s : State) :
    LevelHolds s (execLinkDisable port writer disable s) := by simp [execLinkDisable]

@[simp] theorem retrain_sec (s : State) (p : Nat) : (retrain s p).sec = s.sec := by simp [retrain]

theorem execRetrainLink_levelHolds (port : PortId) (writer : Writer) (s : State) : LevelHolds s (execRetrainLink port writer s) := by
  simp [execRetrainLink]

@[simp] theorem setTargetSpeed_sec (s : State) (p speed : Nat) : (setTargetSpeed s p speed).sec = s.sec := by
  simp [setTargetSpeed]

theorem execTargetLinkSpeedWrite_levelHolds (port : PortId) (writer : Writer) (speed : Nat) (s : State) :
    LevelHolds s (execTargetLinkSpeedWrite port writer speed s) := by simp [execTargetLinkSpeedWrite]

theorem execHotReset_levelHolds (port : PortId) (writer : Writer) (s : State) : LevelHolds s (execHotReset port writer s) := by
  simp [execHotReset]

/-! ### The security state through `Slots.lean` -/

@[simp] theorem emitDown_sec (s : State) (f : D2dFrame) : (emitDown s f).sec = s.sec := rfl

@[simp] theorem sendHead_sec (s : State) : (sendHead s).sec = s.sec := by
  unfold sendHead; split <;> simp

@[simp] theorem sendD2d_sec (s : State) (f : D2dFrame) : (sendD2d s f).sec = s.sec := by simp [sendD2d]

@[simp] theorem sendQuench_sec (s : State) : (sendQuench s).sec = s.sec := by simp [sendQuench]

@[simp] theorem sendCmd_sec (s : State) (n : Nat) (c : SlotCmd) (value : Nat) : (sendCmd s n c value).sec = s.sec := by
  simp [sendCmd]

@[simp] theorem sendCfg_sec (s : State) (n field value : Nat) : (sendCfg s n field value).sec = s.sec := by simp [sendCfg]

@[simp] theorem sendFeeds_sec (s : State) (n : Nat) : (sendFeeds s n).sec = s.sec := by simp [sendFeeds]

@[simp] theorem sendSlotCfg_sec (s : State) (n : Nat) (r : SlotRec) : (sendSlotCfg s n r).sec = s.sec := by simp [sendSlotCfg]

@[simp] theorem slotInfo_sec (s : State) (n bit : Nat) : (slotInfo s n bit).sec = s.sec := by simp [slotInfo]

@[simp] theorem writeLife_sec (s : State) (n : Nat) (ok : Bool) : (writeLife s n ok).sec = s.sec := by simp [writeLife]

@[simp] theorem checkLimits_sec (s : State) (n : Nat) : (checkLimits s n).sec = s.sec := by simp [checkLimits]

@[simp] theorem emitUp_sec (s : State) (f : D2dFrame) : (emitUp s f).sec = s.sec := rfl

@[simp] theorem modPdSlot_sec (s : State) (n : Nat) (f : Slot → Slot) : (modPdSlot s n f).sec = s.sec := by simp [modPdSlot]

@[simp] theorem alarm_sec (s : State) (n kind value : Nat) : (alarm s n kind value).sec = s.sec := by simp [alarm]

@[simp] theorem latchRetry_sec (s : State) (n l kind detail : Nat) : (latchRetry s n l kind detail).sec = s.sec := by
  simp [latchRetry]

@[simp] theorem latchFet_sec (s : State) (n l : Nat) : (latchFet s n l).sec = s.sec := by simp [latchFet]

@[simp] theorem orderOn_sec (s : State) (n f : Nat) : (orderOn s n f).sec = s.sec := by simp [orderOn]

@[simp] theorem orderOff_sec (s : State) (n : Nat) : (orderOff s n).sec = s.sec := by simp [orderOff]

@[simp] theorem orderClear_sec (s : State) (n : Nat) : (orderClear s n).sec = s.sec := by simp [orderClear]

@[simp] theorem pinOff_sec (s : State) (n : Nat) (pinB : Bool) : (pinOff s n pinB).sec = s.sec := by simp [pinOff]

@[simp] theorem pinOn_sec (s : State) (n : Nat) (pinB : Bool) : (pinOn s n pinB).sec = s.sec := by simp [pinOn]

theorem execPresencePinChange_levelHolds (n : SlotId) (pinB asserted : Bool) (heldNs : Nat) (s : State) :
    LevelHolds s (execPresencePinChange n pinB asserted heldNs s) := by simp [execPresencePinChange]

theorem execSeated_levelHolds (n : SlotId) (s : State) : LevelHolds s (execSeated n s) := by simp [execSeated]

@[simp] theorem containSlot_sec (s : State) (n : Nat) : (containSlot s n).sec = s.sec := by
  unfold containSlot; split <;> simp

@[simp] theorem commandedCut_sec (s : State) (n : Nat) : (commandedCut s n).sec = s.sec := by simp [commandedCut]

@[simp] theorem powerOffLife_sec (s : State) (n : Nat) : (powerOffLife s n).sec = s.sec := by simp [powerOffLife]

@[simp] theorem latchSeen_sec (s : State) (n : Nat) : (latchSeen s n).sec = s.sec := by simp [latchSeen]

@[simp] theorem seatIn_sec (s : State) (n : Nat) : (seatIn s n).sec = s.sec := by simp [seatIn]

@[simp] theorem askClear_sec (s : State) (n : Nat) : (askClear s n).sec = s.sec := by simp [askClear]

@[simp] theorem removal_sec (s : State) (n : Nat) : (removal s n).sec = s.sec := by simp [removal]

@[simp] theorem absentIn_sec (s : State) (n : Nat) : (absentIn s n).sec = s.sec := by
  unfold absentIn; dsimp only; split <;> simp

@[simp] theorem presentIn_sec (s : State) (n : Nat) : (presentIn s n).sec = s.sec := by
  unfold presentIn; split
  · split <;> simp
  · simp

@[simp] theorem locIn_sec (s : State) (n a b : Nat) : (locIn s n a b).sec = s.sec := by simp [locIn]

@[simp] theorem perstIn_sec (s : State) (n : Nat) : (perstIn s n).sec = s.sec := by
  unfold perstIn; split <;> simp

@[simp] theorem statIn_sec (s : State) (n v : Nat) : (statIn s n v).sec = s.sec := by simp [statIn]

theorem execRemoved_levelHolds (n : SlotId) (s : State) : LevelHolds s (execRemoved n s) := by
  simp only [execRemoved, levelHolds_next]; split <;> simp

@[simp] theorem takeLife_sec (s : State) (n : Nat) (b : List Byte) : (takeLife s n b).sec = s.sec := by
  unfold takeLife; split <;> simp

@[simp] theorem identBad_sec (s : State) (n result : Nat) : (identBad s n result).sec = s.sec := rfl

@[simp] theorem identClass_sec (s : State) (n : Nat) (c : CartRec) : (identClass s n c).sec = s.sec := by simp [identClass]

@[simp] theorem identify_sec (s : State) (n : Nat) (c : CartRec) (r : StoreRead) : (identify s n c r).sec = s.sec := by
  simp [identify]

theorem execIdentify_levelHolds (n : SlotId) (r : StoreRead) (s : State) : LevelHolds s (execIdentify n r s) := by
  simp only [execIdentify, levelHolds_next]; split <;> simp

theorem execTinningStart_levelHolds (n : SlotId) (feedA feedB : FeedRead) (s : State) :
    LevelHolds s (execTinningStart n feedA feedB s) := by simp [execTinningStart]

theorem execPowerGood_levelHolds (o : SlotOutput) (s : State) : LevelHolds s (execPowerGood o s) := by simp [execPowerGood]

theorem execRampTimeout_levelHolds (n : SlotId) (s : State) : LevelHolds s (execRampTimeout n s) := by simp [execRampTimeout]

theorem execRampLimit_levelHolds (o : SlotLimit) (s : State) : LevelHolds s (execRampLimit o s) := by simp [execRampLimit]

theorem execShortDuringRamp_levelHolds (o : SlotOutput) (s : State) : LevelHolds s (execShortDuringRamp o s) := by
  simp [execShortDuringRamp]

theorem execBreaker_levelHolds (o : SlotLimit) (s : State) : LevelHolds s (execBreaker o s) := by simp [execBreaker]

theorem execSevere_levelHolds (o : SlotSense) (s : State) : LevelHolds s (execSevere o s) := by simp [execSevere]

theorem execPerstDelayEnd_levelHolds (n : SlotId) (s : State) : LevelHolds s (execPerstDelayEnd n s) := by
  simp only [execPerstDelayEnd, levelHolds_next]; split <;> simp

theorem execFeedWarnChange_levelHolds (n : SlotId) (active : FeedRead) (s : State) : LevelHolds s (execFeedWarnChange n active s) := by
  simp [execFeedWarnChange]

theorem execWarnEnd_levelHolds (n : SlotId) (s : State) : LevelHolds s (execWarnEnd n s) := by simp [execWarnEnd]

@[simp] theorem startSwap_sec (s : State) (n f : Nat) : (startSwap s n f).sec = s.sec := by simp [startSwap]

theorem execFeedSwap_levelHolds (o : SlotFeeds) (s : State) : LevelHolds s (execFeedSwap o s) := by simp [execFeedSwap]

theorem execGateStuck_levelHolds (o : SlotGate) (s : State) : LevelHolds s (execGateStuck o s) := by simp [execGateStuck]

theorem execSwapGapEnd_levelHolds (n : SlotId) (s : State) : LevelHolds s (execSwapGapEnd n s) := by simp [execSwapGapEnd]

theorem execFeedReturn_levelHolds (o : SlotFeedA) (s : State) : LevelHolds s (execFeedReturn o s) := by simp [execFeedReturn]

theorem execBothBad_levelHolds (o : SlotFeeds) (s : State) : LevelHolds s (execBothBad o s) := by simp [execBothBad]

@[simp] theorem sample_sec (s : State) (n ch code : Nat) : (sample s n ch code).sec = s.sec := by simp [sample]

theorem execFetFail_levelHolds (o : SlotAbove) (feedA feedB : BitVec 12) (s : State) : LevelHolds s (execFetFail o feedA feedB s) := by
  simp [execFetFail]

theorem execRetryTimerEnd_levelHolds (n : SlotId) (s : State) : LevelHolds s (execRetryTimerEnd n s) := by
  simp only [execRetryTimerEnd, levelHolds_next]; split <;> simp

theorem execFaultCountReset_levelHolds (n : SlotId) (s : State) : LevelHolds s (execFaultCountReset n s) := by
  simp [execFaultCountReset]

theorem execPatinaHour_levelHolds (n : SlotId) (writeOk : Bool) (s : State) : LevelHolds s (execPatinaHour n writeOk s) := by
  simp [execPatinaHour]

theorem execEnergyIntegrate_levelHolds (n : SlotId) (feeds : FeedCodes) (out : OutCodes) (s : State) :
    LevelHolds s (execEnergyIntegrate n feeds out s) := by simp [execEnergyIntegrate]

theorem execHallmarkPass_levelHolds (x : SlotAuth) (s : State) : LevelHolds s (execHallmarkPass x s) := by
  simp only [execHallmarkPass, levelHolds_next]; split <;> simp

@[simp] theorem cutAndForget_sec (s : State) (n : Nat) : (cutAndForget s n).sec = s.sec := by simp [cutAndForget]

theorem execHallmarkFail_levelHolds (n : SlotId) (result : Fin 16) (s : State) : LevelHolds s (execHallmarkFail n result s) := by
  simp only [execHallmarkFail, levelHolds_next]; split <;> simp

@[simp] theorem safeSlot_sec (s : State) (n : Nat) : (safeSlot s n).sec = s.sec := by simp [safeSlot]

@[simp] theorem safeSlots_sec (s : State) : (safeSlots s).sec = s.sec := by simp [safeSlots]

@[simp] theorem quenchSlots_sec (s : State) : (quenchSlots s).sec = s.sec := by simp [quenchSlots]

theorem execD2dLost_levelHolds (side : Side) (s : State) : LevelHolds s (execD2dLost side s) := by
  simp only [execD2dLost, levelHolds_next]; split <;> simp

@[simp] theorem resendQuench_sec (s : State) : (resendQuench s).sec = s.sec := by
  unfold resendQuench; split <;> simp

@[simp] theorem resendHead_sec (s : State) : (resendHead s).sec = s.sec := by
  unfold resendHead; split <;> simp

theorem execD2dResend_levelHolds (s : State) : LevelHolds s (execD2dResend s) := by simp [execD2dResend]

theorem pdApply_sec (s : State) (f : D2dFrame) (g : State → State) (h : (g s).sec = s.sec) :
    (pdApply s f g).sec = s.sec := by
  unfold pdApply; dsimp only; split <;> simp [h]

@[simp] theorem pdQuench_sec (s : State) (f : D2dFrame) : (pdQuench s f).sec = s.sec := by simp [pdQuench]

@[simp] theorem cmdIn_sec (s : State) (f : D2dFrame) : (cmdIn s f).sec = s.sec := by
  unfold cmdIn; split <;> simp

@[simp] theorem cfgField_sec (s : State) (f : D2dFrame) : (cfgField s f).sec = s.sec := by simp [cfgField]

@[simp] theorem atPowerDie_sec (s : State) (f : D2dFrame) : (atPowerDie s f).sec = s.sec := by
  unfold atPowerDie; split
  · split
    · exact pdApply_sec _ _ _ (by simp)
    · rfl
  · split
    · exact pdApply_sec _ _ _ (by simp)
    · rfl
  · simp
  · rfl

@[simp] theorem sampleIn_sec (s : State) (f : D2dFrame) : (sampleIn s f).sec = s.sec := rfl

@[simp] theorem alarmIn_sec (s : State) (f : D2dFrame) : (alarmIn s f).sec = s.sec := by simp [alarmIn]

@[simp] theorem ackIn_sec (s : State) (seq : Nat) : (ackIn s seq).sec = s.sec := by
  unfold ackIn; dsimp only; split <;> simp

@[simp] theorem atSwitchDie_sec (s : State) (f : D2dFrame) : (atSwitchDie s f).sec = s.sec := by
  unfold atSwitchDie; split <;> simp

theorem execD2dFrame_levelHolds (side : Side) (f : D2dFrame) (s : State) : LevelHolds s (execD2dFrame side f s) := by
  simp only [execD2dFrame, levelHolds_next]
  split
  · simp
  · split <;> simp

/-! ### The security state through `Cupel.lean` -/

@[simp] theorem putEntry_sec (s : State) (i : Nat) (e : FltEntry) : (putEntry s i e).sec = s.sec := rfl

@[simp] theorem writeLog_sec (s : State) (w : List Nat) : (writeLog s w).sec = s.sec := by simp [writeLog]

@[simp] theorem logEvent_sec (s : State) (k : FltClass) (level : Nat) (w : List Nat) : (logEvent s k level w).sec = s.sec := by
  simp [logEvent]

@[simp] theorem setRes_sec (s : State) (i result coverage test lane us : Nat) :
    (setRes s i result coverage test lane us).sec = s.sec := State.setReg_sec ..

@[simp] theorem logDiscard_sec (s : State) (code : Nat) (cmd : Option (Path × Byte)) : (logDiscard s code cmd).sec = s.sec := by
  unfold logDiscard; split <;> simp

@[simp] theorem stopPrepare_sec (s : State) : (stopPrepare s).sec = s.sec := by
  unfold stopPrepare; split <;> simp

@[simp] theorem stopAssay_sec (s : State) : (stopAssay s).sec = s.sec := by
  unfold stopAssay; split
  · rfl
  · dsimp only; split <;> simp

@[simp] theorem leaveService_sec (s : State) : (leaveService s).sec = s.sec := by
  simp only [leaveService]
  rw [foldl_sec]
  · split <;> split <;> simp
  · intro a p
    dsimp only; split <;> simp

@[simp] theorem quenchPorts_sec (s : State) : (quenchPorts s).sec = s.sec := by simp [quenchPorts]

@[simp] theorem quenchTimes_sec (s : State) : (quenchTimes s).sec = s.sec := by simp [quenchTimes]

@[simp] theorem haltEngines_sec (s : State) : (haltEngines s).sec = s.sec := by simp [haltEngines]

@[simp] theorem quenchMode_sec (s : State) (essential : Bool) : (quenchMode s essential).sec = s.sec := by
  unfold quenchMode; split <;> simp

@[simp] theorem quench_sec (s : State) (m : Msg) (w : List Nat) : (quench s m w).sec = s.sec := by simp [quench]

@[simp] theorem reactStation_sec (s : State) (m : Msg) : (reactStation s m).sec = s.sec := by simp [reactStation]

@[simp] theorem reactS3_sec (s : State) (m : Msg) : (reactS3 s m).sec = s.sec := by
  unfold reactS3; dsimp only; repeat' split
  all_goals simp

@[simp] theorem reactAer_sec (s : State) (m : Msg) (level : Nat) : (reactAer s m level).sec = s.sec := by simp [reactAer]

@[simp] theorem tellFabric_sec (s : State) (m : Msg) (level : Nat) : (tellFabric s m level).sec = s.sec := by simp [tellFabric]

@[simp] theorem ringAfter_sec (marked was : Bool) (s : State) : (ringAfter marked was s).sec = s.sec := by simp [ringAfter]

@[simp] theorem react_sec (s : State) (m : Msg) (level : Nat) (w : List Nat) : (react s m level w).sec = s.sec := by simp [react]

@[simp] theorem updatePins_sec (s : State) : (updatePins s).sec = s.sec := by
  unfold updatePins; split <;> simp

@[simp] theorem s4Interrupt_sec (s : State) (before : Nat) : (s4Interrupt s before).sec = s.sec := by simp [s4Interrupt]

@[simp] theorem accept_sec (s : State) (m : Msg) (inj : Bool) : (accept s m inj).sec = s.sec := by
  unfold accept; dsimp only; repeat' split
  all_goals simp

@[simp] theorem raiseFor_sec (s : State) (src kind : Nat) (inj : Bool) : (raiseFor s src kind inj).sec = s.sec := by
  simp [raiseFor]

theorem execCupelMessage_levelHolds (s : State) : LevelHolds s (execCupelMessage s) := by
  simp only [execCupelMessage, levelHolds_next]
  split
  · simp
  · split <;> simp

@[simp] theorem endEntry_sec (s : State) (i : Nat) (e : FltEntry) : (endEntry s i e).sec = s.sec := by simp [endEntry]

@[simp] theorem endKind_sec (s : State) (src kind : Nat) : (endKind s src kind).sec = s.sec := by
  unfold endKind; split <;> simp

@[simp] theorem setRail_sec (s : State) (r : Nat) (v : RailSt) : (setRail s r v).sec = s.sec := rfl

@[simp] theorem railFault_sec (s : State) (r : Nat) (v : RailSt) (inj : Bool) : (railFault s r v inj).sec = s.sec := by
  simp [railFault]

theorem execRailAlarm_levelHolds (r : RailId) (s : State) : LevelHolds s (execRailAlarm r s) := by simp [execRailAlarm]

theorem execRailEqual_levelHolds (r : RailId) (s : State) : LevelHolds s (execRailEqual r s) := by simp [execRailEqual]

@[simp] theorem conditionEnd_sec (s : State) (i : Nat) (e : FltEntry) : (conditionEnd s i e).sec = s.sec := by simp [conditionEnd]

theorem execFaultConditionEnd_levelHolds (entry : Fin 1024) (s : State) : LevelHolds s (execFaultConditionEnd entry s) := by
  simp only [execFaultConditionEnd, levelHolds_next]; split <;> simp

theorem execMsgOvf_levelHolds (r : RailId) (s : State) : LevelHolds s (execMsgOvf r s) := by simp [execMsgOvf]

theorem execLogLimitMs_levelHolds (s : State) : LevelHolds s (execLogLimitMs s) := by simp [execLogLimitMs]

theorem execAliveToggle_levelHolds (patternOk : Bool) (s : State) : LevelHolds s (execAliveToggle patternOk s) := by
  simp [execAliveToggle]

@[simp] theorem raiseHot_sec (s : State) (bit kind base n : Nat) : (raiseHot s bit kind base n).sec = s.sec := by simp [raiseHot]

@[simp] theorem rearmHot_sec (s : State) (bit kind : Nat) (degrees : Int) : (rearmHot s bit kind degrees).sec = s.sec := by
  simp [rearmHot]

theorem execTemperatureRead_levelHolds (quarterDegrees : List Int) (s : State) :
    LevelHolds s (execTemperatureRead quarterDegrees s) := by simp [execTemperatureRead]

theorem execHkWatchdog_levelHolds (s : State) : LevelHolds s (execHkWatchdog s) := by simp [execHkWatchdog]

/-! ### The security state through `Ingot.lean` -/

@[simp] theorem setCause_sec (s : State) (i : Nat) (w : W32) : (setCause s i w).sec = s.sec := by simp [setCause]

theorem fetchSlot_level (s : State) (img : FlashSlot) : (fetchSlot s img).sec.level = s.sec.level := by
  unfold fetchSlot; dsimp only; split
  · rfl
  · split <;> simp

theorem execIngotSlotFetch_levelHolds (img : FlashSlot) (s : State) : LevelHolds s (execIngotSlotFetch img s) := by
  simp only [execIngotSlotFetch, levelHolds_next]; split <;> simp [fetchSlot_level]

@[simp] theorem avsWrite_sec (s : State) (v : Nat) : (avsWrite s v).sec = s.sec := rfl

@[simp] theorem sendSafe_sec (s : State) (safe : BitVec 24) (n : Nat) : (sendSafe s safe n).sec = s.sec := by simp [sendSafe]

@[simp] theorem loadLists_sec (s : State) : (loadLists s).sec = s.sec := by simp [loadLists]

theorem applyRecords_level (s : State) (h : IngotHeader) (l : List RawRec) : (applyRecords s h l).sec.level = s.sec.level := by
  simp only [applyRecords]
  rw [foldl_sec _ _ _ (by simp)]
  split <;> split <;> simp

theorem execIngotApply_levelHolds (hwError : Option Nat) (s : State) : LevelHolds s (execIngotApply hwError s) := by
  simp only [execIngotApply, levelHolds_next]; repeat' split
  all_goals simp [applyRecords_level]

/-! ### The security state through `Assay.lean` -/

@[simp] theorem assayFail_sec (s : State) (i : Nat) : (assayFail s i).sec = s.sec := by simp [assayFail]

@[simp] theorem stationFail_sec (s : State) (i : Nat) : (stationFail s i).sec = s.sec := by
  unfold stationFail; dsimp only; split
  · rfl
  · rw [stationUnusable_sec, State.modStation_sec]

@[simp] theorem writeRes_sec (s : State) (b : AssayBlock) (o : AssayOutcome) : (writeRes s b o).sec = s.sec := setRes_sec ..

@[simp] theorem assayEssential_sec (s : State) (i : Nat) : (assayEssential s i).sec = s.sec := by simp [assayEssential]

@[simp] theorem stationPass_sec (s : State) (i : Nat) : (stationPass s i).sec = s.sec := by simp [stationPass]

@[simp] theorem bankFail_sec (s : State) (k : Nat) : (bankFail s k).sec = s.sec := by simp [bankFail]

@[simp] theorem blockFail_sec (s : State) (b : AssayBlock) : (blockFail s b).sec = s.sec := by
  unfold blockFail; split <;> simp

@[simp] theorem blockPass_sec (s : State) (b : AssayBlock) : (blockPass s b).sec = s.sec := by
  unfold blockPass; split <;> simp

@[simp] theorem startInit_sec (s : State) : (startInit s).sec = s.sec := by simp [startInit]

@[simp] theorem noteResult_sec (s : State) (b : AssayBlock) (o : AssayOutcome) : (noteResult s b o).sec = s.sec := by
  unfold noteResult; split <;> simp

theorem execAssayBlockDone_levelHolds (b : AssayBlock) (o : AssayOutcome) (s : State) : LevelHolds s (execAssayBlockDone b o s) := by
  simp [execAssayBlockDone]

theorem execAssayStationPairStart_levelHolds (s : State) : LevelHolds s (execAssayStationPairStart s) := by
  simp [execAssayStationPairStart]

theorem execInternalInitDone_levelHolds (s : State) : LevelHolds s (execInternalInitDone s) := by
  simp only [execInternalInitDone, levelHolds_next]; split <;> simp

@[simp] theorem wantAuto_sec (s : State) : (wantAuto s).sec = s.sec := by simp [wantAuto]

theorem enterRun_level (s : State) : (enterRun s).sec.level = s.sec.level := by
  simp only [enterRun, updatePins_sec, State.modSec_sec]
  split <;> simp

theorem execAssayEnd_levelHolds (s : State) : LevelHolds s (execAssayEnd s) := by
  simp only [execAssayEnd, levelHolds_next]; split <;> simp [enterRun_level]

theorem execAssayStationHang_levelHolds (s : State) : LevelHolds s (execAssayStationHang s) := by
  simp only [execAssayStationHang, levelHolds_next]; split <;> simp

theorem execAvsTick_levelHolds (slacks : List Nat) (s : State) : LevelHolds s (execAvsTick slacks s) := by simp [execAvsTick]

theorem execAvsRetry_levelHolds (acked : Bool) (s : State) : LevelHolds s (execAvsRetry acked s) := by simp [execAvsRetry]

@[simp] theorem fenceStation_sec (s : State) (i : Nat) : (fenceStation s i).sec = s.sec := by simp [fenceStation]

@[simp] theorem runtimeDone_sec (s : State) (i : Nat) (b : AssayBlock) (o : AssayOutcome) (path : Path) (seq : Byte) :
    (runtimeDone s i b o path seq).sec = s.sec := by
  simp only [runtimeDone, respondTo_sec]
  split
  · rw [recoverMode_sec, stationPass_sec, State.bump_sec, writeRes_sec]
  · rw [assayFail_sec, stationFail_sec, State.bump_sec, writeRes_sec]

/-! ### The unlock level through `Amend.lean` -/

@[simp] theorem commitSched_sec (s : State) (path : Path) (seq : Byte) (p : Nat) (x : SchedRec) (listChanged : Bool) :
    (commitSched s path seq p x listChanged).sec = s.sec := by simp [commitSched]

@[simp] theorem commitLot_sec (old : State) (runs : List Run) (s : State) (n : Nat) : (commitLot old runs s n).sec = s.sec := by
  simp [commitLot]

theorem commitRecord_level (s : State) (path : Path) (seq : Byte) (r : RawRec) (l : Layout) (bytes : List Byte) :
    (commitRecord s path seq r l bytes).sec.level = s.sec.level := by simp [commitRecord]

@[simp] theorem amendBad_sec (s : State) (path : Path) (seq : Byte) (check off : Nat) : (amendBad s path seq check off).sec = s.sec := by
  simp [amendBad]

@[simp] theorem dropStage_sec (s : State) : (dropStage s).sec = s.sec := rfl

theorem amendRecord_level (s : State) (path : Path) (seq : Byte) (validate : Bool) (bytes : List Byte) :
    (amendRecord s path seq validate bytes).sec.level = s.sec.level := by
  unfold amendRecord; dsimp only; repeat' split
  all_goals simp [commitRecord_level]

theorem amendStaged_level (s : State) (path : Path) (seq : Byte) (validate more : Bool) (all : List Byte) (total : Nat) :
    (amendStaged s path seq validate more all total).sec.level = s.sec.level := by
  unfold amendStaged; dsimp only; repeat' split
  all_goals simp [amendRecord_level]

theorem amendCmd_level (s : State) (path : Path) (seq : Byte) (validate more : Bool) (off : Nat) (bytes : List Byte) :
    (amendCmd s path seq validate more off bytes).sec.level = s.sec.level := by
  unfold amendCmd; repeat' split
  all_goals simp [amendStaged_level]

/-! ### The security state through `RegRead.lean` -/

@[simp] theorem afterRead_sec (s : State) (p : Path) (off : Nat) : (afterRead s p off).sec = s.sec := by simp [afterRead]

@[simp] theorem touchOn_sec (s : State) (p : Path) (off : Nat) : (touchOn s p off).sec = s.sec := by simp [touchOn]

@[simp] theorem readReg_sec (s : State) (p : Path) (off : Nat) (be : BitVec 4) : (readReg s p off be).1.sec = s.sec := by
  unfold readReg; split
  · simp
  · split <;> simp

@[simp] theorem readRegs_sec (s : State) (p : Path) (off : Nat) (be : Nat → BitVec 4) (k : Nat) :
    (readRegs s p off be k).1.sec = s.sec := by
  induction k with
  | zero => rfl
  | succ k ih => unfold readRegs; simp [ih]

/-! ### The security state through `Command.lean` -/

@[simp] theorem cmdGetState_sec (s : State) (path : Path) (seq : Byte) : (cmdGetState s path seq).sec = s.sec := by
  simp [cmdGetState]

@[simp] theorem cmdAckFault_sec (s : State) (path : Path) (seq : Byte) (op level entry : Nat) :
    (cmdAckFault s path seq op level entry).sec = s.sec := by simp [cmdAckFault]

@[simp] theorem cmdReleaseContain_sec (s : State) (path : Path) (seq : Byte) (p : Nat) :
    (cmdReleaseContain s path seq p).sec = s.sec := by
  simp [cmdReleaseContain]

@[simp] theorem slotResponse_sec (s : State) (path : Path) (seq : Byte) (n result : Nat) :
    (slotResponse s path seq n result).sec = s.sec := by simp [slotResponse]

@[simp] theorem setWant_sec (s : State) (n : Nat) (forced : Bool) : (setWant s n forced).sec = s.sec := by simp [setWant]

@[simp] theorem clearWant_sec (s : State) (n : Nat) : (clearWant s n).sec = s.sec := rfl

@[simp] theorem offDrain_sec (s : State) (n : Nat) : (offDrain s n).sec = s.sec := by
  unfold offDrain; split <;> simp

@[simp] theorem clearLatch_sec (s : State) (n : Nat) : (clearLatch s n).sec = s.sec := by simp [clearLatch]

@[simp] theorem cmdSlotPower_sec (s : State) (path : Path) (seq : Byte) (n op : Nat) :
    (cmdSlotPower s path seq n op).sec = s.sec := by simp [cmdSlotPower]

@[simp] theorem cmdAssayStation_sec (s : State) (path : Path) (seq : Byte) (i : Nat) (run : RuntimeAssay) :
    (cmdAssayStation s path seq i run).sec = s.sec := by
  unfold cmdAssayStation; split
  · simp
  · dsimp only; split <;> simp

@[simp] theorem cmdSetTime_sec (s : State) (path : Path) (seq : Byte) (seconds : Nat) (atPps : Bool) :
    (cmdSetTime s path seq seconds atPps).sec = s.sec := by simp [cmdSetTime]

@[simp] theorem cmdSnapshotAt_sec (s : State) (path : Path) (seq : Byte) (at_ : W64) (id : W32) :
    (cmdSnapshotAt s path seq at_ id).sec = s.sec := by simp [cmdSnapshotAt]

@[simp] theorem takeSnapshot_sec (s : State) (id : W32) : (takeSnapshot s id).sec = s.sec := by
  unfold takeSnapshot
  rw [report_sec, State.setEvt_sec, State.setRegs_sec, foldl_sec _ _ _ (by simp), foldl_sec _ _ _ (by simp)]

@[simp] theorem cmdRouteEpoch_sec (s : State) (path : Path) (seq : Byte) (at_ : Nat) (newTag : W32) :
    (cmdRouteEpoch s path seq at_ newTag).sec = s.sec := by simp [cmdRouteEpoch]

@[simp] theorem groupAdmin_sec (s : State) (g op d : Nat) : (groupAdmin s g op d).sec = s.sec := by simp [groupAdmin]

@[simp] theorem cmdGroupAdmin_sec (s : State) (path : Path) (seq : Byte) (g op d : Nat) :
    (cmdGroupAdmin s path seq g op d).sec = s.sec := by
  simp [cmdGroupAdmin]

@[simp] theorem resumeNow_sec (s : State) : (resumeNow s).sec = s.sec := by simp [resumeNow]

@[simp] theorem cmdResume_sec (s : State) (path : Path) (seq : Byte) : (cmdResume s path seq).sec = s.sec := by simp [cmdResume]

@[simp] theorem injectRail_sec (s : State) (r us : Nat) (v : RailSt) : (injectRail s r us v).sec = s.sec := by simp [injectRail]

@[simp] theorem cmdInject_sec (s : State) (path : Path) (seq : Byte) (b : List Byte) : (cmdInject s path seq b).sec = s.sec := by
  simp [cmdInject]

@[simp] theorem evictDesc_sec (s : State) (d : Desc) : (evictDesc s d).sec = s.sec := by
  unfold evictDesc; dsimp only; split <;> simp

@[simp] theorem evictGroups_sec (s : State) (t : Nat) : (evictGroups s t).sec = s.sec := by simp [evictGroups]

@[simp] theorem evictNow_sec (s : State) (t : Nat) : (evictNow s t).1.sec = s.sec := by simp [evictNow]

@[simp] theorem cmdEvict_sec (s : State) (path : Path) (seq : Byte) (t : Nat) : (cmdEvict s path seq t).sec = s.sec := by
  unfold cmdEvict; split <;> simp

theorem execEvictComplete_levelHolds (t : TenantId) (s : State) : LevelHolds s (execEvictComplete t s) := by
  simp only [execEvictComplete, levelHolds_next]
  split
  · simp
  · split <;> simp

theorem execEvictTimeout_levelHolds (s : State) : LevelHolds s (execEvictTimeout s) := by
  simp only [execEvictTimeout, levelHolds_next]; split <;> simp

theorem execSetTimeTimeout_levelHolds (s : State) : LevelHolds s (execSetTimeTimeout s) := by
  simp only [execSetTimeTimeout, levelHolds_next]; split <;> simp

theorem execSnapshotTake_levelHolds (s : State) : LevelHolds s (execSnapshotTake s) := by
  simp only [execSnapshotTake, levelHolds_next]; repeat' split
  all_goals simp

theorem execPpsEdge_levelHolds (s : State) : LevelHolds s (execPpsEdge s) := by simp [execPpsEdge]

theorem execHoldover_levelHolds (s : State) : LevelHolds s (execHoldover s) := by simp [execHoldover]

/-! ### The security state through `Security.lean` -/

@[simp] theorem burnAll_sec (s : State) : (burnAll s).sec = s.sec := by simp [burnAll]

theorem execLifecycleBurn_levelHolds (s : State) : LevelHolds s (execLifecycleBurn s) := by
  simp only [execLifecycleBurn, levelHolds_next]; split <;> simp

theorem authFail_level (s : State) (path : Path) (seq : Byte) : (authFail s path seq).sec.level = s.sec.level := by simp [authFail]

theorem reachLevel_level (s : State) (l : Nat) : (reachLevel s l).sec.level = max s.sec.level l := rfl

theorem cmdPassword_level (s : State) (path : Path) (seq : Byte) : (cmdPassword s path seq).sec.level = max s.sec.level 1 := by
  simp only [cmdPassword, respondTo_sec]
  split
  · exact reachLevel_level s 1
  · omega

theorem cmdChallenge_level (s : State) (path : Path) (seq : Byte) (level : Nat) :
    (cmdChallenge s path seq level).sec.level = s.sec.level := by simp [cmdChallenge]

theorem dropChallenge_level (s : State) : (dropChallenge s).sec.level = s.sec.level := rfl

theorem cmdResponse_level {s : State} {c : Challenge} (path : Path) (seq : Byte) (h : s.sec.challenge = some c) :
    (cmdResponse s path seq).sec.level = max s.sec.level c.level := by
  simp only [cmdResponse, h, respondTo_sec, reachLevel_level, dropChallenge_level]

theorem le_level_cmdResponse (s : State) (path : Path) (seq : Byte) : s.sec.level ≤ (cmdResponse s path seq).sec.level := by
  cases h : s.sec.challenge with
  | none => simp [cmdResponse, h]
  | some c => rw [cmdResponse_level path seq h]; exact Nat.le_max_left ..

theorem execUnlockHoldEnd_levelHolds (s : State) : LevelHolds s (execUnlockHoldEnd s) := by
  simp only [execUnlockHoldEnd, levelHolds_next]; repeat' split
  all_goals simp

@[simp] theorem evictAll_sec (s : State) : (evictAll s).sec = s.sec := by
  refine foldl_sec _ _ _ (fun a t => ?_)
  split <;> simp

theorem cmdEnterMaint_level (s : State) (path : Path) (seq : Byte) (target : Nat) :
    (cmdEnterMaint s path seq target).sec.level = s.sec.level := by
  unfold cmdEnterMaint; repeat' split
  all_goals simp [enterMaintenance]

theorem execMaintBufferScrub_levelHolds (s : State) : LevelHolds s (execMaintBufferScrub s) := by
  simp only [execMaintBufferScrub, levelHolds_next]; split <;> simp

@[simp] theorem scrubParked_sec (s : State) : (scrubParked s).sec = s.sec := rfl

theorem execScrubDone_levelHolds (s : State) : LevelHolds s (execScrubDone s) := by
  simp only [execScrubDone, levelHolds_next]; split <;> simp

theorem execSpdmRequest_levelHolds (port : PortId) (req : SpdmReq) (s : State) : LevelHolds s (execSpdmRequest port req s) := by
  simp [execSpdmRequest]

/-! ### The security state through `Mailbox.lean` -/

theorem failAuth_level (s : State) (path : Path) (seq : Byte) (code : Nat) : (failAuth s path seq code).sec.level = s.sec.level := by
  unfold failAuth
  rw [authFail_level]
  split
  · exact dropChallenge_level s
  · rfl

theorem le_level_carryOut (s : State) (path : Path) (seq : Byte) (code : Nat) (b : List Byte) (run : RuntimeAssay) :
    s.sec.level ≤ (carryOut s path seq code b run).sec.level := by
  unfold carryOut; dsimp only; split
  case h_4 => exact Nat.le_of_eq (amendCmd_level ..).symm
  case h_10 => exact Nat.le_of_eq (cmdChallenge_level ..).symm
  case h_11 => exact le_level_cmdResponse s path seq
  case h_12 => exact Nat.le_of_eq (cmdEnterMaint_level ..).symm
  case h_17 => rw [cmdPassword_level]; exact Nat.le_max_left ..
  all_goals simp

/-- The checks of R66 leave the level alone: a command changes it only as it is carried out. -/
theorem runCode_level (s : State) (path : Path) (seq : Byte) (code : Nat) (b : List Byte) (sig : Sig) (run : RuntimeAssay) :
    (runCode s path seq code b sig run).sec.level = s.sec.level ∨
      runCode s path seq code b sig run = carryOut s path seq code b run := by
  unfold runCode; repeat' split
  all_goals simp [failAuth_level]

theorem le_level_runCode (s : State) (path : Path) (seq : Byte) (code : Nat) (b : List Byte) (sig : Sig) (run : RuntimeAssay) :
    s.sec.level ≤ (runCode s path seq code b sig run).sec.level := by
  rcases runCode_level s path seq code b sig run with h | h
  · exact Nat.le_of_eq h.symm
  · rw [h]; exact le_level_carryOut ..

/-- A command's answer leaves the level alone, or is the answer of the command carried out. -/
theorem issueWith_level (s : State) (path : Path) (seq : Byte) (code : Nat) (b : List Byte) (sig : Sig) (run : RuntimeAssay) :
    (issueWith s path seq code b sig run).sec.level = s.sec.level ∨
      issueWith s path seq code b sig run = carryOut (loadCmd s path seq code b) path seq code b run := by
  unfold issueWith; split
  · exact runCode_level (loadCmd s path seq code b) path seq code b sig run
  · exact .inl rfl

theorem levelHolds_issueWith {s : State} {path : Path} {seq : Byte} {code : Nat} {b : List Byte} {sig : Sig} {run : RuntimeAssay} :
    LevelHolds s (.next (issueWith s path seq code b sig run)) := by
  rw [levelHolds_next]
  rcases issueWith_level s path seq code b sig run with h | h
  · exact Nat.le_of_eq h.symm
  · rw [h]; exact le_level_carryOut (loadCmd s path seq code b) path seq code b run

theorem levelHolds_issue {s : State} {path : Path} {seq : Byte} {code : Nat} {b : List Byte} :
    LevelHolds s (.next (issue s path seq code b)) := levelHolds_issueWith

/-! ### The security state through `RegWrite.lean` -/

@[simp] theorem writePlain_sec (s : State) (off : Nat) (be : BitVec 4) (v : W32) : (writePlain s off be v).sec = s.sec := by
  simp [writePlain]

@[simp] theorem writeGop_sec (s : State) (be : BitVec 4) (v : W32) : (writeGop s be v).sec = s.sec := by simp [writeGop]

theorem le_level_goCmd (s : State) (p : Path) : s.sec.level ≤ (goCmd s p).sec.level := by
  unfold goCmd; dsimp only
  exact Nat.le_trans (by simp) (le_level_runCode ..)

theorem le_level_writeMbx (s : State) (p : Path) (x : Nat) (be : BitVec 4) (v : W32) : s.sec.level ≤ (writeMbx s p x be v).sec.level := by
  have hg : s.sec.level ≤ (goCmd (touchMbx s) p).sec.level := le_level_goCmd (touchMbx s) p
  unfold writeMbx; dsimp only; repeat' split
  all_goals simp [hg]

theorem le_level_writeReg (s : State) (p : Path) (off : Nat) (be : BitVec 4) (v : W32) :
    s.sec.level ≤ (writeReg s p off be v).sec.level := by
  unfold writeReg; split
  · exact le_level_writeMbx ..
  · simp

theorem le_level_writeRegs (s : State) (p : Path) (off : Nat) (be : Nat → BitVec 4) (i : Nat) (l : List W32) :
    s.sec.level ≤ (writeRegs s p off be i l).sec.level := by
  induction l generalizing s i with
  | nil => exact Nat.le_refl _
  | cons v r ih => exact Nat.le_trans (le_level_writeReg ..) (ih ..)

@[simp] theorem writeMcx_sec (s : State) (vn r : Nat) (be : BitVec 4) (v : W32) : (writeMcx s vn r be v).sec = s.sec := by
  unfold writeMcx; dsimp only; split <;> simp

@[simp] theorem setVfBars_sec (s : State) (vn base size : Nat) (two : Bool) : (setVfBars s vn base size two).sec = s.sec := by
  simp [setVfBars]

@[simp] theorem writeVfBar_sec (s : State) (vn : Nat) (two high : Bool) (be : BitVec 4) (v : W32) :
    (writeVfBar s vn two high be v).sec = s.sec := by
  unfold writeVfBar; dsimp only; split <;> simp

@[simp] theorem writeMc_sec (s : State) (vn r : Nat) (be : BitVec 4) (v : W32) : (writeMc s vn r be v).sec = s.sec := by
  unfold writeMc; split <;> simp

@[simp] theorem writeFn_sec (s : State) (vn r : Nat) (be : BitVec 4) (v : W32) : (writeFn s vn r be v).sec = s.sec := by
  unfold writeFn; split <;> simp

@[simp] theorem writeVh_sec (s : State) (vn r : Nat) (be : BitVec 4) (v : W32) : (writeVh s vn r be v).sec = s.sec := by
  simp [writeVh]

@[simp] theorem writeRing_sec (s : State) (t i : Nat) (be : BitVec 4) (v : W32) : (writeRing s t i be v).sec = s.sec := by
  simp [writeRing]

@[simp] theorem writeVf_sec (s : State) (t off : Nat) (be : BitVec 4) (v : W32) : (writeVf s t off be v).sec = s.sec := by
  simp [writeVf]

@[simp] theorem writeBridgeReg_sec (s : State) (x : PortChip) (r : Nat) (be : BitVec 4) (v : W32) :
    (writeBridgeReg s x r be v).sec = s.sec := by
  unfold writeBridgeReg; split
  · split <;> simp
  · simp

theorem execRegisterWrite_levelHolds (target : RegTarget) (be : BitVec 4) (value : W32) (s : State) :
    LevelHolds s (execRegisterWrite target be value s) := by
  simp only [execRegisterWrite, levelHolds_next]; split
  · split
    · exact le_level_writeReg ..
    · exact Nat.le_refl _
  all_goals simp

@[simp] theorem mcReceive_sec (s : State) (x : PortChip) (vn : Nat) (bits : W64) : (mcReceive s x vn bits).sec = s.sec := by
  unfold mcReceive
  refine foldl_sec _ _ _ (fun a x => ?_)
  split <;> simp

theorem execMcReceiveWrite_levelHolds (a : ChipPort) (bits : W64) (s : State) : LevelHolds s (execMcReceiveWrite a bits s) := by
  simp only [execMcReceiveWrite, levelHolds_next]; split <;> simp

theorem execDpcSoftwareTrigger_levelHolds (port : PortId) (s : State) : LevelHolds s (execDpcSoftwareTrigger port s) := by
  simp [execDpcSoftwareTrigger]

theorem execDpcTriggerStatusClear_levelHolds (port : PortId) (s : State) : LevelHolds s (execDpcTriggerStatusClear port s) := by
  simp [execDpcTriggerStatusClear]

theorem execI3cWrite_levelHolds (off : Nat) (bytes : List Byte) (s : State) : LevelHolds s (execI3cWrite off bytes s) := by
  simp only [execI3cWrite, levelHolds_next]; split
  · exact Nat.le_refl _
  · split
    · exact Nat.le_refl _
    · split
      · exact Nat.le_refl _
      · exact le_level_writeRegs ..

theorem execI3cReadSetup_levelHolds (off : Nat) (count : Nat) (s : State) : LevelHolds s (execI3cReadSetup off count s) := by
  simp [execI3cReadSetup]

theorem execI3cPrivateRead_levelHolds (s : State) : LevelHolds s (execI3cPrivateRead s) := by
  simp only [execI3cPrivateRead, levelHolds_next]
  split
  · simp
  · split <;> simp

theorem execI3cAddressAssign_levelHolds (addr : BitVec 7) (s : State) : LevelHolds s (execI3cAddressAssign addr s) := by
  simp [execI3cAddressAssign]

/-! ### The security state through `CfgSpace.lean` -/

@[simp] theorem afterCfgRead_sec (s : State) (f : CfgFn) (r : Nat) (be : BitVec 4) : (afterCfgRead s f r be).sec = s.sec := by
  unfold afterCfgRead; split <;> simp

@[simp] theorem readCfg_sec (s : State) (p : Nat) (t : Tlp) : (readCfg s p t).1.sec = s.sec := by
  unfold readCfg; split <;> simp

/-! ### The security state through `Debug.lean` -/

@[simp] theorem debugNone_sec (s : State) (write : Bool) (n : Nat) : (debugNone s write n).sec = s.sec := by simp [debugNone]

@[simp] theorem debugRefuse_sec (s : State) (g : Nat) (write : Bool) (a n bad cause region : Nat) :
    (debugRefuse s g write a n bad cause region).sec = s.sec := by
  simp only [debugRefuse, debugNone_sec, State.setEvt_sec, State.bump_sec]
  exact rejectAt_sec _ _ _ _ _ _ _ (fun _ => report_sec ..)

theorem le_level_debugRegs (s : State) (write : Bool) (a n : Nat) (data : List Byte) :
    s.sec.level ≤ (debugRegs s write a n data).sec.level := by
  unfold debugRegs; dsimp only; split
  · simp
  · split
    · split
      · exact Nat.le_refl _
      · exact le_level_writeRegs ..
    · simp

theorem le_level_debugAccess (s : State) (g : Nat) (write : Bool) (a n : Nat) (data : List Byte) :
    s.sec.level ≤ (debugAccess s g write a n data).sec.level := by
  unfold debugAccess; split
  · exact le_level_debugRegs ..
  · simp

theorem execDebugMasterAccess_levelHolds (via : DebugVia) (gate : Fin 4) (write : Bool) (addr len : Nat) (data : List Byte) (s : State) :
    LevelHolds s (execDebugMasterAccess via gate write addr len data s) := by
  simp only [execDebugMasterAccess, levelHolds_next]; split
  · exact Nat.le_refl _
  · split
    · simp
    · exact le_level_debugAccess ..

theorem execJtagKeyProvision_levelHolds (slot : Fin 4) (key : Nat) (s : State) : LevelHolds s (execJtagKeyProvision slot key s) := by
  simp [execJtagKeyProvision]

theorem execJtagFieldReturn_levelHolds (s : State) : LevelHolds s (execJtagFieldReturn s) := by simp [execJtagFieldReturn]

/-! ### The security state through `Reset.lean` -/

@[simp] theorem resetPowerDie_sec (s : State) : (resetPowerDie s).sec = s.sec := rfl

@[simp] theorem debounceAll_sec (s : State) : (debounceAll s).sec = s.sec := by simp [debounceAll]

theorem leaveReset_of_ne {s : State} (h : s.mode ≠ .reset) : leaveReset s = s := by simp [leaveReset, h]

theorem execPerstNDeassert_levelHolds {s : State} (h : s.mode ≠ .reset) : LevelHolds s (execPerstNDeassert s) :=
  levelHolds_next.2 (Nat.le_of_eq (congrArg (·.sec.level) (leaveReset_of_ne (s := { s with perstN := true }) h).symm))

theorem execSlotWarnCutTimer_levelHolds (n : SlotId) {s : State} (h : s.mode ≠ .reset) : LevelHolds s (execSlotWarnCutTimer n s) := by
  simp only [execSlotWarnCutTimer, levelHolds_next]; split
  · exact Nat.le_refl _
  · rw [leaveReset_of_ne (by simpa using h)]; split <;> simp

theorem execSlotPowerDieReset_levelHolds (mv durNs : Nat) (s : State) : LevelHolds s (execSlotPowerDieReset mv durNs s) := by
  simp [execSlotPowerDieReset]

theorem execVccPdResetRelease_levelHolds (mv : Nat) (s : State) : LevelHolds s (execVccPdResetRelease mv s) := by
  simp [execVccPdResetRelease]

/-! ### The security state through `Serve.lean` -/

@[simp] theorem readVf_sec (s : State) (t off : Nat) (be : BitVec 4) : (readVf s t off be).1.sec = s.sec := by
  unfold readVf; dsimp only; repeat' split
  all_goals simp

@[simp] theorem readVfs_sec (s : State) (t off : Nat) (be : Nat → BitVec 4) (k : Nat) : (readVfs s t off be k).1.sec = s.sec := by
  induction k with
  | zero => rfl
  | succ k ih => unfold readVfs; simp [ih]

@[simp] theorem writeVfs_sec (s : State) (t off : Nat) (be : Nat → BitVec 4) (i : Nat) (l : List W32) :
    (writeVfs s t off be i l).sec = s.sec := by
  induction l generalizing s i with
  | nil => rfl
  | cons w r ih => exact (ih _ _).trans (writeVf_sec s t _ _ w)

@[simp] theorem cruUr_sec (s : State) (o : Owner) (src : Src) (q : Tlp) : (cruUr s o src q).sec = s.sec := by simp [cruUr]

@[simp] theorem serveVfBar0_sec (s : State) (t off : Nat) (src : Src) (q : Tlp) : (serveVfBar0 s t off src q).sec = s.sec := by
  unfold serveVfBar0; dsimp only
  split
  · simp
  · split
    · simp
    · rw [foldl_sec _ _ _ (by simp), readVfs_sec]

@[simp] theorem deliverCru_sec (s : State) (o : Owner) (src : Src) (trusted : Bool) (q : Tlp) :
    (deliverCru s o src trusted q).sec = s.sec := by
  unfold deliverCru; split
  · simp
  · split <;> simp

@[simp] theorem hkAnswer_sec (s : State) (src : Src) (o : Owner) (c : Tlp) : (hkAnswer s src o c).sec = s.sec := by
  simp [hkAnswer]

@[simp] theorem mfRefuse_sec (s : State) (o : Owner) (src : Src) (q : Tlp) : (mfRefuse s o src q).sec = s.sec := by
  simp [mfRefuse]

theorem le_level_serveMf0 (s : State) (o : Owner) (off : Nat) (src : Src) (q : Tlp) :
    s.sec.level ≤ (serveMf0 s o off src q).sec.level := by
  unfold serveMf0; dsimp only; split
  · simp
  · split
    · exact le_level_writeRegs ..
    · simp

@[simp] theorem putHk_sec (s : State) (off : Nat) (q : Tlp) : (putHk s off q).sec = s.sec := rfl

@[simp] theorem serveMf2_sec (s : State) (o : Owner) (off : Nat) (src : Src) (q : Tlp) :
    (serveMf2 s o off src q).sec = s.sec := by
  unfold serveMf2; split <;> simp

theorem le_level_deliverHk (s : State) (o : Owner) (src : Src) (q : Tlp) : s.sec.level ≤ (deliverHk s o src q).sec.level := by
  unfold deliverHk; split
  · exact Nat.le_refl _
  · split
    · exact le_level_serveMf0 ..
    · simp
    · exact Nat.le_refl _

/-! ### The security state through `Ingest.lean` -/

@[simp] theorem refuseNp_sec (s : State) (p : Nat) (src : Src) (o : Owner) (t : Tlp) (st : CplStatus) :
    (refuseNp s p src o t st).sec = s.sec := by simp [refuseNp]

@[simp] theorem urReject_sec (s : State) (p : Nat) (src : Src) (o : Owner) (t : Tlp) (kind bit : Nat) (d : Option PortChip) :
    (urReject s p src o t kind bit d).sec = s.sec := by simp [urReject]

@[simp] theorem gateRefuse_sec (s : State) (p : Nat) (src : Src) (o : Owner) (t : Tlp) (d : Option PortChip) (x : Denied)
    (matched : Bool) (c bad n : Nat) :
    (gateRefuse s p src o t d x matched c bad n).sec = s.sec := by simp [gateRefuse]

@[simp] theorem stageIn_sec (s : State) (e : Entering) (t : Tlp) (d : Dest) : (stageIn s e t d).sec = s.sec := rfl

@[simp] theorem noRouteIn_sec (s : State) (e : Entering) (t : Tlp) (f : Farug) : (noRouteIn s e t f).sec = s.sec := by
  simp [noRouteIn]

@[simp] theorem toContained_sec (s : State) (e : Entering) (t : Tlp) (q : Nat) : (toContained s e t q).sec = s.sec := by
  simp [toContained]

@[simp] theorem toDraining_sec (s : State) (e : Entering) (t : Tlp) (q : Nat) : (toDraining s e t q).sec = s.sec := by
  simp [toDraining]

@[simp] theorem toLocal_sec (s : State) (e : Entering) (t : Tlp) (q : Nat) : (toLocal s e t q).sec = s.sec := by simp [toLocal]

@[simp] theorem toDest_sec (s : State) (e : Entering) (t : Tlp) (d : Dest) : (toDest s e t d).sec = s.sec := by
  unfold toDest; dsimp only; repeat' split
  all_goals simp

@[simp] theorem cfgAnswer_sec (s : State) (p : Nat) (src : Src) (o : Owner) (t : Tlp) : (cfgAnswer s p src o t).sec = s.sec := by
  simp [cfgAnswer]

@[simp] theorem carryVerdict_sec (s : State) (e : Entering) (t : Tlp) (v : Verdict) : (carryVerdict s e t v).sec = s.sec := by
  unfold carryVerdict; split <;> simp

@[simp] theorem dropRed_sec (s : State) (p : Nat) (src : Src) (o : Owner) (t : Tlp) : (dropRed s p src o t).sec = s.sec := by
  unfold dropRed; dsimp only; split <;> simp

@[simp] theorem routeIn_sec (s : State) (p : PortId) (o : Owner) (trusted : Bool) (t : Tlp) :
    (routeIn s p o trusted t).sec = s.sec := by
  unfold routeIn; dsimp only; split
  · simp
  · next k r _ =>
    have hk := colour_sec s k (tlpBytes t)
    split <;> simp_all

@[simp] theorem classMiss_sec (s : State) (p : Nat) (t : Tlp) : (classMiss s p t).sec = s.sec := by simp [classMiss]

@[simp] theorem hearErrMsg_sec (s : State) (p : Nat) (o : Owner) (t : Tlp) : (hearErrMsg s p o t).sec = s.sec := by
  simp [hearErrMsg]

@[simp] theorem pmeOff_sec (s : State) (p : Nat) : (pmeOff s p).sec = s.sec := by simp [pmeOff]

@[simp] theorem classifyIn_sec (s : State) (p : PortId) (t : Tlp) : (classifyIn s p t).sec = s.sec := by
  unfold classifyIn; split <;> simp

@[simp] theorem earlyIn_sec (s : State) (p : Nat) (t : Tlp) : (earlyIn s p t).sec = s.sec := by simp [earlyIn]

@[simp] theorem safeIn_sec (s : State) (p : PortId) (t : Tlp) : (safeIn s p t).sec = s.sec := by
  unfold safeIn; split
  · simp
  · split <;> simp

@[simp] theorem quarantinedIn_sec (s : State) (p : PortId) (t : Tlp) : (quarantinedIn s p t).sec = s.sec := by
  unfold quarantinedIn; split <;> simp

@[simp] theorem requestIn_sec (s : State) (p : PortId) (t : Tlp) : (requestIn s p t).sec = s.sec := by simp [requestIn]

theorem execRequestReceived_levelHolds (port : PortId) (tlp : Tlp) (s : State) : LevelHolds s (execRequestReceived port tlp s) := by
  simp [execRequestReceived]

theorem execErrorMessageReceived_levelHolds (port : PortId) (tlp : Tlp) (s : State) :
    LevelHolds s (execErrorMessageReceived port tlp s) := by simp [execErrorMessageReceived]

@[simp] theorem refuseStaged_sec (s : State) (x : Staged) (q : Option Nat) : (refuseStaged s x q).sec = s.sec := by
  unfold refuseStaged; dsimp only; split <;> simp

@[simp] theorem queueStaged_sec (s : State) (x : Staged) (e : Nat) (f : Option Farug) : (queueStaged s x e f).sec = s.sec := by
  simp [queueStaged]

theorem le_level_deliverStaged (s : State) (x : Staged) (ecc : Option (Nat × Bool)) :
    s.sec.level ≤ (deliverStaged s x ecc).sec.level := by
  unfold deliverStaged; split
  · exact Nat.le_refl _
  · dsimp only; split
    · simp
    · split
      · simp
      · exact Nat.le_trans (by simp) (le_level_deliverHk ..)

theorem le_level_admitOne (s : State) (ecc : Option (Nat × Bool)) (x : Staged) : s.sec.level ≤ (admitOne s ecc x).sec.level := by
  unfold admitOne; split
  · exact Nat.le_refl _
  · split
    · simp
    · split
      · exact Nat.le_refl _
      · simp
      · split <;> simp
      · split
        · exact le_level_deliverStaged ..
        · simp

theorem le_level_admitFirst (s : State) (ecc : Option (Nat × Bool)) (l : List Staged) :
    s.sec.level ≤ (admitFirst s ecc l).sec.level := by
  induction l generalizing s with
  | nil => exact Nat.le_refl _
  | cons x r ih =>
    unfold admitFirst; dsimp only; split
    · exact Nat.le_trans (le_level_admitOne s ecc x) (ih _)
    · exact le_level_admitOne s ecc x

theorem execAdmit_levelHolds (a : Admission) (s : State) : LevelHolds s (execAdmit a s) := levelHolds_next.2 (le_level_admitFirst ..)

/-! ### The security state through `Complete.lean` -/

@[simp] theorem lateCpl_sec (s : State) (p : Nat) (o : Owner) (dest : Option (Nat × Nat)) : (lateCpl s p o dest).sec = s.sec := by
  simp [lateCpl]

@[simp] theorem unexpectedCpl_sec (s : State) (p : Nat) : (unexpectedCpl s p).sec = s.sec := by simp [unexpectedCpl]

@[simp] theorem forwardCpl_sec (s : State) (p : PortId) (e : Trk) (c : Tlp) : (forwardCpl s p e c).sec = s.sec := by
  simp [forwardCpl]

@[simp] theorem untrackedCpl_sec (s : State) (p : PortId) (c : Tlp) : (untrackedCpl s p c).sec = s.sec := by
  unfold untrackedCpl; repeat' split
  all_goals simp

@[simp] theorem cplIn_sec (s : State) (p : PortId) (c : Tlp) : (cplIn s p c).sec = s.sec := by
  unfold cplIn; split
  · split <;> simp
  · split
    · simp
    · split <;> simp

theorem execCompletionReceived_levelHolds (port : PortId) (tlp : Tlp) (s : State) :
    LevelHolds s (execCompletionReceived port tlp s) := by simp [execCompletionReceived]

@[simp] theorem timeOut_sec (s : State) (e : Trk) : (timeOut s e).sec = s.sec := by simp [timeOut]

theorem execCompletionTimeout_levelHolds (s : State) : LevelHolds s (execCompletionTimeout s) := by simp [execCompletionTimeout]

theorem execTagQuarantineEnd_levelHolds (s : State) : LevelHolds s (execTagQuarantineEnd s) := by simp [execTagQuarantineEnd]

theorem execIdeQuarantineEnd_levelHolds (s : State) : LevelHolds s (execIdeQuarantineEnd s) := by simp [execIdeQuarantineEnd]

theorem execContainmentComplete_levelHolds (port : PortId) (s : State) : LevelHolds s (execContainmentComplete port s) := by
  simp [execContainmentComplete]

theorem execOrderlyDrainEnd_levelHolds (port : PortId) (s : State) : LevelHolds s (execOrderlyDrainEnd port s) := by
  simp only [execOrderlyDrainEnd, levelHolds_next]; repeat' split
  all_goals simp

@[simp] theorem misdelivered_sec (s : State) (p : Nat) : (misdelivered s p).sec = s.sec := by simp [misdelivered]

@[simp] theorem transit_sec (s : State) (p : PortId) (f : Farug) (t : Tlp) : (transit s p f t).sec = s.sec := by
  unfold transit; dsimp only; repeat' split
  all_goals simp

@[simp] theorem countArrival_sec (s : State) (f : Farug) : (countArrival s f).sec = s.sec := rfl

@[simp] theorem missFar_sec (s : State) (q : Nat) (t : Tlp) : (missFar s q t).sec = s.sec := by
  unfold missFar; split
  · rfl
  · split <;> simp

@[simp] theorem arrive_sec (s : State) (p : PortId) (f : Farug) (t : Tlp) : (arrive s p f t).sec = s.sec := by
  unfold arrive; dsimp only; repeat' split
  all_goals simp

theorem execFabricTlpReceived_levelHolds (port : PortId) (f : Farug) (tlp : Tlp) (s : State) :
    LevelHolds s (execFabricTlpReceived port f tlp s) := by simp [execFabricTlpReceived]

/-! ### Resets -/

@[simp] theorem chipReset_mode (s : State) (cause : Nat) : (chipReset s cause).mode = .reset := by
  unfold chipReset; dsimp only; split <;> simp

/-- The commands that reset the device (R61 to R63, R280). -/
def resetCommand : Instr → Bool
  | .powerOnReset _ | .powerGoodLost _ | .perstNAssert _ | .fabricResetStart => true
  | _ => false

/-- A reset command is ignored, or leaves the device in Reset. -/
theorem exec_resetCommand {c : Instr} {s t : State} (hc : resetCommand c = true) (ht : exec c s = .next t) :
    t.mode = .reset ∨ t.sec = s.sec := by
  cases c with
  | powerOnReset ns =>
    obtain rfl : (if ns < 100 then s else powerOn s true) = t := Host.Outcome.next.inj ht
    split <;> simp
  | powerGoodLost ns =>
    obtain rfl : (if ns < 100 then s else powerOn s false) = t := Host.Outcome.next.inj ht
    split <;> simp
  | perstNAssert ns =>
    replace ht : execPerstNAssert ns s = .next t := ht
    unfold execPerstNAssert at ht; cases ht; repeat' split
    all_goals simp
  | fabricResetStart =>
    replace ht : execFabricResetStart s = .next t := ht
    unfold execFabricResetStart at ht; cases ht; repeat' split
    all_goals simp
  | _ => cases hc

/-! ### Every command and the unlock level -/

/-- Outside Reset no command but a reset lowers the level. -/
theorem exec_levelHolds (c : Instr) {s : State} (hs : s.mode ≠ .reset) (hc : resetCommand c = false) : LevelHolds s (exec c s) := by
  cases c with
  | powerOnReset _ => cases hc
  | powerGoodLost _ => cases hc
  | perstNAssert _ => cases hc
  | perstNDeassert => exact execPerstNDeassert_levelHolds hs
  | slotWarnCutTimer n => exact execSlotWarnCutTimer_levelHolds n hs
  | slotPowerDieReset mv durNs => exact execSlotPowerDieReset_levelHolds mv durNs s
  | ingotSlotFetch img => exact execIngotSlotFetch_levelHolds img s
  | ingotApply hwError => exact execIngotApply_levelHolds hwError s
  | assayBlockDone b o => exact execAssayBlockDone_levelHolds b o s
  | assayStationPairStart => exact execAssayStationPairStart_levelHolds s
  | internalInitDone => exact execInternalInitDone_levelHolds s
  | assayEnd => exact execAssayEnd_levelHolds s
  | lifecycleBurn => exact execLifecycleBurn_levelHolds s
  | mbxClaimRead path => exact execMbxClaimRead_levelHolds path s
  | mbxRelease path => exact execMbxRelease_levelHolds path s
  | mbxIdleRelease => exact execMbxIdleRelease_levelHolds s
  | getState _ _ => exact levelHolds_issue
  | ackFaultEntry _ _ _ => exact levelHolds_issue
  | ackFaultUpToLevel _ _ _ => exact levelHolds_issue
  | ackFaultAll _ _ => exact levelHolds_issue
  | releaseContain _ _ _ => exact levelHolds_issue
  | amend _ _ _ _ _ => exact levelHolds_issue
  | amendPart _ _ _ _ _ => exact levelHolds_issue
  | slotPowerRead _ _ _ => exact levelHolds_issue
  | slotPowerOn _ _ _ => exact levelHolds_issue
  | slotPowerForceOn _ _ _ => exact levelHolds_issue
  | slotPowerOff _ _ _ => exact levelHolds_issue
  | slotPowerOffDrain _ _ _ => exact levelHolds_issue
  | slotPowerClearLatch _ _ _ => exact levelHolds_issue
  | assayStation _ _ _ _ => exact levelHolds_issueWith
  | assayStationHang => exact execAssayStationHang_levelHolds s
  | setTime _ _ _ _ => exact levelHolds_issue
  | setTimeTimeout => exact execSetTimeTimeout_levelHolds s
  | snapshotAt _ _ _ _ => exact levelHolds_issue
  | snapshotTake => exact execSnapshotTake_levelHolds s
  | routeEpoch _ _ _ _ => exact levelHolds_issue
  | routeEpochPrepareTimeout => exact execRouteEpochPrepareTimeout_levelHolds s
  | epochFlip => exact execEpochFlip_levelHolds s
  | drainTimeout chip => exact execDrainTimeout_levelHolds chip s
  | unlockChallenge _ _ _ => exact levelHolds_issue
  | unlockResponse _ _ _ _ => exact levelHolds_issueWith
  | unlockHoldEnd => exact execUnlockHoldEnd_levelHolds s
  | enterMaintTarget0 _ _ => exact levelHolds_issue
  | maintBufferScrub => exact execMaintBufferScrub_levelHolds s
  | scrubDone => exact execScrubDone_levelHolds s
  | enterMaintTarget1 _ _ => exact levelHolds_issue
  | injectMessage _ _ _ => exact levelHolds_issue
  | injectRailAlarm _ _ _ _ => exact levelHolds_issue
  | injectRailEqual _ _ _ _ => exact levelHolds_issue
  | injectD2dBreak _ _ _ => exact levelHolds_issue
  | evictTenant _ _ _ => exact levelHolds_issue
  | evictComplete t => exact execEvictComplete_levelHolds t s
  | evictTimeout => exact execEvictTimeout_levelHolds s
  | groupAdminRead _ _ _ _ => exact levelHolds_issue
  | groupAdminAdd _ _ _ _ => exact levelHolds_issue
  | groupAdminRemove _ _ _ _ => exact levelHolds_issue
  | resume _ _ => exact levelHolds_issue
  | passwordUnlock _ _ _ => exact levelHolds_issue
  | registerWrite target be value => exact execRegisterWrite_levelHolds target be value s
  | timNowloRead path => exact execTimNowloRead_levelHolds path s
  | vfNtfypopRead t be => exact execVfNtfypopRead_levelHolds t be s
  | vfSqtailWrite t tail => exact execVfSqtailWrite_levelHolds t tail s
  | fabGopBarrier path barrierId => exact execFabGopBarrier_levelHolds path barrierId s
  | fabGopBroadcast path => exact execFabGopBroadcast_levelHolds path s
  | fabGopCancel path => exact execFabGopCancel_levelHolds path s
  | fabGopFabricReset path confirm => exact execFabGopFabricReset_levelHolds path confirm s
  | mcReceiveWrite x bits => exact execMcReceiveWrite_levelHolds x bits s
  | linkDisable port writer disable => exact execLinkDisable_levelHolds port writer disable s
  | retrainLink port writer => exact execRetrainLink_levelHolds port writer s
  | targetLinkSpeedWrite port writer speed => exact execTargetLinkSpeedWrite_levelHolds port writer speed s
  | dpcSoftwareTrigger port => exact execDpcSoftwareTrigger_levelHolds port s
  | dpcTriggerStatusClear port => exact execDpcTriggerStatusClear_levelHolds port s
  | vfBmeClear t => exact execVfBmeClear_levelHolds t s
  | vfBmeSet t => exact execVfBmeSet_levelHolds t s
  | vfFlr t => exact execVfFlr_levelHolds t s
  | vfFlrComplete t => exact execVfFlrComplete_levelHolds t s
  | laneMarginingCommand st j lastStepNs => exact execLaneMarginingCommand_levelHolds st j lastStepNs s
  | i3cWrite off bytes => exact execI3cWrite_levelHolds off bytes s
  | i3cReadSetup off count => exact execI3cReadSetup_levelHolds off count s
  | i3cPrivateRead => exact execI3cPrivateRead_levelHolds s
  | i3cAddressAssign addr => exact execI3cAddressAssign_levelHolds addr s
  | debugMasterAccess via gate write addr len data => exact execDebugMasterAccess_levelHolds via gate write addr len data s
  | jtagKeyProvision slot key => exact execJtagKeyProvision_levelHolds slot key s
  | jtagFieldReturn => exact execJtagFieldReturn_levelHolds s
  | spdmRequest port req => exact execSpdmRequest_levelHolds port req s
  | requestReceived port tlp => exact execRequestReceived_levelHolds port tlp s
  | poolWindowAccess t a => exact execPoolWindowAccess_levelHolds t a s
  | multicastWrite port => exact execMulticastWrite_levelHolds port s
  | atomicAdmitTimeout port => exact execAtomicAdmitTimeout_levelHolds port s
  | parkRedelivery g dest readError => exact execParkRedelivery_levelHolds g dest readError s
  | deliveryReportWrite => exact execDeliveryReportWrite_levelHolds s
  | sampleWrite writerFull => exact execSampleWrite_levelHolds writerFull s
  | completionReceived port tlp => exact execCompletionReceived_levelHolds port tlp s
  | errorMessageReceived port tlp => exact execErrorMessageReceived_levelHolds port tlp s
  | ptmRequest port rxStamp => exact execPtmRequest_levelHolds port rxStamp s
  | admitTlp a => exact execAdmit_levelHolds a s
  | policerTick => exact execPolicerTick_levelHolds s
  | descriptorClose id c => exact execDescriptorClose_levelHolds id c s
  | egressSelection port m => exact execEgressSelection_levelHolds port m s
  | stallRel port => exact execStallRel_levelHolds port s
  | fabricStallStomp x => exact execFabricStallStomp_levelHolds x s
  | thresholdTick => exact execThresholdTick_levelHolds s
  | shaperRefill => exact execShaperRefill_levelHolds s
  | gateBoundary port => exact execGateBoundary_levelHolds port s
  | gateListSwitch port => exact execGateListSwitch_levelHolds port s
  | monitorSample port => exact execMonitorSample_levelHolds port s
  | completionTimeout => exact execCompletionTimeout_levelHolds s
  | tagQuarantineEnd => exact execTagQuarantineEnd_levelHolds s
  | ideQuarantineEnd => exact execIdeQuarantineEnd_levelHolds s
  | containmentComplete port => exact execContainmentComplete_levelHolds port s
  | orderlyDrainEnd port => exact execOrderlyDrainEnd_levelHolds port s
  | linkDlUp port width retimers reversed peerRate peerFlit peerBypass tag10 peerChip =>
    exact execLinkDlUp_levelHolds port width retimers reversed peerRate peerFlit peerBypass tag10 peerChip s
  | linkDlDown port => exact execLinkDlDown_levelHolds port s
  | tagCapabilityRead port tag10 tag14 => exact execTagCapabilityRead_levelHolds port tag10 tag14 s
  | rateEqComplete port rate eyes => exact execRateEqComplete_levelHolds port rate eyes s
  | alignmentHunt st j blocks => exact execAlignmentHunt_levelHolds st j blocks s
  | alignLost st x => exact execAlignLost_levelHolds st x s
  | los st x => exact execLos_levelHolds st x s
  | lockLost st x => exact execLockLost_levelHolds st x s
  | quadPll st x => exact execQuadPll_levelHolds st x s
  | quadPllRelock st q => exact execQuadPllRelock_levelHolds st q s
  | quadFail st q => exact execQuadFail_levelHolds st q s
  | quadRelockRetry st q relocked => exact execQuadRelockRetry_levelHolds st q relocked s
  | laneGroupReset st q => exact execLaneGroupReset_levelHolds st q s
  | burnishStep st j base up down => exact execBurnishStep_levelHolds st j base up down s
  | aspmL1Entry e byPartner => exact execAspmL1Entry_levelHolds e byPartner s
  | stationClockWake st => exact execStationClockWake_levelHolds st s
  | l0pNarrow x width => exact execL0pNarrow_levelHolds x width s
  | l0pWiden x => exact execL0pWiden_levelHolds x s
  | fabricTlpReceived port f tlp => exact execFabricTlpReceived_levelHolds port f tlp s
  | chipidClash port => exact execChipidClash_levelHolds port s
  | hello port body => exact execHello_levelHolds port body s
  | helloSend port => exact execHelloSend_levelHolds port s
  | joinWindowEnd => exact execJoinWindowEnd_levelHolds s
  | hold port => exact execHold_levelHolds port s
  | eack x epoch count => exact execEack_levelHolds x epoch count s
  | eackSend => exact execEackSend_levelHolds s
  | sync port tx rx => exact execSync_levelHolds port tx rx s
  | syncSend => exact execSyncSend_levelHolds s
  | delayMeasure => exact execDelayMeasure_levelHolds s
  | delayReq port m => exact execDelayReq_levelHolds port m s
  | followerHoldover => exact execFollowerHoldover_levelHolds s
  | presence port dir bitmap => exact execPresence_levelHolds port dir bitmap s
  | presenceSend => exact execPresenceSend_levelHolds s
  | gop port dir body => exact execGop_levelHolds port dir body s
  | fabricResetStart => cases hc
  | fault port origin level msg => exact execFault_levelHolds port origin level msg s
  | fabricLinkDown port => exact execFabricLinkDown_levelHolds port s
  | ringInputChange st => exact execRingInputChange_levelHolds st s
  | ringArm => exact execRingArm_levelHolds s
  | ppsEdge => exact execPpsEdge_levelHolds s
  | holdover => exact execHoldover_levelHolds s
  | replicaSync => exact execReplicaSync_levelHolds s
  | cupelMessage => exact execCupelMessage_levelHolds s
  | railAlarm r => exact execRailAlarm_levelHolds r s
  | railEqual r => exact execRailEqual_levelHolds r s
  | faultConditionEnd entry => exact execFaultConditionEnd_levelHolds entry s
  | msgOvf r => exact execMsgOvf_levelHolds r s
  | aliveToggle patternOk => exact execAliveToggle_levelHolds patternOk s
  | temperatureRead quarterDegrees => exact execTemperatureRead_levelHolds quarterDegrees s
  | hkWatchdog => exact execHkWatchdog_levelHolds s
  | avsTick slacks => exact execAvsTick_levelHolds slacks s
  | avsRetry acked => exact execAvsRetry_levelHolds acked s
  | d2dFrame side f => exact execD2dFrame_levelHolds side f s
  | d2dResend => exact execD2dResend_levelHolds s
  | d2dLost side => exact execD2dLost_levelHolds side s
  | presencePinChange n pinB asserted heldNs => exact execPresencePinChange_levelHolds n pinB asserted heldNs s
  | seated n => exact execSeated_levelHolds n s
  | removed n => exact execRemoved_levelHolds n s
  | identify n r => exact execIdentify_levelHolds n r s
  | tinningStart n feedA feedB => exact execTinningStart_levelHolds n feedA feedB s
  | powerGood o => exact execPowerGood_levelHolds o s
  | rampTimeout n => exact execRampTimeout_levelHolds n s
  | rampLimit o => exact execRampLimit_levelHolds o s
  | shortDuringRamp o => exact execShortDuringRamp_levelHolds o s
  | breaker o => exact execBreaker_levelHolds o s
  | severe o => exact execSevere_levelHolds o s
  | perstDelayEnd n => exact execPerstDelayEnd_levelHolds n s
  | feedWarnChange n active => exact execFeedWarnChange_levelHolds n active s
  | warnEnd n => exact execWarnEnd_levelHolds n s
  | feedSwap o => exact execFeedSwap_levelHolds o s
  | gateStuck o => exact execGateStuck_levelHolds o s
  | swapGapEnd n => exact execSwapGapEnd_levelHolds n s
  | feedReturn o => exact execFeedReturn_levelHolds o s
  | bothBad o => exact execBothBad_levelHolds o s
  | fetFail o feedA feedB => exact execFetFail_levelHolds o feedA feedB s
  | retryTimerEnd n => exact execRetryTimerEnd_levelHolds n s
  | faultCountReset n => exact execFaultCountReset_levelHolds n s
  | patinaHour n writeOk => exact execPatinaHour_levelHolds n writeOk s
  | energyIntegrate n feeds out => exact execEnergyIntegrate_levelHolds n feeds out s
  | hallmarkPass x => exact execHallmarkPass_levelHolds x s
  | hallmarkFail n result => exact execHallmarkFail_levelHolds n result s
  | channelBringup c probe => exact execChannelBringup_levelHolds c probe s
  | selfRefreshEntry c => exact execSelfRefreshEntry_levelHolds c s
  | lotFillDone lot => exact execLotFillDone_levelHolds lot s
  | engineDescriptorStart t => exact execEngineDescriptorStart_levelHolds t s
  | engineDescriptorDone t err => exact execEngineDescriptorDone_levelHolds t err s
  | notify t => exact execNotify_levelHolds t s
  | patrolBurst c errors => exact execPatrolBurst_levelHolds c errors s
  | ddrAlert c retries cleared => exact execDdrAlert_levelHolds c retries cleared s
  | channelLost c byAlert => exact execChannelLost_levelHolds c byAlert s
  | logLimitMs => exact execLogLimitMs_levelHolds s
  | recovery r => exact execRecovery_levelHolds r s
  | rateOrWidthChange port rate width active byL0p => exact execRateOrWidthChange_levelHolds port rate width active byL0p s
  | losDeassert st x => exact execLosDeassert_levelHolds st x s
  | cdrLock st j => exact execCdrLock_levelHolds st j s
  | chipidClashRetry port => exact execChipidClashRetry_levelHolds port s
  | vccPdResetRelease mv => exact execVccPdResetRelease_levelHolds mv s
  | hotReset port writer => exact execHotReset_levelHolds port writer s

/-- A level holds until the device is reset (R391). -/
theorem le_level_exec {c : Instr} {s t : State} (ht : exec c s = .next t) (hs : s.mode ≠ .reset) (htm : t.mode ≠ .reset) :
    s.sec.level ≤ t.sec.level := by
  cases hc : resetCommand c with
  | true =>
    have hsec : t.sec = s.sec := (exec_resetCommand hc ht).resolve_left htm
    exact Nat.le_of_eq (congrArg Sec.level hsec.symm)
  | false => exact exec_levelHolds c hs hc t ht

/-! ### Commands for a level that the device has -/

theorem issue_password_level {s : State} (p : Path) (seq : Byte) (b : List Byte) (h : 1 ≤ s.sec.level) :
    (issue s p seq 0x11 b).sec.level = s.sec.level := by
  rcases issueWith_level s p seq 0x11 b (Config.sigOf []) (Config.runtimeAssay 0 s.clock) with he | he
  · exact he
  · rw [issue, he]
    exact (cmdPassword_level ..).trans (Nat.max_eq_left h)

theorem issueWith_response_level {s : State} {c : Challenge} (p : Path) (seq : Byte) (b : List Byte) (sig : Sig) (run : RuntimeAssay)
    (hc : s.sec.challenge = some c) (h : c.level ≤ s.sec.level) : (issueWith s p seq 0x0B b sig run).sec.level = s.sec.level := by
  rcases issueWith_level s p seq 0x0B b sig run with he | he
  · exact he
  · rw [he]
    exact (cmdResponse_level (s := loadCmd s p seq 0x0B b) p seq hc).trans (Nat.max_eq_left h)

theorem runCode_sec_of_argBad {s : State} {code : Nat} {b : List Byte} (path : Path) (seq : Byte) (sig : Sig) (run : RuntimeAssay)
    (h : argBad s code b = true) : (runCode s path seq code b sig run).sec = s.sec := by
  unfold runCode; split
  · simp
  · simp [h]

theorem leAt_leBytes_byte (n : Nat) (l : Byte) : leAt (leBytes (n + 1) l.toNat) 0 1 = l.toNat := by
  simp [leAt, leBytes, leNat]

/-- UNLOCK_CHALLENGE for a level that the device has is malformed (step 2 of R66). -/
theorem argBad_challenge {s : State} {l : Byte} (h : l.toNat ≤ s.sec.level) : argBad s 0x0A (leBytes 4 l.toNat) = true := by
  simp [argBad, leAt_leBytes_byte, challengeBad, h]

theorem issue_challenge_sec {s : State} (p : Path) (seq l : Byte) (h : l.toNat ≤ s.sec.level) :
    (issue s p seq 0x0A (leBytes 4 l.toNat)).sec = s.sec := by
  unfold issue issueWith; split
  · exact runCode_sec_of_argBad (s := loadCmd s p seq 0x0A (leBytes 4 l.toNat)) p seq _ _ (argBad_challenge h)
  · rfl

/-! ### Entry to Maintenance -/

@[simp] theorem logDiscard_mode (s : State) (code : Nat) (cmd : Option (Path × Byte)) : (logDiscard s code cmd).mode = s.mode := by
  unfold logDiscard; split <;> simp

@[simp] theorem stopPrepare_mode (s : State) : (stopPrepare s).mode = s.mode := by
  unfold stopPrepare; split <;> simp

@[simp] theorem stopAssay_mode (s : State) : (stopAssay s).mode = s.mode := by
  unfold stopAssay; split
  · rfl
  · dsimp only; split <;> simp

@[simp] theorem leaveService_mode (s : State) : (leaveService s).mode = s.mode := by
  simp only [leaveService]
  rw [foldl_mode]
  · split <;> split <;> simp
  · intro a p
    dsimp only; split <;> simp

@[simp] theorem evictDesc_mode (s : State) (d : Desc) : (evictDesc s d).mode = s.mode := by
  unfold evictDesc; dsimp only; split <;> simp

@[simp] theorem evictGroups_mode (s : State) (t : Nat) : (evictGroups s t).mode = s.mode := by simp [evictGroups]

@[simp] theorem evictNow_mode (s : State) (t : Nat) : (evictNow s t).1.mode = s.mode := by simp [evictNow]

@[simp] theorem evictAll_mode (s : State) : (evictAll s).mode = s.mode := by
  refine foldl_mode _ _ _ (fun a t => ?_)
  split <;> simp

theorem enterMaintenance_mode (s : State) : (enterMaintenance s).mode = .maintenance := by simp [enterMaintenance, setMode]

theorem cmdEnterMaint0_mode (s : State) (path : Path) (seq : Byte) : (cmdEnterMaint s path seq 0).mode = .maintenance := by
  simp [cmdEnterMaint, enterMaintenance_mode]

/-- ENTER_MAINT with TARGET 0 passes every check of R66 in Run and Degraded at level 2. -/
theorem issue_enterMaint0 {s : State} {p : Path} (seq : Byte) (hi : mayIssue s p = true) (hk : s.hkRunning = true)
    (hr : s.inRunModes = true) (hl : 2 ≤ s.sec.level) :
    issue s p seq 0x0C (leBytes 4 0) = cmdEnterMaint (loadCmd s p seq 0x0C (leBytes 4 0)) p seq 0 := by
  have hx : leAt (leBytes 4 0) 0 1 = 0 := by decide
  have hr' : (loadCmd s p seq 0x0C (leBytes 4 0)).inRunModes = true := hr
  have hk' : (loadCmd s p seq 0x0C (leBytes 4 0)).hkRunning = true := hk
  have hlen : (leBytes 4 0).length = 4 := by decide
  simp [issue, issueWith, hi, runCode, legalModes, argBad, conflicts, denied, authFails, carryOut, hx, hr', hk', hlen,
    Nat.not_lt.2 hl]

/-- Settles O5: no command but a reset lowers the level, the unlock commands only ever raise it to the level that they prove, and
ENTER_MAINT asks for level 2 or more. -/
theorem unlockLevelHoldsUntilChipReset : Obligations.UnlockLevelHoldsUntilChipReset := by
  refine ⟨fun c s t => le_level_exec, fun s t p seq pw ht h => ?_, fun s t p seq l ht h => ?_,
    fun s t p seq n sig c ht hc h => ?_, fun s p seq hi hk hr hl => ?_⟩
  · obtain rfl := Host.Outcome.next.inj ht
    exact issue_password_level p seq _ h
  · obtain rfl := Host.Outcome.next.inj ht
    exact issue_challenge_sec p seq l h
  · obtain rfl := Host.Outcome.next.inj ht
    exact issueWith_response_level p seq _ sig _ hc h
  · refine ⟨_, rfl, ?_⟩
    rw [issue_enterMaint0 seq hi hk hr (by omega)]
    exact cmdEnterMaint0_mode ..

end Sys2Proof.Machine
end
